-- ==== Sys2Proof/Word.lean ====
section
/-!
DEFINITION. The word types of the Staleben machine: every register is 32 bits (R20), every instruction 96 bits (R45),
every memory unit a byte (R4). Only the types and their plainest arithmetic stand here.
-/

namespace Sys2Proof

/-- One byte of memory. -/
abbrev Byte := BitVec 8

/-- One 32-bit register (R20). -/
abbrev Word := BitVec 32

/-- A register pair read as one value (R24), and a flat address before its check (R65). -/
abbrev DWord := BitVec 64

/-- A program counter: 57 bits (R18, R19). -/
abbrev Pc := BitVec 57

/-- One instruction word (R45). -/
abbrev IWord := BitVec 96

/-- The 64-bit value of a pair: the even register is the low word (R24). -/
def pairOf (lo hi : Word) : DWord := hi ++ lo

/-- The low word of a 64-bit value. -/
def loWord (v : DWord) : Word := v.setWidth 32

/-- The high word of a 64-bit value. -/
def hiWord (v : DWord) : Word := (v >>> 32).setWidth 32

/-- 1 for true and 0 for false, as the pseudocode uses them. -/
def boolWord (b : Bool) : Word := if b then 1#32 else 0#32

end Sys2Proof
end

