-- ==== Sys2Proof/Syntax.lean ====
section
/-!
DEFINITION. The syntax of the Staleben machine: registers, source fields, guards, modifiers, and the ONE inductive
Instr with a constructor for every row of the opcode table: the instructions of the opcode map (R120) and the whole
steps of the units, the fabric and the host that the table lists beside them (95_what_each_step_holds).
-/

namespace Sys2Proof

/-! ### Operands -/

/-- A thread-visible register by its block and number (R20). Indices 0x70 to 0x7F name no register. -/
inductive Reg where
  | g (n : Fin 16)
  | w (n : Fin 32)
  | s (n : Fin 32)
  | k (n : Fin 32)
  deriving DecidableEq, Repr

/-- A permute pattern (R50): which lane of the cohort a source is read from. -/
inductive Perm where
  | same
  | bfly (n : Fin 5)
  | rot (n : Fin 7)
  | rev
  | repl (lane : Fin 32)
  deriving DecidableEq, Repr

/-- A source field (R49): a register or a forward latch, through a permute pattern. -/
inductive Src where
  | reg (r : Reg) (p : Perm)
  | latch (n : Fin 4) (p : Perm)
  deriving DecidableEq, Repr

/-- The srcB position of the integer group and of four compares: a source field or the immediate of IB = 1 (R125). -/
inductive SrcB where
  | src (a : Src)
  | imm (v : BitVec 12)
  deriving DecidableEq, Repr

/-- The guard of an instruction: its truth table and the three predicates it is read over (R54). -/
structure Guard where
  tt : BitVec 8
  pa : Fin 8
  pb : Fin 8
  pc : Fin 8
  deriving DecidableEq, Repr

/-- A register result: the destination, write-back suppress and the result latch (R45, R58). -/
structure Dest where
  reg : Reg
  wbs : Bool
  rl : Fin 4
  deriving DecidableEq, Repr

/-- A B-form target: signed count of fetch lines and a slot (R46, R48). -/
structure Target where
  off : BitVec 32
  slot : Fin 5
  deriving DecidableEq, Repr

/-! ### Modifiers -/

/-- Relations of a compare (R134). -/
inductive Rel where | eq | ne | lt | le | gt | ge
  deriving DecidableEq, Repr

/-- Accumulate modes of a compare (R135). -/
inductive CmpMode where | plain | and | or | xor
  deriving DecidableEq, Repr

/-- The formats FCLASS accepts (R138). -/
inductive ClassFmt where | f32 | f16 | bf16
  deriving DecidableEq, Repr

/-- Rounding modes (R80). -/
inductive RMode where | rne | rz | ru | rd
  deriving DecidableEq, Repr

/-- The sixteen format codes (R69). -/
inductive Fmt where
  | n8 | n16 | n32 | n64 | s8 | s16 | s32 | s64 | f32 | f16 | bf16 | e4m3 | e5m2 | e2m1 | e8m0 | lc2
  deriving DecidableEq, Repr

/-- Operand formats of FDOT8 (R165). -/
inductive DotFmt where | e4m3 | e5m2 | e2m1
  deriving DecidableEq, Repr

/-- Sizes and extensions a load accepts (R146). -/
inductive LdSize where | n8 | s8 | n16 | s16 | w32 | d64 | q128
  deriving DecidableEq, Repr

/-- Sizes a store accepts (R146). -/
inductive StSize where | b8 | b16 | b32 | b64 | b128
  deriving DecidableEq, Repr

/-- Fill modes of STSFE and STW (R323). -/
inductive FillMode where | wait | trap | ovw
  deriving DecidableEq, Repr

/-- Subscription formats (R327). -/
inductive SubFmt where | f32 | f16 | bf16 | e4m3 | e5m2 | native
  deriving DecidableEq, Repr

/-- Domains (R270). -/
inductive Dom where | team | clus | die | pkg | fab
  deriving DecidableEq, Repr

/-- Prefetch levels (R334). -/
inductive PfLevel where | l1 | l2 | ms
  deriving DecidableEq, Repr

/-- Widths of an atomic (R337). -/
inductive AtSize where | w4 | w8
  deriving DecidableEq, Repr

/-- Logical atomics (R337). -/
inductive LogOp where | and | or | xor
  deriving DecidableEq, Repr

/-- Integer reductions (R337). -/
inductive RedOp where | add | min | max
  deriving DecidableEq, Repr

/-- Floating atomics (R337). -/
inductive AtFmt where | f32 | h2 | bf2
  deriving DecidableEq, Repr

/-- Kinds of POLL (R217). -/
inductive PollKind where | mask | some | every | count
  deriving DecidableEq, Repr

/-- Barrier levels (R206). -/
inductive BarLevel where | cohort | team | cluster
  deriving DecidableEq, Repr

/-- A barrier as an instruction names it (R219). -/
structure BarRef where
  lev : BarLevel
  num : Fin 16
  deriving DecidableEq, Repr

/-- Engine classes (R343). -/
inductive EngClass where | cpe | pme | sel | bke | wlk | cle
  deriving DecidableEq, Repr

/-- Record kinds (R361). -/
inductive RecKind where | tensor | scale | walk | bank | coll
  deriving DecidableEq, Repr

/-- The common fields of an instruction that issues engine commands (R47, R348): token register, guard slot and
not-before pair. -/
structure ECom where
  tk : Option (Fin 32)
  gq : Option (Fin 16)
  nbt : Option Src
  deriving DecidableEq, Repr

/-- The system registers of R150. CERQ7 has an instruction row of its own when it is read. -/
inductive SysReg where
  | flg | win | spal | spah | epcl | epch | lctl
  | trw (n : Fin 16)
  | cerq (n : Fin 8)
  deriving DecidableEq, Repr

/-! ### Names of machine objects that the events carry -/

/-- A team by its launch identifier and its index k3. -/
structure TeamId where
  lid : Nat
  k3 : Nat
  deriving DecidableEq, Repr

/-- A cohort by its team and its number k1. -/
structure CohId where
  team : TeamId
  k1 : Nat
  deriving DecidableEq, Repr

/-- A thread by its cohort and its lane k0. -/
structure Tid where
  coh : CohId
  lane : Fin 32
  deriving DecidableEq, Repr

/-- A core by its die and its number within the die. -/
structure CoreId where
  die : Nat
  core : Nat
  deriving DecidableEq, Repr

/-- A partition of a core (R181). -/
structure PartId where
  core : CoreId
  part : Nat
  deriving DecidableEq, Repr

/-- A bank engine by its stack and its number (R382). -/
structure BankId where
  stack : Nat
  eng : Nat
  deriving DecidableEq, Repr

/-- A page key: address space and virtual page number (R468, R471). -/
structure PageKey where
  asid : Nat
  vpn : Nat
  deriving DecidableEq, Repr

/-- A step between modules about a page: its key and the step's sequence number (R475). -/
structure PageStep where
  key : PageKey
  seq : Nat
  deriving DecidableEq, Repr

/-- Kinds of access a translation serves (R465, R468). -/
inductive AccKind where | read | write | fetch
  deriving DecidableEq, Repr

/-- The scope of a power state (R554). -/
inductive PwrScope where
  | cluster (die cl : Nat)
  | die (d : Nat)
  deriving DecidableEq, Repr

/-- Places that hold event counters (R557). -/
inductive CtrPlace where
  | core (c : CoreId)
  | die (d : Nat)
  | vnp
  deriving DecidableEq, Repr

/-- A link between two dies: the other end is a compute die 0 to 3, or 4 for the IOD (R507, R510). -/
structure LinkId where
  die : Nat
  other : Nat
  deriving DecidableEq, Repr

/-- A page of a storage server (R472): its endpoint, object and page index. -/
structure Locator where
  server : Nat
  object : Nat
  page : Nat
  deriving DecidableEq, Repr

/-- Where the master copy of a page is (R472, R473): a frame of a module, or a storage server. -/
inductive PageSource where
  | module (m frame : Nat)
  | storage (l : Locator)
  deriving DecidableEq, Repr

/-- A home's answer to a directory request (R474, R481, R482): the master copy's place, the lease end of a shared
copy, and for one that grants ownership whether it carries the page. -/
inductive DirReply where
  | shared (src : PageSource) (lease : Nat)
  | owned (src : PageSource) (carries : Bool)
  | absent
  | refused
  deriving DecidableEq, Repr

/-- Delivery modes of UEC 1.0 (R512): reliable unordered and ordered, unreliable unordered, and reliable unordered for idempotent
operations. -/
inductive Delivery where | rud | rod | uud | rudi
  deriving DecidableEq, Repr

/-- Semantic sublayer operations (R512): send, RMA write, and every other. -/
inductive UetOp where | send | rmaWrite | other
  deriving DecidableEq, Repr

/-- The Umril header (R514). -/
structure UmrilHdr where
  ver : Nat
  src : Nat
  dst : Nat
  cls : Nat
  len : Nat
  tag : Nat
  seq : Nat
  deriving DecidableEq, Repr

/-- A packet that arrives at a port (R512), with the Umril header of its message, the length of the UET message, header included, and the
payload's first word, which CLASS 5 is read by (R533); the rest of a payload travels in the events that take the message. -/
structure Umril where
  port : Nat
  mode : Delivery
  op : UetOp
  hdr : UmrilHdr
  uetLen : Nat
  word : Nat
  deriving DecidableEq, Repr

/-- What an IEEE 1588 message of R519 says: a master's rank in the best master clock algorithm, lower before higher; a two-step Sync and
its origin time with its correction; a two-step peer-delay response, to a request sent and received at times, and when it was sent; and
that lock is lost. Times are ticks. -/
inductive PtpBody where
  | announce (rank master : Nat)
  | sync (master seq : Nat)
  | followUp (master seq origin : Nat) (correction : Int)
  | delayResp (asked got : Nat)
  | delayFollowUp (sent : Nat)
  | lost
  deriving DecidableEq, Repr

/-- An IEEE 1588 message at a port (R519). -/
structure Ptp where
  port : Nat
  body : PtpBody
  deriving DecidableEq, Repr

/-- An image of the boot (R550): whether its signature verifies, and its anti-rollback version. -/
structure Image where
  signed : Bool
  version : Nat
  deriving DecidableEq, Repr

/-- What a boot finds (R550): whether the links and DRAM train, the host firmware, and the images that it loads: CP microcode, VNP
microcode and the supervisor. -/
structure BootInput where
  links : Bool
  dram : Bool
  firmware : Image
  cp : Image
  vnp : Image
  supervisor : Image
  deriving DecidableEq, Repr

/-- The first bytes of a host command (R552): its code and its reserved bytes. -/
structure CommandHead where
  code : Nat
  reserved : Nat
  deriving DecidableEq, Repr


/-- The causes of the illegal-instruction class (R435). -/
inductive Cause where
  | opcode | template | pair | lineWord | fetchParity | register | source | permute | slot | destination | latch
  | modifier | depthLimit | returnAtBase | sysreg | context | window | format | runLength | resource | byteOverflow
  | stage | operand
  deriving DecidableEq, Repr

/-! ### Instructions and steps -/

/-- Every row of the opcode table: the instructions of the opcode map (R119, R120), each with its guard and operands, and
after them the whole steps of the units, the fabric and the host that the table lists. -/
inductive Instr where
  /-- ADD, opcode 0x00. -/
  | add (gd : Guard) (d : Dest) (a : Src) (b : SrcB) (co : Bool)
  /-- SUB, opcode 0x01. -/
  | sub (gd : Guard) (d : Dest) (a : Src) (b : SrcB) (co : Bool)
  /-- ADDC, opcode 0x02. -/
  | addc (gd : Guard) (d : Dest) (a : Src) (b : SrcB) (c : Src) (co : Bool)
  /-- SUBB, opcode 0x03. -/
  | subb (gd : Guard) (d : Dest) (a : Src) (b : SrcB) (c : Src) (co : Bool)
  /-- MUL, opcode 0x04. -/
  | mul (gd : Guard) (d : Dest) (a : Src) (b : SrcB)
  /-- MULH_S, opcode 0x05. -/
  | mulhS (gd : Guard) (d : Dest) (a : Src) (b : SrcB)
  /-- MULH_N, opcode 0x06. -/
  | mulhN (gd : Guard) (d : Dest) (a : Src) (b : SrcB)
  /-- MAD, opcode 0x07. -/
  | mad (gd : Guard) (d : Dest) (a : Src) (b : SrcB) (c : Src)
  /-- MADW, opcode 0x08. -/
  | madw (gd : Guard) (d : Dest) (a : Src) (b : SrcB) (c : Src) (sg : Bool)
  /-- DIV_S, opcode 0x09. -/
  | divS (gd : Guard) (d : Dest) (a : Src) (b : SrcB)
  /-- DIV_N, opcode 0x0A. -/
  | divN (gd : Guard) (d : Dest) (a : Src) (b : SrcB)
  /-- REM_S, opcode 0x0B. -/
  | remS (gd : Guard) (d : Dest) (a : Src) (b : SrcB)
  /-- REM_N, opcode 0x0C. -/
  | remN (gd : Guard) (d : Dest) (a : Src) (b : SrcB)
  /-- MIN_S, opcode 0x0D. -/
  | minS (gd : Guard) (d : Dest) (a : Src) (b : SrcB)
  /-- MIN_N, opcode 0x0E. -/
  | minN (gd : Guard) (d : Dest) (a : Src) (b : SrcB)
  /-- MAX_S, opcode 0x0F. -/
  | maxS (gd : Guard) (d : Dest) (a : Src) (b : SrcB)
  /-- MAX_N, opcode 0x10. -/
  | maxN (gd : Guard) (d : Dest) (a : Src) (b : SrcB)
  /-- ABS, opcode 0x11. -/
  | abs (gd : Guard) (d : Dest) (a : Src)
  /-- NEG, opcode 0x12. -/
  | neg (gd : Guard) (d : Dest) (a : Src)
  /-- LOGT, opcode 0x13. -/
  | logt (gd : Guard) (d : Dest) (a : Src) (b : SrcB) (c : Src) (lut : BitVec 8)
  /-- SHL, opcode 0x14. -/
  | shl (gd : Guard) (d : Dest) (a : Src) (b : SrcB)
  /-- SHR_N, opcode 0x15. -/
  | shrN (gd : Guard) (d : Dest) (a : Src) (b : SrcB)
  /-- SHR_S, opcode 0x16. -/
  | shrS (gd : Guard) (d : Dest) (a : Src) (b : SrcB)
  /-- ROT, opcode 0x17. -/
  | rot (gd : Guard) (d : Dest) (a : Src) (b : SrcB)
  /-- FSHL, opcode 0x18. -/
  | fshl (gd : Guard) (d : Dest) (a : Src) (b : SrcB) (c : Src)
  /-- BFX, opcode 0x19. -/
  | bfx (gd : Guard) (d : Dest) (a : Src) (b : SrcB) (sx : Bool)
  /-- BFI, opcode 0x1A. -/
  | bfi (gd : Guard) (d : Dest) (a : Src) (b : SrcB) (c : Src)
  /-- POPC, opcode 0x1B. -/
  | popc (gd : Guard) (d : Dest) (a : Src)
  /-- CLZ, opcode 0x1C. -/
  | clz (gd : Guard) (d : Dest) (a : Src)
  /-- BREV, opcode 0x1D. -/
  | brev (gd : Guard) (d : Dest) (a : Src)
  /-- PSEL, opcode 0x1E. -/
  | psel (gd : Guard) (d : Dest) (a : Src) (b : SrcB) (k : Fin 8) (inv : Bool)
  /-- MOV, opcode 0x1F. -/
  | mov (gd : Guard) (d : Dest) (a : Src)
  /-- MOVI, opcode 0x20. -/
  | movi (gd : Guard) (d : Dest) (imm : Word)
  /-- LEA, opcode 0x21. -/
  | lea (gd : Guard) (d : Dest) (a : Src) (off : BitVec 24)
  /-- ICMP_S, opcode 0x30. -/
  | icmpS (gd : Guard) (pp : Fin 4) (a : Src) (b : SrcB) (rel : Rel) (mode : CmpMode)
  /-- ICMP_N, opcode 0x31. -/
  | icmpN (gd : Guard) (pp : Fin 4) (a : Src) (b : SrcB) (rel : Rel) (mode : CmpMode)
  /-- ICMP_W, opcode 0x32. -/
  | icmpW (gd : Guard) (pp : Fin 4) (a : Src) (b : Src) (sg : Bool) (rel : Rel) (mode : CmpMode)
  /-- FCMP, opcode 0x33. -/
  | fcmp (gd : Guard) (pp : Fin 4) (a : Src) (b : Src) (rel : Rel) (mode : CmpMode)
  /-- FCMP_H2, opcode 0x34. -/
  | fcmpH2 (gd : Guard) (pp : Fin 4) (a : Src) (b : Src) (rel : Rel) (mode : CmpMode)
  /-- FCMP_BF2, opcode 0x35. -/
  | fcmpBf2 (gd : Guard) (pp : Fin 4) (a : Src) (b : Src) (rel : Rel) (mode : CmpMode)
  /-- FCLASS, opcode 0x36. -/
  | fclass (gd : Guard) (pp : Fin 4) (a : Src) (fmt : ClassFmt) (cmask : BitVec 9) (mode : CmpMode)
  /-- BTEST, opcode 0x37. -/
  | btest (gd : Guard) (pp : Fin 4) (a : Src) (b : SrcB) (allBits : Bool) (mode : CmpMode)
  /-- RCHK, opcode 0x38. -/
  | rchk (gd : Guard) (pp : Fin 4) (a : Src) (b : SrcB) (c : Src) (sg : Bool) (mode : CmpMode)
  /-- PMIX, opcode 0x39. -/
  | pmix (gd : Guard) (pd : Fin 8) (lut : BitVec 8) (x : Fin 8) (y : Fin 8) (z : Fin 8)
  /-- PPACK, opcode 0x3A. -/
  | ppack (gd : Guard) (d : Dest)
  /-- PSPRD, opcode 0x3B. -/
  | psprd (gd : Guard) (a : Src) (mask : BitVec 8)
  /-- FADD, opcode 0x40. -/
  | fadd (gd : Guard) (d : Dest) (a : Src) (b : Src) (rm : RMode) (sat : Bool) (na : Bool) (nb : Bool)
  /-- FSUB, opcode 0x41. -/
  | fsub (gd : Guard) (d : Dest) (a : Src) (b : Src) (rm : RMode) (sat : Bool) (na : Bool) (nb : Bool)
  /-- FMUL, opcode 0x42. -/
  | fmul (gd : Guard) (d : Dest) (a : Src) (b : Src) (rm : RMode) (sat : Bool) (na : Bool) (nb : Bool)
  /-- FFMA, opcode 0x43. -/
  | ffma (gd : Guard) (d : Dest) (a : Src) (b : Src) (c : Src) (rm : RMode) (sat : Bool) (na : Bool) (nb : Bool) (nc : Bool)
  /-- FMIN, opcode 0x44. -/
  | fmin (gd : Guard) (d : Dest) (a : Src) (b : Src) (na : Bool) (nb : Bool)
  /-- FMAX, opcode 0x45. -/
  | fmax (gd : Guard) (d : Dest) (a : Src) (b : Src) (na : Bool) (nb : Bool)
  /-- PKADH, opcode 0x46. -/
  | pkadh (gd : Guard) (d : Dest) (a : Src) (b : Src) (rm : RMode) (sat : Bool) (na : Bool) (nb : Bool)
  /-- PKMLH, opcode 0x47. -/
  | pkmlh (gd : Guard) (d : Dest) (a : Src) (b : Src) (rm : RMode) (sat : Bool) (na : Bool) (nb : Bool)
  /-- PKFMH, opcode 0x48. -/
  | pkfmh (gd : Guard) (d : Dest) (a : Src) (b : Src) (c : Src) (rm : RMode) (sat : Bool) (na : Bool) (nb : Bool) (nc : Bool)
  /-- PKADB, opcode 0x49. -/
  | pkadb (gd : Guard) (d : Dest) (a : Src) (b : Src) (rm : RMode) (sat : Bool) (na : Bool) (nb : Bool)
  /-- PKMLB, opcode 0x4A. -/
  | pkmlb (gd : Guard) (d : Dest) (a : Src) (b : Src) (rm : RMode) (sat : Bool) (na : Bool) (nb : Bool)
  /-- PKFMB, opcode 0x4B. -/
  | pkfmb (gd : Guard) (d : Dest) (a : Src) (b : Src) (c : Src) (rm : RMode) (sat : Bool) (na : Bool) (nb : Bool) (nc : Bool)
  /-- FRCP, opcode 0x4C. -/
  | frcp (gd : Guard) (d : Dest) (a : Src) (rm : RMode) (sat : Bool) (na : Bool)
  /-- FRSQ, opcode 0x4D. -/
  | frsq (gd : Guard) (d : Dest) (a : Src) (na : Bool)
  /-- FSQRT, opcode 0x4E. -/
  | fsqrt (gd : Guard) (d : Dest) (a : Src) (rm : RMode) (na : Bool)
  /-- FEXP2, opcode 0x4F. -/
  | fexp2 (gd : Guard) (d : Dest) (a : Src) (na : Bool)
  /-- FLOG2, opcode 0x50. -/
  | flog2 (gd : Guard) (d : Dest) (a : Src) (na : Bool)
  /-- FSIN, opcode 0x51. -/
  | fsin (gd : Guard) (d : Dest) (a : Src) (na : Bool)
  /-- FCOS, opcode 0x52. -/
  | fcos (gd : Guard) (d : Dest) (a : Src) (na : Bool)
  /-- FTANH, opcode 0x53. -/
  | ftanh (gd : Guard) (d : Dest) (a : Src) (na : Bool)
  /-- FDIV, opcode 0x54. -/
  | fdiv (gd : Guard) (d : Dest) (a : Src) (b : Src) (rm : RMode) (sat : Bool) (na : Bool) (nb : Bool)
  /-- FRND, opcode 0x55. -/
  | frnd (gd : Guard) (d : Dest) (a : Src) (rm : RMode) (na : Bool)
  /-- FSCALE, opcode 0x56. -/
  | fscale (gd : Guard) (d : Dest) (a : Src) (b : Src) (rm : RMode) (sat : Bool) (na : Bool)
  /-- FDOT8, opcode 0x57. -/
  | fdot8 (gd : Guard) (d : Dest) (a : Src) (b : Src) (c : Src) (rm : RMode) (sat : Bool) (na : Bool) (nb : Bool) (nc : Bool) (fb : DotFmt) (fa : DotFmt)
  /-- CVT, opcode 0x60. -/
  | cvt (gd : Guard) (d : Dest) (a : Src) (c : Option Src) (tgt : Fmt) (frm : Fmt) (rm : RMode) (sat : Bool) (ks : Fin 8) (kd : Fin 8)
  /-- CVTSR, opcode 0x61. -/
  | cvtsr (gd : Guard) (d : Dest) (a : Src) (b : Src) (c : Option Src) (tgt : Fmt) (frm : Fmt) (sat : Bool) (ks : Fin 8) (kd : Fin 8)
  /-- CVTI, opcode 0x62. -/
  | cvti (gd : Guard) (d : Dest) (a : Src) (c : Option Src) (tgt : Fmt) (frm : Fmt) (sat : Bool) (ks : Fin 8) (kd : Fin 8)
  /-- PACK2, opcode 0x63. -/
  | pack2 (gd : Guard) (d : Dest) (a : Src) (b : Src) (tgt : Fmt) (frm : Fmt) (rm : RMode) (sat : Bool)
  /-- UNPK2, opcode 0x64. -/
  | unpk2 (gd : Guard) (d : Dest) (a : Src) (tgt : Fmt) (frm : Fmt)
  /-- LCDEC, opcode 0x65. -/
  | lcdec (gd : Guard) (d : Dest) (a : Src) (b : Option Src) (tgt : Fmt) (rm : RMode) (ks : Fin 8)
  /-- QNT, opcode 0x66. -/
  | qnt (gd : Guard) (d : Dest) (a : Src) (b : Src) (c : Option Src) (tgt : Fmt) (rm : RMode) (kd : Fin 8)
  /-- DQNT, opcode 0x67. -/
  | dqnt (gd : Guard) (d : Dest) (a : Src) (b : Src) (frm : Fmt) (rm : RMode) (ks : Fin 8)
  /-- E8EXT, opcode 0x68. -/
  | e8ext (gd : Guard) (d : Dest) (a : Src) (c : Option Src) (tgt : Fmt) (kd : Fin 8)
  /-- CVTF, opcode 0x69. -/
  | cvtf (gd : Guard) (d : Dest) (a : Src) (b : Src) (c : Option Src) (deq : Bool) (ks : Fin 8) (kd : Fin 8) (slot : Fin 8)
  /-- BRA, opcode 0x70. -/
  | bra (gd : Guard) (tgt : Target)
  /-- BRANY, opcode 0x71. -/
  | brany (gd : Guard) (k : Fin 8) (tgt : Target)
  /-- BRALL, opcode 0x72. -/
  | brall (gd : Guard) (k : Fin 8) (tgt : Target)
  /-- BRNONE, opcode 0x73. -/
  | brnone (gd : Guard) (k : Fin 8) (tgt : Target)
  /-- BRX, opcode 0x74. -/
  | brx (gd : Guard) (a : Src)
  /-- CALL, opcode 0x75. -/
  | call (gd : Guard) (tgt : Target)
  /-- CALLX, opcode 0x76. -/
  | callx (gd : Guard) (a : Src)
  /-- RET, opcode 0x77. -/
  | ret (gd : Guard) (a : Src)
  /-- SPLIT, opcode 0x78. -/
  | split (gd : Guard) (tgt : Target)
  /-- JOIN, opcode 0x79. -/
  | join (gd : Guard)
  /-- BREAK, opcode 0x7A. -/
  | breakOut (gd : Guard) (n : Fin 16) (tgt : Target)
  /-- LOOPC, opcode 0x7B. -/
  | loopc (gd : Guard) (d : Dest) (tgt : Target)
  /-- NOP, opcode 0x7C. -/
  | nop (gd : Guard)
  /-- YIELD, opcode 0x7D. -/
  | yieldRun (gd : Guard)
  /-- LD, opcode 0x80. -/
  | ld (gd : Guard) (d : Dest) (a : Src) (off : BitVec 24) (sz : LdSize)
  /-- ST, opcode 0x81. -/
  | st (gd : Guard) (a : Src) (b : Src) (off : BitVec 24) (sz : StSize)
  /-- LDS, opcode 0x82. -/
  | lds (gd : Guard) (d : Dest) (a : Src) (off : BitVec 24) (sz : LdSize)
  /-- STS, opcode 0x83. -/
  | sts (gd : Guard) (a : Src) (b : Src) (off : BitVec 24) (sz : StSize)
  /-- LDSFE, opcode 0x84. -/
  | ldsfe (gd : Guard) (d : Dest) (a : Src) (off : BitVec 24) (keep : Bool) (trap : Bool)
  /-- STSFE, opcode 0x85. -/
  | stsfe (gd : Guard) (a : Src) (b : Src) (off : BitVec 24) (fem : FillMode)
  /-- LDW, opcode 0x86. -/
  | ldw (gd : Guard) (d : Dest) (a : Src) (off : BitVec 24) (win : Fin 16) (rank : Fin 8) (sz : LdSize)
  /-- STW, opcode 0x87. -/
  | stw (gd : Guard) (a : Src) (b : Src) (off : BitVec 24) (win : Fin 16) (rank : Fin 8) (fem : FillMode) (sz : StSize)
  /-- WOPEN, opcode 0x88. -/
  | wopen (gd : Guard) (a : Src) (win : Fin 16) (writer : Option (Fin 8))
  /-- WCLOSE, opcode 0x89. -/
  | wclose (gd : Guard) (win : Fin 16)
  /-- SUBS, opcode 0x8A. -/
  | subs (gd : Guard) (d : Dest) (a : Src) (off : BitVec 24) (fmt : SubFmt)
  /-- UNSUB, opcode 0x8B. -/
  | unsub (gd : Guard) (d : Dest) (a : Src) (off : BitVec 24)
  /-- UPGR, opcode 0x8C. -/
  | upgr (gd : Guard) (d : Dest) (a : Src) (off : BitVec 24) (fmt : SubFmt)
  /-- LDSUB, opcode 0x8D. -/
  | ldsub (gd : Guard) (d : Dest) (a : Src) (off : BitVec 24) (fmt : SubFmt)
  /-- ACQ, opcode 0x8E. -/
  | acq (gd : Guard) (d : Dest) (gate : BitVec 12)
  /-- REL, opcode 0x8F. -/
  | rel (gd : Guard) (gate : BitVec 12)
  /-- FENCE, opcode 0x90. -/
  | fence (gd : Guard) (scope : Dom) (bk : Bool) (acq : Bool) (rel : Bool)
  /-- CLNR, opcode 0x91. -/
  | clnr (gd : Guard) (a : Src) (b : Src) (off : BitVec 24)
  /-- INVR, opcode 0x92. -/
  | invr (gd : Guard) (a : Src) (b : Src) (off : BitVec 24)
  /-- DSCR, opcode 0x93. -/
  | dscr (gd : Guard) (a : Src) (b : Src) (off : BitVec 24)
  /-- LDRC, opcode 0x94. -/
  | ldrc (gd : Guard) (d : Dest) (a : Src) (off : BitVec 24) (sz : LdSize)
  /-- STRC, opcode 0x95. -/
  | strc (gd : Guard) (a : Src) (b : Src) (off : BitVec 24) (cnt : BitVec 8) (sz : StSize)
  /-- PRFT, opcode 0x96. -/
  | prft (gd : Guard) (a : Src) (off : BitVec 24) (lvl : PfLevel)
  /-- RFWIN, opcode 0x97. -/
  | rfwin (gd : Guard) (d : Dest) (a : Src)
  /-- LDWT, opcode 0x98. -/
  | ldwt (gd : Guard) (d : Dest) (a : Src) (off : BitVec 24) (sz : LdSize)
  /-- STNA, opcode 0x99. -/
  | stna (gd : Guard) (a : Src) (b : Src) (off : BitVec 24) (sz : StSize)
  /-- AADD, opcode 0xA0. -/
  | aadd (gd : Guard) (d : Dest) (a : Src) (b : Src) (off : BitVec 24) (sz : AtSize)
  /-- AMIN, opcode 0xA1. -/
  | amin (gd : Guard) (d : Dest) (a : Src) (b : Src) (off : BitVec 24) (sg : Bool) (sz : AtSize)
  /-- AMAX, opcode 0xA2. -/
  | amax (gd : Guard) (d : Dest) (a : Src) (b : Src) (off : BitVec 24) (sg : Bool) (sz : AtSize)
  /-- ALOG, opcode 0xA3. -/
  | alog (gd : Guard) (d : Dest) (a : Src) (b : Src) (off : BitVec 24) (op : LogOp) (sz : AtSize)
  /-- AXCH, opcode 0xA4. -/
  | axch (gd : Guard) (d : Dest) (a : Src) (b : Src) (off : BitVec 24) (sz : AtSize)
  /-- ACAS, opcode 0xA5. -/
  | acas (gd : Guard) (d : Dest) (a : Src) (b : Src) (off : BitVec 24) (sz : AtSize)
  /-- AFADD, opcode 0xA6. -/
  | afadd (gd : Guard) (d : Dest) (a : Src) (b : Src) (off : BitVec 24) (ft : AtFmt)
  /-- AINC, opcode 0xA7. -/
  | ainc (gd : Guard) (d : Dest) (a : Src) (b : Src) (off : BitVec 24)
  /-- ADEC, opcode 0xA8. -/
  | adec (gd : Guard) (d : Dest) (a : Src) (b : Src) (off : BitVec 24)
  /-- REDI, opcode 0xA9. -/
  | redi (gd : Guard) (a : Src) (b : Src) (off : BitVec 24) (op : RedOp) (sg : Bool) (sz : AtSize)
  /-- REDF, opcode 0xAA. -/
  | redf (gd : Guard) (a : Src) (b : Src) (off : BitVec 24) (ft : AtFmt)
  /-- REDLOG, opcode 0xAB. -/
  | redlog (gd : Guard) (a : Src) (b : Src) (off : BitVec 24) (op : LogOp) (sz : AtSize)
  /-- ELECT, opcode 0xB0. -/
  | elect (gd : Guard) (pp : Fin 4) (slp : Bool)
  /-- ELECTQ, opcode 0xB1. -/
  | electq (gd : Guard) (pp : Fin 4) (slp : Bool)
  /-- POLL, opcode 0xB2. -/
  | poll (gd : Guard) (d : Dest) (inv : Bool) (k : Fin 8) (kind : PollKind)
  /-- MATCH, opcode 0xB3. -/
  | matchLanes (gd : Guard) (d : Dest) (a : Src) (w : Bool)
  /-- BARA, opcode 0xB4. -/
  | bara (gd : Guard) (bar : BarRef)
  /-- BARW, opcode 0xB5. -/
  | barw (gd : Guard) (bar : BarRef) (wo : Bool)
  /-- BARWT, opcode 0xB6. -/
  | barwt (gd : Guard) (pp : Fin 4) (a : Src) (bar : BarRef) (wo : Bool)
  /-- BARX, opcode 0xB7. -/
  | barx (gd : Guard) (a : Src) (bar : BarRef) (arr : Bool)
  /-- SPAWN, opcode 0xB8. -/
  | spawn (gd : Guard) (d : Reg) (a : Src) (b : Src)
  /-- EXIT, opcode 0xB9. -/
  | exit (gd : Guard)
  /-- ENQ, opcode 0xBA. -/
  | enq (gd : Guard) (d : Reg) (a : Src)
  /-- DEQ, opcode 0xBB. -/
  | deq (gd : Guard) (d : Reg) (a : Src)
  /-- RGN, opcode 0xBC. -/
  | rgn (gd : Guard) (a : Option Reg) (n : Fin 5)
  /-- WAITT, opcode 0xBD. -/
  | waitt (gd : Guard) (a : Src)
  /-- CPY, opcode 0xC0. -/
  | cpy (gd : Guard) (a : Src) (b : Src) (e : ECom) (bar : Option (Fin 16))
  /-- CPY2D, opcode 0xC1. -/
  | cpy2d (gd : Guard) (a : Src) (b : Src) (e : ECom) (bar : Option (Fin 16))
  /-- TSEAL, opcode 0xC2. -/
  | tseal (gd : Guard) (d : Dest) (a : Src) (ppr : Fin 4) (kind : RecKind)
  /-- TUNSL, opcode 0xC3. -/
  | tunsl (gd : Guard) (a : Src)
  /-- TCVP, opcode 0xC4. -/
  | tcvp (gd : Guard) (a : Src) (b : Src) (e : ECom) (fs : Fin 8) (sci : Bool)
  /-- TMMA, opcode 0xC5. -/
  | tmma (gd : Guard) (a : Src) (b : Src) (e : ECom) (fs : Fin 8) (acc : Fin 128) (q : Bool)
  /-- ACCZ, opcode 0xC6. -/
  | accz (gd : Guard) (e : ECom) (acc : Fin 128)
  /-- ACCLD, opcode 0xC7. -/
  | accld (gd : Guard) (a : Src) (e : ECom) (fs : Fin 8) (acc : Fin 128)
  /-- ACCST, opcode 0xC8. -/
  | accst (gd : Guard) (a : Src) (e : ECom) (fs : Fin 8) (acc : Fin 128)
  /-- ACCADD, opcode 0xC9. -/
  | accadd (gd : Guard) (a : Src) (e : ECom) (acc : Fin 128)
  /-- ACCRED, opcode 0xCA. -/
  | accred (gd : Guard) (a : Src) (e : ECom) (fs : Fin 8) (acc : Fin 128) (col : Bool)
  /-- TSELK, opcode 0xCB. -/
  | tselk (gd : Guard) (a : Src) (b : Src) (e : ECom) (km1 : Fin 64)
  /-- BANKRUN, opcode 0xCC. -/
  | bankrun (gd : Guard) (a : Src) (b : Src) (e : ECom)
  /-- BANKST, opcode 0xCD. -/
  | bankst (gd : Guard) (a : Src) (b : Src) (e : ECom)
  /-- WALK, opcode 0xCE. -/
  | walk (gd : Guard) (a : Src) (b : Src) (e : ECom)
  /-- COLL, opcode 0xCF. -/
  | coll (gd : Guard) (a : Src) (e : ECom)
  /-- CKSUM, opcode 0xD0. -/
  | cksum (gd : Guard) (a : Src) (b : Src) (e : ECom)
  /-- GSET, opcode 0xD1. -/
  | gset (gd : Guard) (slot : Fin 16)
  /-- GRES, opcode 0xD2. -/
  | gres (gd : Guard) (inv : Bool) (k : Fin 8) (slot : Fin 16)
  /-- WAITCNT, opcode 0xD3. -/
  | waitcnt (gd : Guard) (a : Option Src) (n : Fin 64) (cls : EngClass)
  /-- ECANC, opcode 0xD4. -/
  | ecanc (gd : Guard) (last : Bool) (cls : EngClass)
  /-- TSTAT, opcode 0xD5. -/
  | tstat (gd : Guard) (d : Dest) (sel : Fin 10)
  /-- TRAP, opcode 0xE0. -/
  | trap (gd : Guard) (imm : Word)
  /-- RTE, opcode 0xE1. -/
  | rte (gd : Guard)
  /-- RDSYS, opcode 0xE2. -/
  | rdsys (gd : Guard) (d : Dest) (reg : SysReg)
  /-- WRSYS, opcode 0xE3. -/
  | wrsys (gd : Guard) (a : Src) (reg : SysReg)
  /-- WSAVE, opcode 0xE4. -/
  | wsave (gd : Guard)
  /-- WRSTR, opcode 0xE5. -/
  | wrstr (gd : Guard)
  /-- BKPT, opcode 0xE6. -/
  | bkpt (gd : Guard) (imm : Word)
  /-- RDTIME, opcode 0xE7. -/
  | rdtime (gd : Guard) (d : Dest)
  /-- CERQ7_READ: RDSYS of CERQ7 (R535). -/
  | cerq7Read (gd : Guard) (d : Dest)
  /-- UNASSIGNED_OPCODE: an instruction word whose opcode is not assigned (R68). -/
  | unassignedOpcode (w : IWord)
  /-- CKSUM_CHUNK: the checksum of one chunk (R542). -/
  | cksumChunk (id : Nat)
  /-- CHUNK_SEND: a participant sends its next final chunk (R531). -/
  | chunkSend (id : Nat)
  /-- CHUNK_RECEIVE: a chunk and its checksum arrive (R531). -/
  | chunkReceive (id step chunk : Nat) (data : List Byte) (sum : Nat)
  /-- CHUNK_RE_REQUEST: the sender takes a re-request (R532). -/
  | chunkReRequest (id step chunk : Nat)
  /-- CHUNK_ACKNOWLEDGE: the sender takes an acknowledgement (R531). -/
  | chunkAcknowledge (id step chunk : Nat)
  /-- SHAPE_RECEIVE: a sender's shape arrives (R533). -/
  | shapeReceive (id : Nat) (shape : List Nat)
  /-- ELIGIBILITY_TEST: the CP tests a queue head's wait signals (R238). -/
  | eligibilityTest (queue : Nat)
  /-- CONTEXT_SAVE_START: a victim past 100 us begins its save (R450). -/
  | contextSaveStart (t : TeamId)
  /-- CONTEXT_SAVE_COMPLETE: a save image is complete (R453). -/
  | contextSaveComplete (t : TeamId)
  /-- LAUNCH_END: the CP signals a launch's end (R241). -/
  | launchEnd (lid : Nat)
  /-- SNAPSHOT_COPY: the CP copies a page into the snapshot pool (R499). -/
  | snapshotCopy (lid page : Nat)
  /-- WLOAD_COMPLETE: the oldest weight load of a die is written (R287). -/
  | wloadComplete (die : Nat)
  /-- FETCH_PARITY_REFETCH: the second copy of a line arrives for the threads of a partition that wait for it (R37). -/
  | fetchParityRefetch (p : PartId) (line : Pc)
  /-- REPLAY_ADMISSION: the oldest woken group of a partition is admitted (R191). -/
  | replayAdmission (p : PartId)
  /-- REGISTER_WRITE_COMPLETE: an outstanding register write completes (R25). -/
  | registerWriteComplete (id : Nat)
  /-- COHORT_RELEASE: a cohort's register slice is released (R211). -/
  | cohortRelease (c : CohId)
  /-- WINDOW_ACCESS_ARRIVAL: a peer access reaches the owner's arbiter (R560). -/
  | windowAccessArrival (id : Nat)
  /-- WINDOW_ANSWER: the owner's answer returns (R264). -/
  | windowAnswer (id : Nat)
  /-- SUBSCRIPTION_UPDATE: an update notification reaches its sharer (R279). -/
  | subscriptionUpdate (id : Nat)
  /-- SUBSCRIPTION_INVALIDATION: an invalidation notification reaches its sharer (R279). -/
  | subscriptionInvalidation (id : Nat)
  /-- GATE_RELEASE_APPLY: the home applies the oldest release of a gate (R307). -/
  | gateReleaseApply (lid gate : Nat)
  /-- HOME_ACCESS_PERFORM: an access takes effect at its home (R284, R289). -/
  | homeAccessPerform (id : Nat)
  /-- MAINTENANCE_COMPLETE: a CLNR, INVR or DSCR completes at the home slices (R332). -/
  | maintenanceComplete (id : Nat)
  /-- WRITE_BACK_ACCEPT: a base die accepts a maintenance write-back (R331). -/
  | writeBackAccept (id : Nat)
  /-- WEIGHT_REFRESH_END: a weight-store bank's refresh window ends (R286). -/
  | weightRefreshEnd (die bank : Nat)
  /-- MISS_TABLE_WAIT_END: miss-table entries of a core have come free (R463). -/
  | missTableWaitEnd (core : CoreId)
  /-- TRANSLATION_SHOOTDOWN: a shootdown removes its translations and completes (R464). -/
  | translationShootdown (id : Nat)
  /-- RFQ_WAIT_END: RFQ records of a die have come free (R467). -/
  | rfqWaitEnd (die : Nat)
  /-- VNP_CHAIN_TAKE: a VNP thread takes a page chain (R474). -/
  | vnpChainTake (key : PageKey)
  /-- INSTALL: the leaf is written or the install abandoned (R559). -/
  | install (key : PageKey)
  /-- WAKE: the records of a chain are resolved (R477). -/
  | wake (key : PageKey)
  /-- OWNERSHIP_STEP: this home grants write ownership (R482). -/
  | ownershipStep (key : PageKey)
  /-- ENGINE_COMMAND_START: an engine takes its next turn (R344). -/
  | engineCommandStart (core : CoreId) (cls : EngClass)
  /-- NOT_BEFORE_MET: a held command's not-before time is met (R358). -/
  | notBeforeMet (id : Nat)
  /-- COMMAND_FORWARD: a core-side queue forwards a command (R344). -/
  | commandForward (core : CoreId) (cls : EngClass)
  /-- COMMAND_REPORT: finished commands of a cohort and class are reported (R351). -/
  | commandReport (c : CohId) (cls : EngClass)
  /-- CANCEL_STOP: a started cancelled command stops (R366). -/
  | cancelStop (id : Nat)
  /-- CPY_STEP: one step of a copy (R403). -/
  | cpyStep (id : Nat)
  /-- TCVP_STEP: one block of a plane conversion (R373). -/
  | tcvpStep (id : Nat)
  /-- TMMA_STEP: one plane pair of a slab (R375). -/
  | tmmaStep (id : Nat)
  /-- ACC_COMMAND_RUN: an ACC-family command runs (R407). -/
  | accCommandRun (id : Nat)
  /-- TSELK_RUN: a TSELK command runs (R380). -/
  | tselkRun (id : Nat)
  /-- BANK_ROW_STEP: a bank engine runs one row step (R385). -/
  | bankRowStep (b : BankId)
  /-- BANK_ENGINE_RESUME: a bank engine starts or resumes after 32 ns of empty queues (R386). -/
  | bankEngineResume (b : BankId)
  /-- BANKST_SAMPLE: a bank engine samples its status (R411). -/
  | bankstSample (id : Nat) (b : BankId)
  /-- WALK_STEP: a walker takes one step (R388). -/
  | walkStep (id : Nat)
  /-- WALK_OUTPUT: a walker writes its output (R389). -/
  | walkOutput (id : Nat)
  /-- PAGE_READ_REQUEST: this module's master copy is asked for (R473). -/
  | pageReadRequest (src : Nat) (key : PageKey) (frame seq : Nat)
  /-- RENEWAL_REPLY: the home's renewal reply arrives (R480). -/
  | renewalReply (m : PageStep) (homeTick : Nat)
  /-- DIRQ: this home takes a directory request (R474). -/
  | dirq (src : Nat) (key : PageKey) (write : Bool) (seq : Nat)
  /-- DIRECTORY_REPLY: the home's reply reaches the requester (R474). -/
  | directoryReply (key : PageKey) (seq : Nat) (r : DirReply)
  /-- PAGE_DATA_MESSAGE: one of 16 page-data messages arrives (R473). -/
  | pageDataMessage (key : PageKey) (seq idx : Nat) (data : List Byte)
  /-- STEP_TIMEOUT: a network step's soft timeout expires (R475). -/
  | stepTimeout (key : PageKey)
  /-- FAULT_HARD_TIMEOUT: a fault is unresolved after 20 ms or its third retry (R475). -/
  | faultHardTimeout (key : PageKey)
  /-- DECLINED_QUEUE_FORWARD: a declined record is forwarded when an entry is free (R485). -/
  | declinedQueueForward (die : Nat)
  /-- LEASE_RENEWAL: 2 ms or less of a lease remain and A = 1 (R480). -/
  | leaseRenewal (key : PageKey)
  /-- LEASE_LAPSE: a lease lapses (R480). -/
  | leaseLapse (key : PageKey)
  /-- RENEWAL_REQUEST: this home takes a renewal (R480). -/
  | renewalRequest (m : PageStep) (src : Nat)
  /-- HOME_LEASE_END: this home counts a lease as ended (R480). -/
  | homeLeaseEnd (key : PageKey) (module : Nat)
  /-- DOWNGRADE: this owner takes DOWNGRADE (R481). -/
  | downgrade (m : PageStep) (lease : Nat)
  /-- REVOKE: this sharer takes REVOKE (R482). -/
  | revoke (m : PageStep)
  /-- RECALL: this owner takes RECALL (R482). -/
  | recallPage (m : PageStep)
  /-- RELEASE: this home takes RELEASE (R483). -/
  | release (m : PageStep) (src : Nat)
  /-- WRITE_BACK: this module takes a page write-back (R484). -/
  | writeBack (m : PageStep) (src frame : Nat) (data : List Byte)
  /-- COLLECTIVE_NO_PROGRESS: 20 ms without progress (R540). -/
  | collectiveNoProgress (id : Nat)
  /-- POWER_RETURN_COMPLETE: a die's return from P4 or P5 completes (R554). -/
  | powerReturnComplete (d : Nat)
  /-- NO_FRAME_DECLINE: a chain has waited 20 ms for a frame (R483). -/
  | noFrameDecline (key : PageKey)
  /-- RESIDUE_RETRY: the retry of a mismatching execution, and whether it passes (R444). -/
  | residueRetry (p : PartId) (t : Tid) (unit : Nat) (passes : Bool)
  /-- L2_EVICTION: the home L2 evicts a 128-byte line (R284). -/
  | l2Eviction (line : Nat)
  /-- MEMSIDE_CAPACITY_EVICTION: the memory-side cache evicts a line (R290). -/
  | memsideCapacityEviction (line : Nat)
  /-- WEIGHT_REFRESH_START: a weight-store bank's refresh window begins (R285). -/
  | weightRefreshStart (die bank : Nat)
  /-- PAGE_WALK: a page walker walks the tables for a core (R458). -/
  | pageWalk (core : CoreId) (queue : Nat) (va : Nat) (kind : AccKind)
  /-- BARWT_DEADLINE: a BARWT deadline is met (R221). -/
  | barwtDeadline (t : Tid)
  /-- WAITT_EXPIRY: a WAITT time is met (R228). -/
  | waittExpiry (t : Tid)
  /-- LAUNCH_ACCEPTANCE: the CP takes the oldest record that waits for it (R235). -/
  | launchAcceptance
  /-- PLACEMENT_PASS: one run of the placement algorithm (R246). -/
  | placementPass
  /-- CLOCK_EVICTION: the clock hand visits one frame (R483). -/
  | clockEviction
  /-- SCAN_TEST: the CP drains one hardware cluster for its test (R501). -/
  | scanTest
  /-- SCAN_TEST_COMPLETE: the test ends; the cores that failed (R501). -/
  | scanTestComplete (failing : List CoreId)
  /-- PATROL_PASS_START: a lehr pass begins (R493). -/
  | patrolPassStart
  /-- LEHR_SECTOR_SCRUB: the lehr scrubs one data sector (R494). -/
  | lehrSectorScrub (sector : Nat)
  /-- PASS_COMPLETE: a lehr pass ends (R493). -/
  | passComplete
  /-- REBUILD_LINE_MOVE: the next line of a retired group moves (R497). -/
  | rebuildLineMove (stack group : Nat)
  /-- REBUILD_COMPLETE: a rebuild completes (R497). -/
  | rebuildComplete (stack group : Nat)
  /-- LINK_LANE_MAPPED_OUT: a link maps out a lane (R510). -/
  | linkLaneMappedOut (l : LinkId)
  /-- LINK_FAILURE: a link can carry no flits (R510). -/
  | linkFailure (l : LinkId)
  /-- FLIT_RETRY: a flit is sent again (R507). -/
  | flitRetry (l : LinkId)
  /-- UMRIL_MESSAGE_RECEIVE: a Umril message arrives (R515). -/
  | umrilMessageReceive (m : Umril)
  /-- PLANE_HEALTH_CHANGE: a plane leaves or joins the healthy list (R516). -/
  | planeHealthChange (plane : Nat) (up : Bool)
  /-- UET_RETRANSMISSION: messages of a failed plane are sent again (R516). -/
  | uetRetransmission (plane : Nat)
  /-- PTP_MESSAGE: an IEEE 1588 message arrives (R519). -/
  | ptpMessage (m : Ptp)
  /-- OFFSET_ALARM: the offset is beyond 500 us or lock is lost for 1 s (R522). -/
  | offsetAlarm
  /-- SUBMIT: host command 0x01 (R552). -/
  | submit (seq : Word) (pa : Nat)
  /-- CANCEL: host command 0x02 (R552). -/
  | cancel (seq : Word) (lid : Nat)
  /-- BIND: host command 0x03 (R457). -/
  | bindQueue (seq : Word) (queue asid root : Nat)
  /-- SHOOT: host command 0x04 (R464). -/
  | shoot (seq : Word) (asid vpn pages : Nat)
  /-- WLOAD: host command 0x05 (R287). -/
  | wload (seq : Word) (die off pa len : Nat)
  /-- GRANT: host command 0x06 (R552). -/
  | grant (seq : Word) (queue stack first count : Nat)
  /-- RETIRE: host command 0x07 (R495). -/
  | retire (seq : Word) (stack channel : Nat)
  /-- PWRSET: host command 0x08 (R554). -/
  | pwrset (seq : Word) (scope : PwrScope) (target : Nat)
  /-- POWER_GATE: a scope entering P3 gates (R554). -/
  | powerGate (scope : PwrScope)
  /-- DFRESP_RETRY: host command 0x09, RETRY (R486). -/
  | dfrespRetry (seq : Word) (die rfqi : Nat)
  /-- DFRESP_TRAP: host command 0x09, TRAP (R486). -/
  | dfrespTrap (seq : Word) (die rfqi : Nat)
  /-- DFRESP_ABORT: host command 0x09, ABORT (R486). -/
  | dfrespAbort (seq : Word) (die rfqi : Nat)
  /-- TABLE_HMAP: host command 0x0A, kind 0 (R471). -/
  | tableHmap (seq : Word) (pa : Nat)
  /-- TABLE_MADDR: host command 0x0A, kind 1 (R513). -/
  | tableMaddr (seq : Word) (maddr : List (Nat × Nat × Nat))
  /-- TABLE_FRAME_POOL: host command 0x0A, kind 2 (R483). -/
  | tableFramePool (seq : Word) (frames : List Nat) (low : Nat)
  /-- PARAM_AGE: host command 0x0B, AGE (R246). -/
  | paramAge (seq : Word) (ms : Nat)
  /-- PARAM_LEASE: host command 0x0B, lease (R480). -/
  | paramLease (seq : Word) (ms : Nat)
  /-- PARAM_PASS: host command 0x0B, pass (R492). -/
  | paramPass (seq : Word) (hours : Nat)
  /-- PARAM_TEST_INTERVAL: host command 0x0B, test interval, 0 turns it off (R501). -/
  | paramTestInterval (seq : Word) (minutes : Nat)
  /-- PARAM_ALERT_THRESHOLD: host command 0x0B, alert threshold, die 4 for the IOD (R555). -/
  | paramAlertThreshold (seq : Word) (die celsius : Nat)
  /-- MODE: host command 0x0C (R552). -/
  | mode (seq : Word) (queue : Nat) (collTest debug : Bool)
  /-- FWDSTEP: host command 0x0D (R521). -/
  | fwdstep (seq : Word) (ptc : BitVec 64)
  /-- ECTL: host command 0x0E (R557). -/
  | ectl (seq : Word) (place : CtrPlace) (n : Nat) (ctl : Word)
  /-- COUNTER_CLEAR: a write of CLR = 1 takes effect (R557). -/
  | counterClear (place : CtrPlace) (n : Nat)
  /-- INVALID_HOST_COMMAND: an unknown code or non-zero reserved bytes (R552). -/
  | invalidHostCommand (seq : Word) (head : CommandHead)
  /-- THERMAL_ALERT: a sensor rises through its threshold, die 4 for the IOD (R555). -/
  | thermalAlert (die sensor celsius : Nat)
  /-- THERMAL_TRIP: a reading of 105 degrees or more (R556). -/
  | thermalTrip (die sensor celsius : Nat)
  /-- POWER_UP: power-up runs the boot stages (R550). -/
  | powerUp (b : BootInput)
  /-- SENSOR_FALL_BELOW_THRESHOLD: a sensor falls 5 degrees below its threshold (R555). -/
  | sensorFallBelowThreshold (die sensor celsius : Nat)
  deriving DecidableEq, Repr

end Sys2Proof
end

