-- ==== Sys2Proof/Machine/Fields.lean ====
section
/-!
DEFINITION. What an instruction names, read off its syntax: its opcode and form, guard, sources with their widths in
registers, destination, the predicates it reads and writes, and the marks of R120. The decoder, the well-formedness check
and the issue checks (R25, R43, R121, R122) all read this one view.
-/

namespace Sys2Proof

/-! ### Registers and operands -/

/-- The register index of R20. -/
def regNum : Reg → Nat
  | .g n => n.val
  | .w n => 16 + n.val
  | .s n => 48 + n.val
  | .k n => 80 + n.val

/-- The register an index names; 0x70 to 0x7F name none (R20). -/
def regOf (n : Nat) : Option Reg :=
  if h : n < 16 then some (.g ⟨n, h⟩)
  else if n < 48 then some (.w (Fin.ofNat 32 (n - 16)))
  else if n < 80 then some (.s (Fin.ofNat 32 (n - 48)))
  else if n < 112 then some (.k (Fin.ofNat 32 (n - 80)))
  else none

/-- Whether a register is shared by the cohort. -/
def Reg.isS : Reg → Bool
  | .s _ => true
  | _ => false

/-- Whether a register is a special. -/
def Reg.isK : Reg → Bool
  | .k _ => true
  | _ => false

/-- The register i places above r within the index space of R20 (the parts of a pair or a group, R24). -/
def Reg.plus (r : Reg) (i : Nat) : Reg :=
  match r with
  | .g n => .g (Fin.ofNat 16 (n.val + i))
  | .w n => .w (Fin.ofNat 32 (n.val + i))
  | .s n => .s (Fin.ofNat 32 (n.val + i))
  | .k n => .k (Fin.ofNat 32 (n.val + i))

/-- The registers of a position of n registers. -/
def Reg.span (r : Reg) (n : Nat) : List Reg := (List.range n).map r.plus

/-- A register position of one source field, with its width. -/
def SrcB.srcs : SrcB → List (Src × Nat)
  | .src a => [(a, 1)]
  | .imm _ => []

/-- An optional source of one register. -/
def optSrc : Option Src → List (Src × Nat)
  | some a => [(a, 1)]
  | none => []

/-- The registers RGN reads (R227). -/
def groupSrcs (a : Option Reg) (n : Nat) : List (Src × Nat) :=
  match a with
  | none => []
  | some r => (List.range n).map fun i => (.reg (r.plus i) .same, 1)

/-- The not-before pair of an engine instruction (R349). -/
def ECom.srcs (e : ECom) : List (Src × Nat) :=
  match e.nbt with
  | some a => [(a, 2)]
  | none => []

/-! ### Widths -/

/-- Registers of a load's destination (R146). -/
def LdSize.regs : LdSize → Nat
  | .d64 => 2
  | .q128 => 4
  | .n8 | .s8 | .n16 | .s16 | .w32 => 1

/-- Bytes of a load (R146). -/
def LdSize.bytes : LdSize → Nat
  | .n8 | .s8 => 1
  | .n16 | .s16 => 2
  | .w32 => 4
  | .d64 => 8
  | .q128 => 16

/-- Registers of a store's data (R146). -/
def StSize.regs : StSize → Nat
  | .b64 => 2
  | .b128 => 4
  | .b8 | .b16 | .b32 => 1

/-- Bytes of a store (R146). -/
def StSize.bytes : StSize → Nat
  | .b8 => 1
  | .b16 => 2
  | .b32 => 4
  | .b64 => 8
  | .b128 => 16

/-- Registers of an atomic operand (R337). -/
def AtSize.regs : AtSize → Nat
  | .w4 => 1
  | .w8 => 2

/-- Bytes of an atomic access (R337). -/
def AtSize.bytes : AtSize → Nat
  | .w4 => 4
  | .w8 => 8

/-- The 4-bit code of a format (R69). -/
def Fmt.code : Fmt → Nat
  | .n8 => 0 | .n16 => 1 | .n32 => 2 | .n64 => 3
  | .s8 => 4 | .s16 => 5 | .s32 => 6 | .s64 => 7
  | .f32 => 8 | .f16 => 9 | .bf16 => 10 | .e4m3 => 11
  | .e5m2 => 12 | .e2m1 => 13 | .e8m0 => 14 | .lc2 => 15

/-- The format of a code; every 4-bit code is one (R69). -/
def fmtOf (n : Nat) : Option Fmt :=
  match n with
  | 0 => some .n8 | 1 => some .n16 | 2 => some .n32 | 3 => some .n64
  | 4 => some .s8 | 5 => some .s16 | 6 => some .s32 | 7 => some .s64
  | 8 => some .f32 | 9 => some .f16 | 10 => some .bf16 | 11 => some .e4m3
  | 12 => some .e5m2 | 13 => some .e2m1 | 14 => some .e8m0 | 15 => some .lc2
  | _ => none

/-- Width of one element in bits (R69); an lc2 index is 16 bits (R78). -/
def Fmt.bits : Fmt → Nat
  | .n8 | .s8 | .e4m3 | .e5m2 | .e8m0 => 8
  | .n16 | .s16 | .f16 | .bf16 | .lc2 => 16
  | .n32 | .s32 | .f32 => 32
  | .n64 | .s64 => 64
  | .e2m1 => 4

/-- Integer formats (R69). -/
def Fmt.isInt : Fmt → Bool
  | .n8 | .n16 | .n32 | .n64 | .s8 | .s16 | .s32 | .s64 => true
  | _ => false

/-- Signed integer formats (R69). -/
def Fmt.isSigned : Fmt → Bool
  | .s8 | .s16 | .s32 | .s64 => true
  | _ => false

/-- Floating formats (R69). -/
def Fmt.isFloat : Fmt → Bool
  | .f32 | .f16 | .bf16 | .e4m3 | .e5m2 | .e2m1 => true
  | _ => false

/-- Registers a value of a format takes: a 64-bit integer is a pair (R70). -/
def Fmt.regs (f : Fmt) : Nat := if f.bits = 64 then 2 else 1

/-- Registers of an FDOT8 operand (R165). -/
def DotFmt.regs : DotFmt → Nat
  | .e2m1 => 1
  | .e4m3 | .e5m2 => 2

/-! ### Constraints between fields -/

/-- A legal element index (R167). -/
def idxOk (f : Fmt) (n : Fin 8) : Bool :=
  match f.bits with
  | 16 => decide (n.val < 2)
  | 8 => decide (n.val < 4)
  | 4 => true
  | _ => decide (n.val = 0)

/-- CVT (R167, R169). -/
def cvtOk (tgt frm : Fmt) (sat : Bool) (ks kd : Fin 8) (mrg : Bool) : Bool :=
  decide (tgt ≠ .lc2) && decide (frm ≠ .lc2) && !(tgt.isInt && frm.isInt) && (!sat || tgt.isFloat)
    && idxOk frm ks && idxOk tgt kd && (!mrg || decide (tgt.bits < 32))

/-- CVTSR (R170). -/
def cvtsrOk (tgt frm : Fmt) (ks kd : Fin 8) : Bool :=
  [Fmt.f32, .f16, .bf16].contains frm && [Fmt.f16, .bf16, .e4m3, .e5m2, .e2m1].contains tgt
    && idxOk frm ks && idxOk tgt kd

/-- CVTI (R171). -/
def cvtiOk (tgt frm : Fmt) (ks kd : Fin 8) (mrg : Bool) : Bool :=
  tgt.isInt && frm.isInt && idxOk frm ks && idxOk tgt kd && (!mrg || decide (tgt.bits < 32))

/-- PACK2 (R172). -/
def pack2Ok (tgt frm : Fmt) (rm : RMode) : Bool :=
  match frm, tgt with
  | .f32, .f16 | .f32, .bf16 => true
  | .s32, .s16 | .n32, .n16 => decide (rm = .rne)
  | _, _ => false

/-- UNPK2 (R172). -/
def unpk2Ok (tgt frm : Fmt) : Bool :=
  match frm, tgt with
  | .f16, .f32 | .bf16, .f32 | .s16, .s32 | .n16, .n32 => true
  | _, _ => false

/-- LCDEC (R173): the scale is read for the floating targets alone. -/
def lcdecOk (tgt : Fmt) (rm : RMode) (ks : Fin 8) (scale : Bool) : Bool :=
  decide (ks.val < 2) &&
  match tgt with
  | .s8 => decide (rm = .rne) && !scale
  | .f16 | .bf16 => scale
  | _ => false

/-- Element formats of QNT and DQNT (R175). -/
def quantFmt : Fmt → Bool
  | .e4m3 | .e5m2 | .e2m1 | .f16 | .bf16 | .s8 | .s16 | .n8 | .n16 => true
  | _ => false

/-- Exponent of the largest value of each target of E8EXT (R174). -/
def maxExp : Fmt → Option Nat
  | .f16 => some 15 | .bf16 => some 127 | .e4m3 => some 8 | .e5m2 => some 15 | .e2m1 => some 2
  | .s8 => some 6 | .s16 => some 14 | .n8 => some 7 | .n16 => some 15
  | _ => none

/-- CVTF (R176): each direction leaves the other's index, and the dequantising one the merge control, unused. -/
def cvtfOk (deq : Bool) (ks kd : Fin 8) (mrg : Bool) : Bool :=
  if deq then decide (kd.val = 0) && !mrg else decide (ks.val = 0)

/-- The data of a store of several registers names no k-register (R146). -/
def dataOk (b : Src) (n : Nat) : Bool :=
  match b with
  | .reg r _ => decide (n = 1) || !r.isK
  | .latch _ _ => true

/-- A merge base names a register (R167). -/
def baseOk : Option Src → Bool
  | some (.latch _ _) => false
  | some (.reg _ _) | none => true

/-- The register group of RGN stays in its block (R227). -/
def groupOk (a : Option Reg) (n : Nat) : Bool :=
  match a with
  | none => decide (n = 0)
  | some (.g r) => decide (n ≠ 0) && decide (r.val + n ≤ 16)
  | some (.w r) | some (.s r) | some (.k r) => decide (n ≠ 0) && decide (r.val + n ≤ 32)

/-- Assigned opcodes (R119). -/
def opAssigned (op : Nat) : Bool :=
  decide (op ≤ 0x21) || decide (0x30 ≤ op ∧ op ≤ 0x3B) || decide (0x40 ≤ op ∧ op ≤ 0x57)
    || decide (0x60 ≤ op ∧ op ≤ 0x69) || decide (0x70 ≤ op ∧ op ≤ 0x7D) || decide (0x80 ≤ op ∧ op ≤ 0x99)
    || decide (0xA0 ≤ op ∧ op ≤ 0xAB) || decide (0xB0 ≤ op ∧ op ≤ 0xBD) || decide (0xC0 ≤ op ∧ op ≤ 0xD5)
    || decide (0xE0 ≤ op ∧ op ≤ 0xE7)

/-- The code of a cause (R435). -/
def Cause.code : Cause → Nat
  | .opcode => 1 | .template => 2 | .pair => 3 | .lineWord => 4 | .fetchParity => 5 | .register => 6 | .source => 7
  | .permute => 8 | .slot => 9 | .destination => 10 | .latch => 11 | .modifier => 12 | .depthLimit => 13
  | .returnAtBase => 14 | .sysreg => 15 | .context => 16 | .window => 17 | .format => 18 | .runLength => 19
  | .resource => 20 | .byteOverflow => 21 | .stage => 22 | .operand => 23

/-! ### Predicates read and written -/

/-- Whether a truth table depends on a dimension: its halves along that dimension differ (R114). -/
def ttDepends (tt : BitVec 8) (dim : Nat) : Bool :=
  (List.range 8).any fun i => tt.getLsbD i != tt.getLsbD (i ^^^ dim)

/-- The predicates a truth table over three select fields reads (R43, R114). -/
def lutReads (tt : BitVec 8) (x y z : Fin 8) : List (Fin 8) :=
  (if ttDepends tt 4 then [x] else []) ++ (if ttDepends tt 2 then [y] else []) ++ (if ttDepends tt 1 then [z] else [])

/-- The predicates a guard reads (R43). -/
def Guard.reads (g : Guard) : List (Fin 8) := lutReads g.tt g.pa g.pb g.pc

/-- p0 to p7. -/
def allPreds : List (Fin 8) := [0, 1, 2, 3, 4, 5, 6, 7]

/-- The even member of a predicate pair (R99). -/
def evenPred (pp : Fin 4) : Fin 8 := Fin.ofNat 8 (2 * pp.val)

/-- The odd member of a predicate pair (R99). -/
def oddPred (pp : Fin 4) : Fin 8 := Fin.ofNat 8 (2 * pp.val + 1)

/-- Both members of a predicate pair. -/
def pairPreds (pp : Fin 4) : List (Fin 8) := [evenPred pp, oddPred pp]

/-- A compare with an accumulate mode reads the odd member (R135). -/
def modeReads (m : CmpMode) (pp : Fin 4) : List (Fin 8) := if m = .plain then [] else [oddPred pp]

/-- The predicates a PSPRD mask names (R139). -/
def maskPreds (m : BitVec 8) : List (Fin 8) := allPreds.filter fun p => m.getLsbD p.val

/-! ### The view -/

/-- The layouts of R46; RX is the R form of an instruction whose description assigns mod[4:0] (R51). -/
inductive Form where | r | rx | i | m | b | e
  deriving DecidableEq, Repr

/-- What dst names. -/
inductive DestUse where
  | none
  /-- a register result of n registers, with its latch (R58) -/
  | result (d : Dest) (n : Nat)
  /-- a register written after issue, without a latch (R58) -/
  | late (r : Reg)
  /-- a predicate pair (R99) -/
  | predPair (k : Fin 4)
  /-- one predicate (R139) -/
  | pred (k : Fin 8)
  deriving DecidableEq, Repr

/-- A resource that an instruction names by its launch-relative number (R209, R244, R330, R392). -/
inductive Use where
  | gate (n : Nat)
  | bar (b : BarRef)
  | tile (n : Nat)
  | slot (n : Fin 16)
  deriving DecidableEq, Repr

/-- What an instruction names. -/
structure View where
  op : Nat
  form : Form
  guard : Guard
  srcs : List (Src × Nat)
  dest : DestUse
  /-- registers written beside dst: the link of CALL and CALLX, w30 and w31 of the caller (R143) -/
  regW : List Reg := []
  predR : List (Fin 8) := []
  predW : List (Fin 8) := []
  cohortScoped : Bool := false
  com : Option ECom := none
  uses : List Use := []
  deriving DecidableEq, Repr
/-- The registers that an instruction reads (R43). -/
def View.readRegs (v : View) : List Reg :=
  v.srcs.flatMap fun x => match x.1 with | .reg r _ => r.span x.2 | .latch _ _ => []

/-- The latches that it reads. -/
def View.readLatches (v : View) : List (Fin 4) :=
  v.srcs.filterMap fun x => match x.1 with | .reg _ _ => none | .latch n _ => some n

/-- The predicates that it reads, its guard's among them (R43, R114). -/
def View.readPreds (v : View) : List (Fin 8) := v.guard.reads ++ v.predR

/-- The s-register that its completion token goes to (R352). -/
def View.token (v : View) : Option (Fin 32) := v.com.bind fun e => e.tk

/-- The registers that it writes, its token's and a link among them. -/
def View.writeRegs (v : View) : List Reg :=
  (match v.dest with
   | .result d n => if d.wbs then [] else d.reg.span n
   | .late r => [r]
   | .none | .predPair _ | .pred _ => []) ++ (v.token.map Reg.s).toList ++ v.regW

/-- The latch that it writes (R58). -/
def View.writeLatch (v : View) : Option (Fin 4) :=
  match v.dest with
  | .result d _ => some d.rl
  | .late _ | .none | .predPair _ | .pred _ => none

/-- The registers that dst names, written or captured (R56, R58). -/
def View.destRegs (v : View) : List Reg :=
  match v.dest with
  | .result d n => d.reg.span n
  | .late r => [r]
  | .none | .predPair _ | .pred _ => []

/-- Whether an instruction is cohort-scoped (R121). -/
def View.scoped (v : View) : Bool := v.cohortScoped || (v.destRegs.any fun r => r.isS) || v.token.isSome

/-- Whether two instructions of a pair touch the same thing (R43): the second reads what the first writes, or both write it. -/
def View.clash (a b : View) : Bool :=
  (a.writeRegs.any fun r => b.readRegs.contains r || b.writeRegs.contains r) ||
  (a.predW.any fun p => b.readPreds.contains p || b.predW.contains p) ||
  (match a.writeLatch with
   | some n => b.readLatches.contains n || decide (b.writeLatch = some n)
   | none => false)

/-- The resources that an instruction names, its guard slot's among them. -/
def View.allUses (v : View) : List Use := v.uses ++ ((v.com.bind fun e => e.gq).map Use.slot).toList

/-- The view of an instruction of the opcode map; a step of a unit, the fabric or the host has none. b of CVTF is among its sources
whatever its slot names, though R176 does not read it where the slot has no e8m0 scale: for the pair rules of R43 and the wait of R25
this is the model's choice (log entry 26). -/
def viewOf : Instr → Option View
  | .add gd d a b _ => some { op := 0x00, form := .r, guard := gd, srcs := [(a, 1)] ++ b.srcs, dest := .result d 1 }
  | .sub gd d a b _ => some { op := 0x01, form := .r, guard := gd, srcs := [(a, 1)] ++ b.srcs, dest := .result d 1 }
  | .addc gd d a b c _ => some { op := 0x02, form := .r, guard := gd, srcs := [(a, 1)] ++ b.srcs ++ [(c, 1)], dest := .result d 1 }
  | .subb gd d a b c _ => some { op := 0x03, form := .r, guard := gd, srcs := [(a, 1)] ++ b.srcs ++ [(c, 1)], dest := .result d 1 }
  | .mul gd d a b => some { op := 0x04, form := .r, guard := gd, srcs := [(a, 1)] ++ b.srcs, dest := .result d 1 }
  | .mulhS gd d a b => some { op := 0x05, form := .r, guard := gd, srcs := [(a, 1)] ++ b.srcs, dest := .result d 1 }
  | .mulhN gd d a b => some { op := 0x06, form := .r, guard := gd, srcs := [(a, 1)] ++ b.srcs, dest := .result d 1 }
  | .mad gd d a b c => some { op := 0x07, form := .r, guard := gd, srcs := [(a, 1)] ++ b.srcs ++ [(c, 1)], dest := .result d 1 }
  | .madw gd d a b c _ => some { op := 0x08, form := .r, guard := gd, srcs := [(a, 1)] ++ b.srcs ++ [(c, 2)], dest := .result d 2 }
  | .divS gd d a b => some { op := 0x09, form := .r, guard := gd, srcs := [(a, 1)] ++ b.srcs, dest := .result d 1 }
  | .divN gd d a b => some { op := 0x0A, form := .r, guard := gd, srcs := [(a, 1)] ++ b.srcs, dest := .result d 1 }
  | .remS gd d a b => some { op := 0x0B, form := .r, guard := gd, srcs := [(a, 1)] ++ b.srcs, dest := .result d 1 }
  | .remN gd d a b => some { op := 0x0C, form := .r, guard := gd, srcs := [(a, 1)] ++ b.srcs, dest := .result d 1 }
  | .minS gd d a b => some { op := 0x0D, form := .r, guard := gd, srcs := [(a, 1)] ++ b.srcs, dest := .result d 1 }
  | .minN gd d a b => some { op := 0x0E, form := .r, guard := gd, srcs := [(a, 1)] ++ b.srcs, dest := .result d 1 }
  | .maxS gd d a b => some { op := 0x0F, form := .r, guard := gd, srcs := [(a, 1)] ++ b.srcs, dest := .result d 1 }
  | .maxN gd d a b => some { op := 0x10, form := .r, guard := gd, srcs := [(a, 1)] ++ b.srcs, dest := .result d 1 }
  | .abs gd d a => some { op := 0x11, form := .r, guard := gd, srcs := [(a, 1)], dest := .result d 1 }
  | .neg gd d a => some { op := 0x12, form := .r, guard := gd, srcs := [(a, 1)], dest := .result d 1 }
  | .logt gd d a b c _ => some { op := 0x13, form := .r, guard := gd, srcs := [(a, 1)] ++ b.srcs ++ [(c, 1)], dest := .result d 1 }
  | .shl gd d a b => some { op := 0x14, form := .r, guard := gd, srcs := [(a, 1)] ++ b.srcs, dest := .result d 1 }
  | .shrN gd d a b => some { op := 0x15, form := .r, guard := gd, srcs := [(a, 1)] ++ b.srcs, dest := .result d 1 }
  | .shrS gd d a b => some { op := 0x16, form := .r, guard := gd, srcs := [(a, 1)] ++ b.srcs, dest := .result d 1 }
  | .rot gd d a b => some { op := 0x17, form := .r, guard := gd, srcs := [(a, 1)] ++ b.srcs, dest := .result d 1 }
  | .fshl gd d a b c => some { op := 0x18, form := .r, guard := gd, srcs := [(a, 1)] ++ b.srcs ++ [(c, 1)], dest := .result d 1 }
  | .bfx gd d a b _ => some { op := 0x19, form := .r, guard := gd, srcs := [(a, 1)] ++ b.srcs, dest := .result d 1 }
  | .bfi gd d a b c => some { op := 0x1A, form := .r, guard := gd, srcs := [(a, 1)] ++ b.srcs ++ [(c, 1)], dest := .result d 1 }
  | .popc gd d a => some { op := 0x1B, form := .r, guard := gd, srcs := [(a, 1)], dest := .result d 1 }
  | .clz gd d a => some { op := 0x1C, form := .r, guard := gd, srcs := [(a, 1)], dest := .result d 1 }
  | .brev gd d a => some { op := 0x1D, form := .r, guard := gd, srcs := [(a, 1)], dest := .result d 1 }
  | .psel gd d a b k _ => some { op := 0x1E, form := .r, guard := gd, srcs := [(a, 1)] ++ b.srcs, dest := .result d 1, predR := [k] }
  | .mov gd d a => some { op := 0x1F, form := .r, guard := gd, srcs := [(a, 1)], dest := .result d 1 }
  | .movi gd d _ => some { op := 0x20, form := .i, guard := gd, srcs := [], dest := .result d 1 }
  | .lea gd d a _ => some { op := 0x21, form := .m, guard := gd, srcs := [(a, 2)], dest := .result d 2 }
  | .icmpS gd pp a b _ mode => some { op := 0x30, form := .rx, guard := gd, srcs := [(a, 1)] ++ b.srcs, dest := .predPair pp, predR := modeReads mode pp, predW := pairPreds pp }
  | .icmpN gd pp a b _ mode => some { op := 0x31, form := .rx, guard := gd, srcs := [(a, 1)] ++ b.srcs, dest := .predPair pp, predR := modeReads mode pp, predW := pairPreds pp }
  | .icmpW gd pp a b _ _ mode => some { op := 0x32, form := .rx, guard := gd, srcs := [(a, 2)] ++ [(b, 2)], dest := .predPair pp, predR := modeReads mode pp, predW := pairPreds pp }
  | .fcmp gd pp a b _ mode => some { op := 0x33, form := .rx, guard := gd, srcs := [(a, 1)] ++ [(b, 1)], dest := .predPair pp, predR := modeReads mode pp, predW := pairPreds pp }
  | .fcmpH2 gd pp a b _ mode => some { op := 0x34, form := .rx, guard := gd, srcs := [(a, 1)] ++ [(b, 1)], dest := .predPair pp, predR := modeReads mode pp, predW := pairPreds pp }
  | .fcmpBf2 gd pp a b _ mode => some { op := 0x35, form := .rx, guard := gd, srcs := [(a, 1)] ++ [(b, 1)], dest := .predPair pp, predR := modeReads mode pp, predW := pairPreds pp }
  | .fclass gd pp a _ _ mode => some { op := 0x36, form := .rx, guard := gd, srcs := [(a, 1)], dest := .predPair pp, predR := modeReads mode pp, predW := pairPreds pp }
  | .btest gd pp a b _ mode => some { op := 0x37, form := .rx, guard := gd, srcs := [(a, 1)] ++ b.srcs, dest := .predPair pp, predR := modeReads mode pp, predW := pairPreds pp }
  | .rchk gd pp a b c _ mode => some { op := 0x38, form := .rx, guard := gd, srcs := [(a, 1)] ++ b.srcs ++ [(c, 1)], dest := .predPair pp, predR := modeReads mode pp, predW := pairPreds pp }
  | .pmix gd pd lut x y z => some { op := 0x39, form := .rx, guard := gd, srcs := [], dest := .pred pd, predR := lutReads lut x y z, predW := [pd] }
  | .ppack gd d => some { op := 0x3A, form := .rx, guard := gd, srcs := [], dest := .result d 1, predR := allPreds }
  | .psprd gd a mask => some { op := 0x3B, form := .r, guard := gd, srcs := [(a, 1)], dest := .none, predW := maskPreds mask }
  | .fadd gd d a b _ _ _ _ => some { op := 0x40, form := .r, guard := gd, srcs := [(a, 1)] ++ [(b, 1)], dest := .result d 1 }
  | .fsub gd d a b _ _ _ _ => some { op := 0x41, form := .r, guard := gd, srcs := [(a, 1)] ++ [(b, 1)], dest := .result d 1 }
  | .fmul gd d a b _ _ _ _ => some { op := 0x42, form := .r, guard := gd, srcs := [(a, 1)] ++ [(b, 1)], dest := .result d 1 }
  | .ffma gd d a b c _ _ _ _ _ => some { op := 0x43, form := .r, guard := gd, srcs := [(a, 1)] ++ [(b, 1)] ++ [(c, 1)], dest := .result d 1 }
  | .fmin gd d a b _ _ => some { op := 0x44, form := .r, guard := gd, srcs := [(a, 1)] ++ [(b, 1)], dest := .result d 1 }
  | .fmax gd d a b _ _ => some { op := 0x45, form := .r, guard := gd, srcs := [(a, 1)] ++ [(b, 1)], dest := .result d 1 }
  | .pkadh gd d a b _ _ _ _ => some { op := 0x46, form := .r, guard := gd, srcs := [(a, 1)] ++ [(b, 1)], dest := .result d 1 }
  | .pkmlh gd d a b _ _ _ _ => some { op := 0x47, form := .r, guard := gd, srcs := [(a, 1)] ++ [(b, 1)], dest := .result d 1 }
  | .pkfmh gd d a b c _ _ _ _ _ => some { op := 0x48, form := .r, guard := gd, srcs := [(a, 1)] ++ [(b, 1)] ++ [(c, 1)], dest := .result d 1 }
  | .pkadb gd d a b _ _ _ _ => some { op := 0x49, form := .r, guard := gd, srcs := [(a, 1)] ++ [(b, 1)], dest := .result d 1 }
  | .pkmlb gd d a b _ _ _ _ => some { op := 0x4A, form := .r, guard := gd, srcs := [(a, 1)] ++ [(b, 1)], dest := .result d 1 }
  | .pkfmb gd d a b c _ _ _ _ _ => some { op := 0x4B, form := .r, guard := gd, srcs := [(a, 1)] ++ [(b, 1)] ++ [(c, 1)], dest := .result d 1 }
  | .frcp gd d a _ _ _ => some { op := 0x4C, form := .r, guard := gd, srcs := [(a, 1)], dest := .result d 1 }
  | .frsq gd d a _ => some { op := 0x4D, form := .r, guard := gd, srcs := [(a, 1)], dest := .result d 1 }
  | .fsqrt gd d a _ _ => some { op := 0x4E, form := .r, guard := gd, srcs := [(a, 1)], dest := .result d 1 }
  | .fexp2 gd d a _ => some { op := 0x4F, form := .r, guard := gd, srcs := [(a, 1)], dest := .result d 1 }
  | .flog2 gd d a _ => some { op := 0x50, form := .r, guard := gd, srcs := [(a, 1)], dest := .result d 1 }
  | .fsin gd d a _ => some { op := 0x51, form := .r, guard := gd, srcs := [(a, 1)], dest := .result d 1 }
  | .fcos gd d a _ => some { op := 0x52, form := .r, guard := gd, srcs := [(a, 1)], dest := .result d 1 }
  | .ftanh gd d a _ => some { op := 0x53, form := .r, guard := gd, srcs := [(a, 1)], dest := .result d 1 }
  | .fdiv gd d a b _ _ _ _ => some { op := 0x54, form := .r, guard := gd, srcs := [(a, 1)] ++ [(b, 1)], dest := .result d 1 }
  | .frnd gd d a _ _ => some { op := 0x55, form := .r, guard := gd, srcs := [(a, 1)], dest := .result d 1 }
  | .fscale gd d a b _ _ _ => some { op := 0x56, form := .r, guard := gd, srcs := [(a, 1)] ++ [(b, 1)], dest := .result d 1 }
  | .fdot8 gd d a b c _ _ _ _ _ fb fa => some { op := 0x57, form := .r, guard := gd, srcs := [(a, fa.regs)] ++ [(b, fb.regs)] ++ [(c, 1)], dest := .result d 1 }
  | .cvt gd d a c tgt frm _ _ _ _ => some { op := 0x60, form := .r, guard := gd, srcs := [(a, frm.regs)] ++ optSrc c, dest := .result d tgt.regs }
  | .cvtsr gd d a b c _ _ _ _ _ => some { op := 0x61, form := .r, guard := gd, srcs := [(a, 1)] ++ [(b, 1)] ++ optSrc c, dest := .result d 1 }
  | .cvti gd d a c tgt frm _ _ _ => some { op := 0x62, form := .r, guard := gd, srcs := [(a, frm.regs)] ++ optSrc c, dest := .result d tgt.regs }
  | .pack2 gd d a b _ _ _ _ => some { op := 0x63, form := .r, guard := gd, srcs := [(a, 1)] ++ [(b, 1)], dest := .result d 1 }
  | .unpk2 gd d a _ _ => some { op := 0x64, form := .r, guard := gd, srcs := [(a, 1)], dest := .result d 2 }
  | .lcdec gd d a b tgt _ _ => some { op := 0x65, form := .r, guard := gd, srcs := [(a, 1)] ++ optSrc b, dest := .result d (if tgt = .s8 then 2 else 4) }
  | .qnt gd d a b c _ _ _ => some { op := 0x66, form := .r, guard := gd, srcs := [(a, 1)] ++ [(b, 1)] ++ optSrc c, dest := .result d 1 }
  | .dqnt gd d a b _ _ _ => some { op := 0x67, form := .r, guard := gd, srcs := [(a, 1)] ++ [(b, 1)], dest := .result d 1 }
  | .e8ext gd d a c _ _ => some { op := 0x68, form := .r, guard := gd, srcs := [(a, 1)] ++ optSrc c, dest := .result d 1 }
  | .cvtf gd d a b c _ _ _ _ => some { op := 0x69, form := .r, guard := gd, srcs := [(a, 1)] ++ [(b, 1)] ++ optSrc c, dest := .result d 1 }
  | .bra gd _ => some { op := 0x70, form := .b, guard := gd, srcs := [], dest := .none }
  | .brany gd k _ => some { op := 0x71, form := .b, guard := gd, srcs := [], dest := .none, predR := [k], cohortScoped := true }
  | .brall gd k _ => some { op := 0x72, form := .b, guard := gd, srcs := [], dest := .none, predR := [k], cohortScoped := true }
  | .brnone gd k _ => some { op := 0x73, form := .b, guard := gd, srcs := [], dest := .none, predR := [k], cohortScoped := true }
  | .brx gd a => some { op := 0x74, form := .r, guard := gd, srcs := [(a, 2)], dest := .none }
  | .call gd _ => some { op := 0x75, form := .b, guard := gd, srcs := [], dest := .none, regW := [.w 30, .w 31] }
  | .callx gd a => some { op := 0x76, form := .r, guard := gd, srcs := [(a, 2)], dest := .none, regW := [.w 30, .w 31] }
  | .ret gd a => some { op := 0x77, form := .r, guard := gd, srcs := [(a, 2)], dest := .none }
  | .split gd _ => some { op := 0x78, form := .b, guard := gd, srcs := [], dest := .none, cohortScoped := true }
  | .join gd => some { op := 0x79, form := .rx, guard := gd, srcs := [], dest := .none, cohortScoped := true }
  | .breakOut gd _ _ => some { op := 0x7A, form := .b, guard := gd, srcs := [], dest := .none, cohortScoped := true }
  | .loopc gd d _ => some { op := 0x7B, form := .b, guard := gd, srcs := [(.reg d.reg .same, 1)], dest := .result d 1 }
  | .nop gd => some { op := 0x7C, form := .rx, guard := gd, srcs := [], dest := .none }
  | .yieldRun gd => some { op := 0x7D, form := .rx, guard := gd, srcs := [], dest := .none }
  | .ld gd d a _ sz => some { op := 0x80, form := .m, guard := gd, srcs := [(a, 2)], dest := .result d sz.regs }
  | .st gd a b _ sz => some { op := 0x81, form := .m, guard := gd, srcs := [(a, 2)] ++ [(b, sz.regs)], dest := .none }
  | .lds gd d a _ sz => some { op := 0x82, form := .m, guard := gd, srcs := [(a, 1)], dest := .result d sz.regs }
  | .sts gd a b _ sz => some { op := 0x83, form := .m, guard := gd, srcs := [(a, 1)] ++ [(b, sz.regs)], dest := .none }
  | .ldsfe gd d a _ _ _ => some { op := 0x84, form := .m, guard := gd, srcs := [(a, 1)], dest := .result d 1 }
  | .stsfe gd a b _ _ => some { op := 0x85, form := .m, guard := gd, srcs := [(a, 1)] ++ [(b, 1)], dest := .none }
  | .ldw gd d a _ _ _ sz => some { op := 0x86, form := .m, guard := gd, srcs := [(a, 1)], dest := .result d sz.regs }
  | .stw gd a b _ _ _ _ sz => some { op := 0x87, form := .m, guard := gd, srcs := [(a, 1)] ++ [(b, sz.regs)], dest := .none }
  | .wopen gd a _ _ => some { op := 0x88, form := .r, guard := gd, srcs := [(a, 1)], dest := .none }
  | .wclose gd _ => some { op := 0x89, form := .r, guard := gd, srcs := [], dest := .none }
  | .subs gd d a _ _ => some { op := 0x8A, form := .m, guard := gd, srcs := [(a, 2)], dest := .result d 1 }
  | .unsub gd d a _ => some { op := 0x8B, form := .m, guard := gd, srcs := [(a, 2)], dest := .result d 1 }
  | .upgr gd d a _ _ => some { op := 0x8C, form := .m, guard := gd, srcs := [(a, 2)], dest := .result d 1 }
  | .ldsub gd d a _ _ => some { op := 0x8D, form := .m, guard := gd, srcs := [(a, 2)], dest := .result d 1 }
  | .acq gd d gate => some { op := 0x8E, form := .i, guard := gd, srcs := [], dest := .result d 1, uses := [.gate gate.toNat] }
  | .rel gd gate => some { op := 0x8F, form := .i, guard := gd, srcs := [], dest := .none, uses := [.gate gate.toNat] }
  | .fence gd _ _ _ _ => some { op := 0x90, form := .rx, guard := gd, srcs := [], dest := .none }
  | .clnr gd a b _ => some { op := 0x91, form := .m, guard := gd, srcs := [(a, 2)] ++ [(b, 1)], dest := .none }
  | .invr gd a b _ => some { op := 0x92, form := .m, guard := gd, srcs := [(a, 2)] ++ [(b, 1)], dest := .none }
  | .dscr gd a b _ => some { op := 0x93, form := .m, guard := gd, srcs := [(a, 2)] ++ [(b, 1)], dest := .none }
  | .ldrc gd d a _ sz => some { op := 0x94, form := .m, guard := gd, srcs := [(a, 2)], dest := .result d sz.regs }
  | .strc gd a b _ _ sz => some { op := 0x95, form := .m, guard := gd, srcs := [(a, 2)] ++ [(b, sz.regs)], dest := .none }
  | .prft gd a _ _ => some { op := 0x96, form := .m, guard := gd, srcs := [(a, 2)], dest := .none }
  | .rfwin gd d a => some { op := 0x97, form := .r, guard := gd, srcs := [(a, 1)], dest := .result d 2 }
  | .ldwt gd d a _ sz => some { op := 0x98, form := .m, guard := gd, srcs := [(a, 2)], dest := .result d sz.regs }
  | .stna gd a b _ sz => some { op := 0x99, form := .m, guard := gd, srcs := [(a, 2)] ++ [(b, sz.regs)], dest := .none }
  | .aadd gd d a b _ sz => some { op := 0xA0, form := .m, guard := gd, srcs := [(a, 2)] ++ [(b, sz.regs)], dest := .result d sz.regs }
  | .amin gd d a b _ _ sz => some { op := 0xA1, form := .m, guard := gd, srcs := [(a, 2)] ++ [(b, sz.regs)], dest := .result d sz.regs }
  | .amax gd d a b _ _ sz => some { op := 0xA2, form := .m, guard := gd, srcs := [(a, 2)] ++ [(b, sz.regs)], dest := .result d sz.regs }
  | .alog gd d a b _ _ sz => some { op := 0xA3, form := .m, guard := gd, srcs := [(a, 2)] ++ [(b, sz.regs)], dest := .result d sz.regs }
  | .axch gd d a b _ sz => some { op := 0xA4, form := .m, guard := gd, srcs := [(a, 2)] ++ [(b, sz.regs)], dest := .result d sz.regs }
  | .acas gd d a b _ sz => some { op := 0xA5, form := .m, guard := gd, srcs := [(a, 2)] ++ [(b, (2 * sz.regs))], dest := .result d sz.regs }
  | .afadd gd d a b _ _ => some { op := 0xA6, form := .m, guard := gd, srcs := [(a, 2)] ++ [(b, 1)], dest := .result d 1 }
  | .ainc gd d a b _ => some { op := 0xA7, form := .m, guard := gd, srcs := [(a, 2)] ++ [(b, 1)], dest := .result d 1 }
  | .adec gd d a b _ => some { op := 0xA8, form := .m, guard := gd, srcs := [(a, 2)] ++ [(b, 1)], dest := .result d 1 }
  | .redi gd a b _ _ _ sz => some { op := 0xA9, form := .m, guard := gd, srcs := [(a, 2)] ++ [(b, sz.regs)], dest := .none }
  | .redf gd a b _ _ => some { op := 0xAA, form := .m, guard := gd, srcs := [(a, 2)] ++ [(b, 1)], dest := .none }
  | .redlog gd a b _ _ sz => some { op := 0xAB, form := .m, guard := gd, srcs := [(a, 2)] ++ [(b, sz.regs)], dest := .none }
  | .elect gd pp _ => some { op := 0xB0, form := .rx, guard := gd, srcs := [], dest := .predPair pp, predW := pairPreds pp, cohortScoped := true }
  | .electq gd pp _ => some { op := 0xB1, form := .rx, guard := gd, srcs := [], dest := .predPair pp, predW := pairPreds pp, cohortScoped := true }
  | .poll gd d _ k _ => some { op := 0xB2, form := .rx, guard := gd, srcs := [], dest := .result d 1, predR := [k], cohortScoped := true }
  | .matchLanes gd d a w => some { op := 0xB3, form := .r, guard := gd, srcs := [(a, (if w then 2 else 1))], dest := .result d 1, cohortScoped := true }
  | .bara gd bar => some { op := 0xB4, form := .rx, guard := gd, srcs := [], dest := .none, cohortScoped := true, uses := [.bar bar] }
  | .barw gd bar _ => some { op := 0xB5, form := .rx, guard := gd, srcs := [], dest := .none, cohortScoped := true, uses := [.bar bar] }
  | .barwt gd pp a bar _ => some { op := 0xB6, form := .rx, guard := gd, srcs := [(a, 2)], dest := .predPair pp, predW := pairPreds pp, cohortScoped := true, uses := [.bar bar] }
  | .barx gd a bar _ => some { op := 0xB7, form := .rx, guard := gd, srcs := [(a, 1)], dest := .none, cohortScoped := true, uses := [.bar bar] }
  | .spawn gd d a b => some { op := 0xB8, form := .r, guard := gd, srcs := [(a, 2)] ++ [(b, 1)], dest := .late d }
  | .exit gd => some { op := 0xB9, form := .rx, guard := gd, srcs := [], dest := .none }
  | .enq gd d a => some { op := 0xBA, form := .r, guard := gd, srcs := [(a, 1)], dest := .late d }
  | .deq gd d a => some { op := 0xBB, form := .r, guard := gd, srcs := [(a, 1)], dest := .late d }
  | .rgn gd a n => some { op := 0xBC, form := .rx, guard := gd, srcs := groupSrcs a n.val, dest := .none, cohortScoped := true }
  | .waitt gd a => some { op := 0xBD, form := .rx, guard := gd, srcs := [(a, 2)], dest := .none }
  | .cpy gd a b e bar => some { op := 0xC0, form := .e, guard := gd, srcs := [(a, 1)] ++ [(b, 1)] ++ e.srcs, dest := .none, cohortScoped := true, com := some e, uses := (bar.map fun n => Use.bar { lev := .team, num := n }).toList }
  | .cpy2d gd a b e bar => some { op := 0xC1, form := .e, guard := gd, srcs := [(a, 1)] ++ [(b, 1)] ++ e.srcs, dest := .none, cohortScoped := true, com := some e, uses := (bar.map fun n => Use.bar { lev := .team, num := n }).toList }
  | .tseal gd d a ppr _ => some { op := 0xC2, form := .e, guard := gd, srcs := [(a, 1)], dest := .result d 1, predW := pairPreds ppr, cohortScoped := true }
  | .tunsl gd a => some { op := 0xC3, form := .e, guard := gd, srcs := [(a, 1)], dest := .none, cohortScoped := true }
  | .tcvp gd a b e _ sci => some { op := 0xC4, form := .e, guard := gd, srcs := [(a, 2)] ++ [(b, (if sci then 2 else 1))] ++ e.srcs, dest := .none, cohortScoped := true, com := some e }
  | .tmma gd a b e _ acc _ => some { op := 0xC5, form := .e, guard := gd, srcs := [(a, 2)] ++ [(b, 2)] ++ e.srcs, dest := .none, cohortScoped := true, com := some e, uses := [.tile acc.val] }
  | .accz gd e acc => some { op := 0xC6, form := .e, guard := gd, srcs := e.srcs, dest := .none, cohortScoped := true, com := some e, uses := [.tile acc.val] }
  | .accld gd a e _ acc => some { op := 0xC7, form := .e, guard := gd, srcs := [(a, 1)] ++ e.srcs, dest := .none, cohortScoped := true, com := some e, uses := [.tile acc.val] }
  | .accst gd a e _ acc => some { op := 0xC8, form := .e, guard := gd, srcs := [(a, 1)] ++ e.srcs, dest := .none, cohortScoped := true, com := some e, uses := [.tile acc.val] }
  | .accadd gd a e acc => some { op := 0xC9, form := .e, guard := gd, srcs := [(a, 1)] ++ e.srcs, dest := .none, cohortScoped := true, com := some e, uses := [.tile acc.val] }
  | .accred gd a e _ acc _ => some { op := 0xCA, form := .e, guard := gd, srcs := [(a, 1)] ++ e.srcs, dest := .none, cohortScoped := true, com := some e, uses := [.tile acc.val] }
  | .tselk gd a b e _ => some { op := 0xCB, form := .e, guard := gd, srcs := [(a, 1)] ++ [(b, 1)] ++ e.srcs, dest := .none, cohortScoped := true, com := some e }
  | .bankrun gd a b e => some { op := 0xCC, form := .e, guard := gd, srcs := [(a, 1)] ++ [(b, 1)] ++ e.srcs, dest := .none, cohortScoped := true, com := some e }
  | .bankst gd a b e => some { op := 0xCD, form := .e, guard := gd, srcs := [(a, 1)] ++ [(b, 1)] ++ e.srcs, dest := .none, cohortScoped := true, com := some e }
  | .walk gd a b e => some { op := 0xCE, form := .e, guard := gd, srcs := [(a, 1)] ++ [(b, 4)] ++ e.srcs, dest := .none, cohortScoped := true, com := some e }
  | .coll gd a e => some { op := 0xCF, form := .e, guard := gd, srcs := [(a, 1)] ++ e.srcs, dest := .none, cohortScoped := true, com := some e }
  | .cksum gd a b e => some { op := 0xD0, form := .e, guard := gd, srcs := [(a, 1)] ++ [(b, 1)] ++ e.srcs, dest := .none, cohortScoped := true, com := some e }
  | .gset gd slot => some { op := 0xD1, form := .e, guard := gd, srcs := [], dest := .none, cohortScoped := true, uses := [.slot slot] }
  | .gres gd _ k slot => some { op := 0xD2, form := .e, guard := gd, srcs := [], dest := .none, predR := [k], cohortScoped := true, uses := [.slot slot] }
  | .waitcnt gd a _ _ => some { op := 0xD3, form := .e, guard := gd, srcs := optSrc a, dest := .none, cohortScoped := true }
  | .ecanc gd _ _ => some { op := 0xD4, form := .e, guard := gd, srcs := [], dest := .none, cohortScoped := true }
  | .tstat gd d _ => some { op := 0xD5, form := .e, guard := gd, srcs := [], dest := .result d 1, cohortScoped := true }
  | .trap gd _ => some { op := 0xE0, form := .i, guard := gd, srcs := [], dest := .none }
  | .rte gd => some { op := 0xE1, form := .rx, guard := gd, srcs := [], dest := .none }
  | .rdsys gd d _ => some { op := 0xE2, form := .i, guard := gd, srcs := [], dest := .result d 1 }
  | .wrsys gd a _ => some { op := 0xE3, form := .i, guard := gd, srcs := [(a, 1)], dest := .none }
  | .wsave gd => some { op := 0xE4, form := .rx, guard := gd, srcs := [], dest := .none }
  | .wrstr gd => some { op := 0xE5, form := .rx, guard := gd, srcs := [], dest := .none }
  | .bkpt gd _ => some { op := 0xE6, form := .i, guard := gd, srcs := [], dest := .none }
  | .rdtime gd d => some { op := 0xE7, form := .rx, guard := gd, srcs := [], dest := .result d 2 }
  | .cerq7Read gd d => some { op := 0xE2, form := .i, guard := gd, srcs := [], dest := .result d 1 }
  | .unassignedOpcode _ => none
  | .cksumChunk _ => none
  | .chunkSend _ => none
  | .chunkReceive _ _ _ _ _ => none
  | .chunkReRequest _ _ _ => none
  | .chunkAcknowledge _ _ _ => none
  | .shapeReceive _ _ => none
  | .launchAcceptance => none
  | .eligibilityTest _ => none
  | .placementPass => none
  | .contextSaveStart _ => none
  | .contextSaveComplete _ => none
  | .launchEnd _ => none
  | .snapshotCopy _ _ => none
  | .wloadComplete _ => none
  | .fetchParityRefetch _ _ => none
  | .replayAdmission _ => none
  | .registerWriteComplete _ => none
  | .barwtDeadline _ => none
  | .waittExpiry _ => none
  | .cohortRelease _ => none
  | .windowAccessArrival _ => none
  | .windowAnswer _ => none
  | .subscriptionUpdate _ => none
  | .subscriptionInvalidation _ => none
  | .gateReleaseApply _ _ => none
  | .homeAccessPerform _ => none
  | .maintenanceComplete _ => none
  | .writeBackAccept _ => none
  | .weightRefreshEnd _ _ => none
  | .missTableWaitEnd _ => none
  | .translationShootdown _ => none
  | .rfqWaitEnd _ => none
  | .vnpChainTake _ => none
  | .install _ => none
  | .wake _ => none
  | .ownershipStep _ => none
  | .engineCommandStart _ _ => none
  | .notBeforeMet _ => none
  | .commandForward _ _ => none
  | .commandReport _ _ => none
  | .cancelStop _ => none
  | .cpyStep _ => none
  | .tcvpStep _ => none
  | .tmmaStep _ => none
  | .accCommandRun _ => none
  | .tselkRun _ => none
  | .bankRowStep _ => none
  | .bankEngineResume _ => none
  | .bankstSample _ _ => none
  | .walkStep _ => none
  | .walkOutput _ => none
  | .residueRetry _ _ _ _ => none
  | .l2Eviction _ => none
  | .memsideCapacityEviction _ => none
  | .weightRefreshStart _ _ => none
  | .pageWalk _ _ _ _ => none
  | .dirq _ _ _ _ => none
  | .directoryReply _ _ _ => none
  | .pageDataMessage _ _ _ _ => none
  | .stepTimeout _ => none
  | .faultHardTimeout _ => none
  | .declinedQueueForward _ => none
  | .leaseRenewal _ => none
  | .leaseLapse _ => none
  | .renewalRequest _ _ => none
  | .homeLeaseEnd _ _ => none
  | .downgrade _ _ => none
  | .revoke _ => none
  | .recallPage _ => none
  | .release _ _ => none
  | .writeBack _ _ _ _ => none
  | .clockEviction => none
  | .noFrameDecline _ => none
  | .collectiveNoProgress _ => none
  | .scanTest => none
  | .scanTestComplete _ => none
  | .patrolPassStart => none
  | .lehrSectorScrub _ => none
  | .passComplete => none
  | .rebuildLineMove _ _ => none
  | .rebuildComplete _ _ => none
  | .linkLaneMappedOut _ => none
  | .linkFailure _ => none
  | .flitRetry _ => none
  | .umrilMessageReceive _ => none
  | .planeHealthChange _ _ => none
  | .uetRetransmission _ => none
  | .ptpMessage _ => none
  | .offsetAlarm => none
  | .submit _ _ => none
  | .cancel _ _ => none
  | .bindQueue _ _ _ _ => none
  | .shoot _ _ _ _ => none
  | .wload _ _ _ _ _ => none
  | .grant _ _ _ _ _ => none
  | .retire _ _ _ => none
  | .pwrset _ _ _ => none
  | .powerGate _ => none
  | .powerReturnComplete _ => none
  | .dfrespRetry _ _ _ => none
  | .dfrespTrap _ _ _ => none
  | .dfrespAbort _ _ _ => none
  | .tableHmap _ _ => none
  | .tableMaddr _ _ => none
  | .tableFramePool _ _ _ => none
  | .paramAge _ _ => none
  | .paramLease _ _ => none
  | .paramPass _ _ => none
  | .paramTestInterval _ _ => none
  | .paramAlertThreshold _ _ _ => none
  | .mode _ _ _ _ => none
  | .fwdstep _ _ => none
  | .ectl _ _ _ _ => none
  | .counterClear _ _ => none
  | .invalidHostCommand _ _ => none
  | .thermalAlert _ _ _ => none
  | .thermalTrip _ _ _ => none
  | .powerUp _ => none
  | .pageReadRequest _ _ _ _ => none
  | .renewalReply _ _ => none
  | .sensorFallBelowThreshold _ _ _ => none

/-- Constraints between the fields of one instruction that its own description states. -/
def fieldsOk : Instr → Bool
  | .add _ _ _ _ _ => true
  | .sub _ _ _ _ _ => true
  | .addc _ _ _ _ _ _ => true
  | .subb _ _ _ _ _ _ => true
  | .mul _ _ _ _ => true
  | .mulhS _ _ _ _ => true
  | .mulhN _ _ _ _ => true
  | .mad _ _ _ _ _ => true
  | .madw _ _ _ _ _ _ => true
  | .divS _ _ _ _ => true
  | .divN _ _ _ _ => true
  | .remS _ _ _ _ => true
  | .remN _ _ _ _ => true
  | .minS _ _ _ _ => true
  | .minN _ _ _ _ => true
  | .maxS _ _ _ _ => true
  | .maxN _ _ _ _ => true
  | .abs _ _ _ => true
  | .neg _ _ _ => true
  | .logt _ _ _ _ _ _ => true
  | .shl _ _ _ _ => true
  | .shrN _ _ _ _ => true
  | .shrS _ _ _ _ => true
  | .rot _ _ _ _ => true
  | .fshl _ _ _ _ _ => true
  | .bfx _ _ _ _ _ => true
  | .bfi _ _ _ _ _ => true
  | .popc _ _ _ => true
  | .clz _ _ _ => true
  | .brev _ _ _ => true
  | .psel _ _ _ _ _ _ => true
  | .mov _ _ _ => true
  | .movi _ _ _ => true
  | .lea _ _ _ _ => true
  | .icmpS _ _ _ _ _ _ => true
  | .icmpN _ _ _ _ _ _ => true
  | .icmpW _ _ _ _ _ _ _ => true
  | .fcmp _ _ _ _ _ _ => true
  | .fcmpH2 _ _ _ _ _ _ => true
  | .fcmpBf2 _ _ _ _ _ _ => true
  | .fclass _ _ _ _ _ _ => true
  | .btest _ _ _ _ _ _ => true
  | .rchk _ _ _ _ _ _ _ => true
  | .pmix _ _ _ _ _ _ => true
  | .ppack _ _ => true
  | .psprd _ _ _ => true
  | .fadd _ _ _ _ _ _ _ _ => true
  | .fsub _ _ _ _ _ _ _ _ => true
  | .fmul _ _ _ _ _ _ _ _ => true
  | .ffma _ _ _ _ _ _ _ _ _ _ => true
  | .fmin _ _ _ _ _ _ => true
  | .fmax _ _ _ _ _ _ => true
  | .pkadh _ _ _ _ _ _ _ _ => true
  | .pkmlh _ _ _ _ _ _ _ _ => true
  | .pkfmh _ _ _ _ _ _ _ _ _ _ => true
  | .pkadb _ _ _ _ _ _ _ _ => true
  | .pkmlb _ _ _ _ _ _ _ _ => true
  | .pkfmb _ _ _ _ _ _ _ _ _ _ => true
  | .frcp _ _ _ _ _ _ => true
  | .frsq _ _ _ _ => true
  | .fsqrt _ _ _ _ _ => true
  | .fexp2 _ _ _ _ => true
  | .flog2 _ _ _ _ => true
  | .fsin _ _ _ _ => true
  | .fcos _ _ _ _ => true
  | .ftanh _ _ _ _ => true
  | .fdiv _ _ _ _ _ _ _ _ => true
  | .frnd _ _ _ _ _ => true
  | .fscale _ _ _ _ _ _ _ => true
  | .fdot8 _ _ _ _ _ _ _ _ _ _ _ _ => true
  | .cvt _ _ _ c tgt frm _ sat ks kd => baseOk c && cvtOk tgt frm sat ks kd c.isSome
  | .cvtsr _ _ _ _ c tgt frm _ ks kd => baseOk c && cvtsrOk tgt frm ks kd
  | .cvti _ _ _ c tgt frm _ ks kd => baseOk c && cvtiOk tgt frm ks kd c.isSome
  | .pack2 _ _ _ _ tgt frm rm _ => pack2Ok tgt frm rm
  | .unpk2 _ _ _ tgt frm => unpk2Ok tgt frm
  | .lcdec _ _ _ b tgt rm ks => lcdecOk tgt rm ks b.isSome
  | .qnt _ _ _ _ c tgt _ kd => baseOk c && quantFmt tgt && idxOk tgt kd
  | .dqnt _ _ _ _ frm _ ks => quantFmt frm && idxOk frm ks
  | .e8ext _ _ _ c tgt kd => baseOk c && (maxExp tgt).isSome && decide (kd.val < 4)
  | .cvtf _ _ _ _ c deq ks kd _ => baseOk c && cvtfOk deq ks kd c.isSome
  | .bra _ _ => true
  | .brany _ _ _ => true
  | .brall _ _ _ => true
  | .brnone _ _ _ => true
  | .brx _ _ => true
  | .call _ _ => true
  | .callx _ _ => true
  | .ret _ _ => true
  | .split _ _ => true
  | .join _ => true
  | .breakOut _ _ _ => true
  | .loopc _ _ _ => true
  | .nop _ => true
  | .yieldRun _ => true
  | .ld _ _ _ _ _ => true
  | .st _ _ b _ sz => dataOk b sz.regs
  | .lds _ _ _ _ _ => true
  | .sts _ _ b _ sz => dataOk b sz.regs
  | .ldsfe _ _ _ _ _ _ => true
  | .stsfe _ _ _ _ _ => true
  | .ldw _ _ _ _ _ _ _ => true
  | .stw _ _ b _ _ _ _ sz => dataOk b sz.regs
  | .wopen _ _ _ _ => true
  | .wclose _ _ => true
  | .subs _ _ _ _ _ => true
  | .unsub _ _ _ _ => true
  | .upgr _ _ _ _ _ => true
  | .ldsub _ _ _ _ _ => true
  | .acq _ _ _ => true
  | .rel _ _ => true
  | .fence _ _ bk acq rel => bk || acq || rel
  | .clnr _ _ _ _ => true
  | .invr _ _ _ _ => true
  | .dscr _ _ _ _ => true
  | .ldrc _ _ _ _ _ => true
  | .strc _ _ b _ cnt sz => dataOk b sz.regs && decide (cnt ≠ 0#8)
  | .prft _ _ _ _ => true
  | .rfwin _ _ _ => true
  | .ldwt _ _ _ _ _ => true
  | .stna _ _ b _ sz => dataOk b sz.regs
  | .aadd _ _ _ _ _ _ => true
  | .amin _ _ _ _ _ _ _ => true
  | .amax _ _ _ _ _ _ _ => true
  | .alog _ _ _ _ _ _ _ => true
  | .axch _ _ _ _ _ _ => true
  | .acas _ _ _ _ _ _ => true
  | .afadd _ _ _ _ _ _ => true
  | .ainc _ _ _ _ _ => true
  | .adec _ _ _ _ _ => true
  | .redi _ _ _ _ op sg _ => !(decide (op = .add) && sg)
  | .redf _ _ _ _ _ => true
  | .redlog _ _ _ _ _ _ => true
  | .elect _ _ _ => true
  | .electq _ _ _ => true
  | .poll _ _ _ _ _ => true
  | .matchLanes _ _ _ _ => true
  | .bara _ _ => true
  | .barw _ _ _ => true
  | .barwt _ _ _ _ _ => true
  | .barx _ _ bar _ => decide (bar.lev = .team)
  | .spawn _ _ _ _ => true
  | .exit _ => true
  | .enq _ _ _ => true
  | .deq _ _ _ => true
  | .rgn _ a n => groupOk a n.val
  | .waitt _ _ => true
  | .cpy _ _ _ _ _ => true
  | .cpy2d _ _ _ _ _ => true
  | .tseal _ d _ _ _ => d.reg.isS
  | .tunsl _ _ => true
  | .tcvp _ _ _ _ _ _ => true
  | .tmma _ _ _ _ _ _ _ => true
  | .accz _ _ _ => true
  | .accld _ _ _ _ _ => true
  | .accst _ _ _ _ _ => true
  | .accadd _ _ _ _ => true
  | .accred _ _ _ _ _ _ => true
  | .tselk _ _ _ _ _ => true
  | .bankrun _ _ _ _ => true
  | .bankst _ _ _ _ => true
  | .walk _ _ _ _ => true
  | .coll _ _ _ => true
  | .cksum _ _ _ _ => true
  | .gset _ _ => true
  | .gres _ _ _ _ => true
  | .waitcnt _ a n _ => a.isNone || decide (n.val = 0)
  | .ecanc _ _ _ => true
  | .tstat _ _ _ => true
  | .trap _ _ => true
  | .rte _ => true
  | .rdsys _ _ reg => decide (reg ≠ .cerq 7)
  | .wrsys _ _ _ => true
  | .wsave _ => true
  | .wrstr _ => true
  | .bkpt _ _ => true
  | .rdtime _ _ => true
  | .cerq7Read _ _ => true
  | .unassignedOpcode w => !opAssigned (w.toNat / 2 ^ 88)
  | .cksumChunk _ => true
  | .chunkSend _ => true
  | .chunkReceive _ _ _ _ _ => true
  | .chunkReRequest _ _ _ => true
  | .chunkAcknowledge _ _ _ => true
  | .shapeReceive _ _ => true
  | .launchAcceptance => true
  | .eligibilityTest _ => true
  | .placementPass => true
  | .contextSaveStart _ => true
  | .contextSaveComplete _ => true
  | .launchEnd _ => true
  | .snapshotCopy _ _ => true
  | .wloadComplete _ => true
  | .fetchParityRefetch _ _ => true
  | .replayAdmission _ => true
  | .registerWriteComplete _ => true
  | .barwtDeadline _ => true
  | .waittExpiry _ => true
  | .cohortRelease _ => true
  | .windowAccessArrival _ => true
  | .windowAnswer _ => true
  | .subscriptionUpdate _ => true
  | .subscriptionInvalidation _ => true
  | .gateReleaseApply _ _ => true
  | .homeAccessPerform _ => true
  | .maintenanceComplete _ => true
  | .writeBackAccept _ => true
  | .weightRefreshEnd _ _ => true
  | .missTableWaitEnd _ => true
  | .translationShootdown _ => true
  | .rfqWaitEnd _ => true
  | .vnpChainTake _ => true
  | .install _ => true
  | .wake _ => true
  | .ownershipStep _ => true
  | .engineCommandStart _ _ => true
  | .notBeforeMet _ => true
  | .commandForward _ _ => true
  | .commandReport _ _ => true
  | .cancelStop _ => true
  | .cpyStep _ => true
  | .tcvpStep _ => true
  | .tmmaStep _ => true
  | .accCommandRun _ => true
  | .tselkRun _ => true
  | .bankRowStep _ => true
  | .bankEngineResume _ => true
  | .bankstSample _ _ => true
  | .walkStep _ => true
  | .walkOutput _ => true
  | .residueRetry _ _ _ _ => true
  | .l2Eviction _ => true
  | .memsideCapacityEviction _ => true
  | .weightRefreshStart _ _ => true
  | .pageWalk _ _ _ _ => true
  | .dirq _ _ _ _ => true
  | .directoryReply _ _ _ => true
  | .pageDataMessage _ _ _ _ => true
  | .stepTimeout _ => true
  | .faultHardTimeout _ => true
  | .declinedQueueForward _ => true
  | .leaseRenewal _ => true
  | .leaseLapse _ => true
  | .renewalRequest _ _ => true
  | .homeLeaseEnd _ _ => true
  | .downgrade _ _ => true
  | .revoke _ => true
  | .recallPage _ => true
  | .release _ _ => true
  | .writeBack _ _ _ _ => true
  | .clockEviction => true
  | .noFrameDecline _ => true
  | .collectiveNoProgress _ => true
  | .scanTest => true
  | .scanTestComplete _ => true
  | .patrolPassStart => true
  | .lehrSectorScrub _ => true
  | .passComplete => true
  | .rebuildLineMove _ _ => true
  | .rebuildComplete _ _ => true
  | .linkLaneMappedOut _ => true
  | .linkFailure _ => true
  | .flitRetry _ => true
  | .umrilMessageReceive _ => true
  | .planeHealthChange _ _ => true
  | .uetRetransmission _ => true
  | .ptpMessage _ => true
  | .offsetAlarm => true
  | .submit _ _ => true
  | .cancel _ _ => true
  | .bindQueue _ _ _ _ => true
  | .shoot _ _ _ _ => true
  | .wload _ _ _ _ _ => true
  | .grant _ _ _ _ _ => true
  | .retire _ _ _ => true
  | .pwrset _ _ _ => true
  | .powerGate _ => true
  | .powerReturnComplete _ => true
  | .dfrespRetry _ _ _ => true
  | .dfrespTrap _ _ _ => true
  | .dfrespAbort _ _ _ => true
  | .tableHmap _ _ => true
  | .tableMaddr _ _ => true
  | .tableFramePool _ _ _ => true
  | .paramAge _ _ => true
  | .paramLease _ _ => true
  | .paramPass _ _ => true
  | .paramTestInterval _ _ => true
  | .paramAlertThreshold _ _ _ => true
  | .mode _ _ _ _ => true
  | .fwdstep _ _ => true
  | .ectl _ _ _ _ => true
  | .counterClear _ _ => true
  | .invalidHostCommand _ _ => true
  | .thermalAlert _ _ _ => true
  | .thermalTrip _ _ _ => true
  | .powerUp _ => true
  | .pageReadRequest _ _ _ _ => true
  | .renewalReply _ _ => true
  | .sensorFallBelowThreshold _ _ _ => true

end Sys2Proof
end

