-- ==== Sys2Proof/WellFormed.lean ====
section
/-!
DEFINITION. Well-formed instructions: the checks of R22, R24, R50 to R53 and R60 on the operands an instruction names, and
the constraints its own description states between its fields. A program that decodes is made of these; the encoder gives a
word for these alone.
-/

namespace Sys2Proof

/-- A permute pattern on a source (R51): none on s and k, replication in the R form alone. -/
def permOk (form : Form) (shared : Bool) (p : Perm) : Bool :=
  match p with
  | .same => true
  | .bfly _ | .rot _ | .rev => !shared
  | .repl _ => !shared && decide (form = .r)

/-- One source of n registers (R22, R24, R49 to R53). -/
def srcOk (form : Form) (x : Src × Nat) : Bool :=
  match x.1 with
  | .reg r p => decide (regNum r % x.2 = 0) && permOk form (r.isS || r.isK) p
  | .latch _ p => decide (x.2 = 1) && permOk form false p

/-- A replication lane of a source. -/
def replLane (x : Src × Nat) : Option (Fin 32) :=
  match x.1 with
  | .reg _ (.repl l) => some l
  | .latch _ (.repl l) => some l
  | _ => none

/-- All sources with pattern 14 replicate one lane (R52). -/
def lanesAgree (l : List (Src × Nat)) : Bool :=
  match l.filterMap replLane with
  | [] => true
  | n :: rest => rest.all fun m => m = n

/-- What dst names (R22, R24). -/
def destOk : DestUse → Bool
  | .result d n => !d.reg.isK && decide (regNum d.reg % n = 0)
  | .late r => !r.isK
  | .none | .predPair _ | .pred _ => true

/-- The well-formed instructions. A step of a unit, the fabric or the host carries no encoding and is always one. -/
def wellFormed (i : Instr) : Bool :=
  fieldsOk i &&
  match viewOf i with
  | none => true
  | some v => v.srcs.all (srcOk v.form) && lanesAgree v.srcs && destOk v.dest

end Sys2Proof
end

