-- ==== Sys2Proof/Decode.lean ====
section
/-!
DEFINITION. The decoder: an instruction word of 96 bits to an instruction or to the cause of R68 it is refused with, total
on every word; and after it the encoder, from the same layouts (R45 to R53 and the modifier tables).
-/

namespace Sys2Proof

/-! ### The word and its fields -/

/-- The fields of an instruction word as numbers: the common part of R45, and the form-dependent part [60:0]. -/
structure Raw where
  op : Nat
  tt : Nat
  pa : Nat
  pb : Nat
  pc : Nat
  wbs : Nat
  rl : Nat
  dst : Nat
  low : Nat
  deriving DecidableEq, Repr

/-- Bits lo to lo + w - 1 of a number. -/
def fld (m lo w : Nat) : Nat := m / 2 ^ lo % 2 ^ w

/-- The fields of a word (R45). -/
def unpack (w : IWord) : Raw :=
  let n := w.toNat
  { op := fld n 88 8, tt := fld n 80 8, pa := fld n 77 3, pb := fld n 74 3, pc := fld n 71 3,
    wbs := fld n 70 1, rl := fld n 68 2, dst := fld n 61 7, low := fld n 0 61 }

/-- The word of given fields (R45). -/
def pack (r : Raw) : IWord :=
  BitVec.ofNat 96 (r.op * 2 ^ 88 + r.tt * 2 ^ 80 + r.pa * 2 ^ 77 + r.pb * 2 ^ 74 + r.pc * 2 ^ 71
    + r.wbs * 2 ^ 70 + r.rl * 2 ^ 68 + r.dst * 2 ^ 61 + r.low)

/-- The srcA position [60:49] of every form (R46). -/
def Raw.fa (r : Raw) : Nat := fld r.low 49 12

/-- The srcB position [48:37] of the R, M and E forms (R46). -/
def Raw.fb (r : Raw) : Nat := fld r.low 37 12

/-- The srcC position [36:25] of the R and E forms (R46). -/
def Raw.fc (r : Raw) : Nat := fld r.low 25 12

/-- The 32-bit immediate [48:17] of the I form, and off32 of the B form (R46). -/
def Raw.imm (r : Raw) : Nat := fld r.low 17 32

/-- The byte offset [36:13] of the M form (R46). -/
def Raw.off (r : Raw) : Nat := fld r.low 13 24

/-- The slot [16:14] of the B form (R46). -/
def Raw.slot (r : Raw) : Nat := fld r.low 14 3

/-- The modifier of each form (R46). -/
def Raw.modOf (r : Raw) : Form → Nat
  | .r | .rx | .e => fld r.low 0 25
  | .i => fld r.low 0 17
  | .m => fld r.low 0 13
  | .b => fld r.low 0 14

/-! ### Shapes -/

/-- How an instruction uses a source position. -/
inductive SrcUse where
  /-- not used: the field is 0x000 (R53) -/
  | unused
  /-- n registers (R24); a latch where n = 1 -/
  | regs (n : Nat)
  /-- the data of a store, n registers (R146) -/
  | data (n : Nat)
  /-- a merge base, which names a register (R167) -/
  | base
  /-- the register group of RGN (R227) -/
  | group
  /-- not a source field: an immediate -/
  | free
  deriving DecidableEq, Repr

/-- How an instruction uses dst. -/
inductive DstUse where
  | none
  | result (n : Nat)
  | late
  | predPair
  | pred
  deriving DecidableEq, Repr

/-- The use of every field of an opcode. -/
structure Shape where
  form : Form
  a : SrcUse
  b : SrcUse
  c : SrcUse
  dst : DstUse
  mask : Nat
  deriving DecidableEq, Repr

/-- Registers of a load or store position of size code n (R146); 1 for a reserved size. -/
def ldRegs (n : Nat) : Nat := if n = 6 then 4 else if n = 5 then 2 else 1

/-- Registers of an atomic position of size code n (R337). -/
def atRegs (n : Nat) : Nat := if n = 5 then 2 else 1

/-- Registers of a value of format code n (R69). -/
def fmtRegs (n : Nat) : Nat := if n = 3 ∨ n = 7 then 2 else 1

/-- Registers of LCDEC's result by its target code (R173). -/
def lcRegs (n : Nat) : Nat := if n = 4 then 2 else if n = 9 ∨ n = 10 then 4 else 1

/-- Registers of an FDOT8 operand by its format code (R165). -/
def dotRegs (n : Nat) : Nat := if n < 2 then 2 else 1

/-- The shape of each opcode of R120: how each field is used and which modifier bits its description assigns. -/
def shapeOf (op m : Nat) : Option Shape :=
  match op with
  | 0x00 => some { form := .r, a := .regs (1), b := if fld m 24 1 = 1 then .free else .regs 1, c := .unused, dst := .result (1), mask := 0x1000020 }
  | 0x01 => some { form := .r, a := .regs (1), b := if fld m 24 1 = 1 then .free else .regs 1, c := .unused, dst := .result (1), mask := 0x1000020 }
  | 0x02 => some { form := .r, a := .regs (1), b := if fld m 24 1 = 1 then .free else .regs 1, c := .regs (1), dst := .result (1), mask := 0x1000020 }
  | 0x03 => some { form := .r, a := .regs (1), b := if fld m 24 1 = 1 then .free else .regs 1, c := .regs (1), dst := .result (1), mask := 0x1000020 }
  | 0x04 => some { form := .r, a := .regs (1), b := if fld m 24 1 = 1 then .free else .regs 1, c := .unused, dst := .result (1), mask := 0x1000000 }
  | 0x05 => some { form := .r, a := .regs (1), b := if fld m 24 1 = 1 then .free else .regs 1, c := .unused, dst := .result (1), mask := 0x1000000 }
  | 0x06 => some { form := .r, a := .regs (1), b := if fld m 24 1 = 1 then .free else .regs 1, c := .unused, dst := .result (1), mask := 0x1000000 }
  | 0x07 => some { form := .r, a := .regs (1), b := if fld m 24 1 = 1 then .free else .regs 1, c := .regs (1), dst := .result (1), mask := 0x1000000 }
  | 0x08 => some { form := .r, a := .regs (1), b := if fld m 24 1 = 1 then .free else .regs 1, c := .regs (2), dst := .result (2), mask := 0x1000020 }
  | 0x09 => some { form := .r, a := .regs (1), b := if fld m 24 1 = 1 then .free else .regs 1, c := .unused, dst := .result (1), mask := 0x1000000 }
  | 0x0A => some { form := .r, a := .regs (1), b := if fld m 24 1 = 1 then .free else .regs 1, c := .unused, dst := .result (1), mask := 0x1000000 }
  | 0x0B => some { form := .r, a := .regs (1), b := if fld m 24 1 = 1 then .free else .regs 1, c := .unused, dst := .result (1), mask := 0x1000000 }
  | 0x0C => some { form := .r, a := .regs (1), b := if fld m 24 1 = 1 then .free else .regs 1, c := .unused, dst := .result (1), mask := 0x1000000 }
  | 0x0D => some { form := .r, a := .regs (1), b := if fld m 24 1 = 1 then .free else .regs 1, c := .unused, dst := .result (1), mask := 0x1000000 }
  | 0x0E => some { form := .r, a := .regs (1), b := if fld m 24 1 = 1 then .free else .regs 1, c := .unused, dst := .result (1), mask := 0x1000000 }
  | 0x0F => some { form := .r, a := .regs (1), b := if fld m 24 1 = 1 then .free else .regs 1, c := .unused, dst := .result (1), mask := 0x1000000 }
  | 0x10 => some { form := .r, a := .regs (1), b := if fld m 24 1 = 1 then .free else .regs 1, c := .unused, dst := .result (1), mask := 0x1000000 }
  | 0x11 => some { form := .r, a := .regs (1), b := .unused, c := .unused, dst := .result (1), mask := 0x0 }
  | 0x12 => some { form := .r, a := .regs (1), b := .unused, c := .unused, dst := .result (1), mask := 0x0 }
  | 0x13 => some { form := .r, a := .regs (1), b := if fld m 24 1 = 1 then .free else .regs 1, c := .regs (1), dst := .result (1), mask := 0x1001FE0 }
  | 0x14 => some { form := .r, a := .regs (1), b := if fld m 24 1 = 1 then .free else .regs 1, c := .unused, dst := .result (1), mask := 0x1000000 }
  | 0x15 => some { form := .r, a := .regs (1), b := if fld m 24 1 = 1 then .free else .regs 1, c := .unused, dst := .result (1), mask := 0x1000000 }
  | 0x16 => some { form := .r, a := .regs (1), b := if fld m 24 1 = 1 then .free else .regs 1, c := .unused, dst := .result (1), mask := 0x1000000 }
  | 0x17 => some { form := .r, a := .regs (1), b := if fld m 24 1 = 1 then .free else .regs 1, c := .unused, dst := .result (1), mask := 0x1000000 }
  | 0x18 => some { form := .r, a := .regs (1), b := if fld m 24 1 = 1 then .free else .regs 1, c := .regs (1), dst := .result (1), mask := 0x1000000 }
  | 0x19 => some { form := .r, a := .regs (1), b := if fld m 24 1 = 1 then .free else .regs 1, c := .unused, dst := .result (1), mask := 0x1000020 }
  | 0x1A => some { form := .r, a := .regs (1), b := if fld m 24 1 = 1 then .free else .regs 1, c := .regs (1), dst := .result (1), mask := 0x1000000 }
  | 0x1B => some { form := .r, a := .regs (1), b := .unused, c := .unused, dst := .result (1), mask := 0x0 }
  | 0x1C => some { form := .r, a := .regs (1), b := .unused, c := .unused, dst := .result (1), mask := 0x0 }
  | 0x1D => some { form := .r, a := .regs (1), b := .unused, c := .unused, dst := .result (1), mask := 0x0 }
  | 0x1E => some { form := .r, a := .regs (1), b := if fld m 24 1 = 1 then .free else .regs 1, c := .unused, dst := .result (1), mask := 0x10001E0 }
  | 0x1F => some { form := .r, a := .regs (1), b := .unused, c := .unused, dst := .result (1), mask := 0x0 }
  | 0x20 => some { form := .i, a := .unused, b := .unused, c := .unused, dst := .result (1), mask := 0x0 }
  | 0x21 => some { form := .m, a := .regs (2), b := .unused, c := .unused, dst := .result (2), mask := 0x0 }
  | 0x30 => some { form := .rx, a := .regs (1), b := if fld m 24 1 = 1 then .free else .regs 1, c := .unused, dst := .predPair, mask := 0x100001F }
  | 0x31 => some { form := .rx, a := .regs (1), b := if fld m 24 1 = 1 then .free else .regs 1, c := .unused, dst := .predPair, mask := 0x100001F }
  | 0x32 => some { form := .rx, a := .regs (2), b := .regs (2), c := .unused, dst := .predPair, mask := 0x3F }
  | 0x33 => some { form := .rx, a := .regs (1), b := .regs (1), c := .unused, dst := .predPair, mask := 0x1F }
  | 0x34 => some { form := .rx, a := .regs (1), b := .regs (1), c := .unused, dst := .predPair, mask := 0x1F }
  | 0x35 => some { form := .rx, a := .regs (1), b := .regs (1), c := .unused, dst := .predPair, mask := 0x1F }
  | 0x36 => some { form := .rx, a := .regs (1), b := .unused, c := .unused, dst := .predPair, mask := 0xFFE3 }
  | 0x37 => some { form := .rx, a := .regs (1), b := if fld m 24 1 = 1 then .free else .regs 1, c := .unused, dst := .predPair, mask := 0x1000007 }
  | 0x38 => some { form := .rx, a := .regs (1), b := if fld m 24 1 = 1 then .free else .regs 1, c := .regs (1), dst := .predPair, mask := 0x1000023 }
  | 0x39 => some { form := .rx, a := .unused, b := .unused, c := .unused, dst := .pred, mask := 0x1FFFF00 }
  | 0x3A => some { form := .rx, a := .unused, b := .unused, c := .unused, dst := .result (1), mask := 0x0 }
  | 0x3B => some { form := .r, a := .regs (1), b := .unused, c := .unused, dst := .none, mask := 0x1FE0 }
  | 0x40 => some { form := .r, a := .regs (1), b := .regs (1), c := .unused, dst := .result (1), mask := 0x7C000 }
  | 0x41 => some { form := .r, a := .regs (1), b := .regs (1), c := .unused, dst := .result (1), mask := 0x7C000 }
  | 0x42 => some { form := .r, a := .regs (1), b := .regs (1), c := .unused, dst := .result (1), mask := 0x7C000 }
  | 0x43 => some { form := .r, a := .regs (1), b := .regs (1), c := .regs (1), dst := .result (1), mask := 0x7E000 }
  | 0x44 => some { form := .r, a := .regs (1), b := .regs (1), c := .unused, dst := .result (1), mask := 0xC000 }
  | 0x45 => some { form := .r, a := .regs (1), b := .regs (1), c := .unused, dst := .result (1), mask := 0xC000 }
  | 0x46 => some { form := .r, a := .regs (1), b := .regs (1), c := .unused, dst := .result (1), mask := 0x7C000 }
  | 0x47 => some { form := .r, a := .regs (1), b := .regs (1), c := .unused, dst := .result (1), mask := 0x7C000 }
  | 0x48 => some { form := .r, a := .regs (1), b := .regs (1), c := .regs (1), dst := .result (1), mask := 0x7E000 }
  | 0x49 => some { form := .r, a := .regs (1), b := .regs (1), c := .unused, dst := .result (1), mask := 0x7C000 }
  | 0x4A => some { form := .r, a := .regs (1), b := .regs (1), c := .unused, dst := .result (1), mask := 0x7C000 }
  | 0x4B => some { form := .r, a := .regs (1), b := .regs (1), c := .regs (1), dst := .result (1), mask := 0x7E000 }
  | 0x4C => some { form := .r, a := .regs (1), b := .unused, c := .unused, dst := .result (1), mask := 0x78000 }
  | 0x4D => some { form := .r, a := .regs (1), b := .unused, c := .unused, dst := .result (1), mask := 0x8000 }
  | 0x4E => some { form := .r, a := .regs (1), b := .unused, c := .unused, dst := .result (1), mask := 0x68000 }
  | 0x4F => some { form := .r, a := .regs (1), b := .unused, c := .unused, dst := .result (1), mask := 0x8000 }
  | 0x50 => some { form := .r, a := .regs (1), b := .unused, c := .unused, dst := .result (1), mask := 0x8000 }
  | 0x51 => some { form := .r, a := .regs (1), b := .unused, c := .unused, dst := .result (1), mask := 0x8000 }
  | 0x52 => some { form := .r, a := .regs (1), b := .unused, c := .unused, dst := .result (1), mask := 0x8000 }
  | 0x53 => some { form := .r, a := .regs (1), b := .unused, c := .unused, dst := .result (1), mask := 0x8000 }
  | 0x54 => some { form := .r, a := .regs (1), b := .regs (1), c := .unused, dst := .result (1), mask := 0x7C000 }
  | 0x55 => some { form := .r, a := .regs (1), b := .unused, c := .unused, dst := .result (1), mask := 0x68000 }
  | 0x56 => some { form := .r, a := .regs (1), b := .regs (1), c := .unused, dst := .result (1), mask := 0x78000 }
  | 0x57 => some { form := .r, a := .regs (dotRegs (fld m 5 2)), b := .regs (dotRegs (fld m 7 2)), c := .regs (1), dst := .result (1), mask := 0x7E1E0 }
  | 0x60 => some { form := .r, a := .regs (fmtRegs (fld m 17 4)), b := .unused, c := if fld m 5 1 = 1 then .base else .unused, dst := .result (fmtRegs (fld m 21 4)), mask := 0x1FFFF20 }
  | 0x61 => some { form := .r, a := .regs (1), b := .regs (1), c := if fld m 5 1 = 1 then .base else .unused, dst := .result (1), mask := 0x1FE7F20 }
  | 0x62 => some { form := .r, a := .regs (fmtRegs (fld m 17 4)), b := .unused, c := if fld m 5 1 = 1 then .base else .unused, dst := .result (fmtRegs (fld m 21 4)), mask := 0x1FE7F20 }
  | 0x63 => some { form := .r, a := .regs (1), b := .regs (1), c := .unused, dst := .result (1), mask := 0x1FFC000 }
  | 0x64 => some { form := .r, a := .regs (1), b := .unused, c := .unused, dst := .result (2), mask := 0x1FE0000 }
  | 0x65 => some { form := .r, a := .regs (1), b := if fld m 21 4 = 4 then .unused else .regs 1, c := .unused, dst := .result (lcRegs (fld m 21 4)), mask := 0x1FFB800 }
  | 0x66 => some { form := .r, a := .regs (1), b := .regs (1), c := if fld m 5 1 = 1 then .base else .unused, dst := .result (1), mask := 0x1FF8720 }
  | 0x67 => some { form := .r, a := .regs (1), b := .regs (1), c := .unused, dst := .result (1), mask := 0x1FFB800 }
  | 0x68 => some { form := .r, a := .regs (1), b := .unused, c := if fld m 5 1 = 1 then .base else .unused, dst := .result (1), mask := 0x1FE0720 }
  | 0x69 => some { form := .r, a := .regs (1), b := .regs (1), c := if fld m 24 1 = 1 then .base else .unused, dst := .result (1), mask := 0x1007FE0 }
  | 0x70 => some { form := .b, a := .unused, b := .unused, c := .unused, dst := .none, mask := 0x0 }
  | 0x71 => some { form := .b, a := .unused, b := .unused, c := .unused, dst := .none, mask := 0x7 }
  | 0x72 => some { form := .b, a := .unused, b := .unused, c := .unused, dst := .none, mask := 0x7 }
  | 0x73 => some { form := .b, a := .unused, b := .unused, c := .unused, dst := .none, mask := 0x7 }
  | 0x74 => some { form := .r, a := .regs (2), b := .unused, c := .unused, dst := .none, mask := 0x0 }
  | 0x75 => some { form := .b, a := .unused, b := .unused, c := .unused, dst := .none, mask := 0x0 }
  | 0x76 => some { form := .r, a := .regs (2), b := .unused, c := .unused, dst := .none, mask := 0x0 }
  | 0x77 => some { form := .r, a := .regs (2), b := .unused, c := .unused, dst := .none, mask := 0x0 }
  | 0x78 => some { form := .b, a := .unused, b := .unused, c := .unused, dst := .none, mask := 0x0 }
  | 0x79 => some { form := .rx, a := .unused, b := .unused, c := .unused, dst := .none, mask := 0x0 }
  | 0x7A => some { form := .b, a := .unused, b := .unused, c := .unused, dst := .none, mask := 0xF }
  | 0x7B => some { form := .b, a := .unused, b := .unused, c := .unused, dst := .result (1), mask := 0x0 }
  | 0x7C => some { form := .rx, a := .unused, b := .unused, c := .unused, dst := .none, mask := 0x0 }
  | 0x7D => some { form := .rx, a := .unused, b := .unused, c := .unused, dst := .none, mask := 0x0 }
  | 0x80 => some { form := .m, a := .regs (2), b := .unused, c := .unused, dst := .result (ldRegs (fld m 0 3)), mask := 0x7 }
  | 0x81 => some { form := .m, a := .regs (2), b := .data (ldRegs (fld m 0 3)), c := .unused, dst := .none, mask := 0x7 }
  | 0x82 => some { form := .m, a := .regs (1), b := .unused, c := .unused, dst := .result (ldRegs (fld m 0 3)), mask := 0x7 }
  | 0x83 => some { form := .m, a := .regs (1), b := .data (ldRegs (fld m 0 3)), c := .unused, dst := .none, mask := 0x7 }
  | 0x84 => some { form := .m, a := .regs (1), b := .unused, c := .unused, dst := .result (1), mask := 0x1F }
  | 0x85 => some { form := .m, a := .regs (1), b := .regs (1), c := .unused, dst := .none, mask := 0x1F }
  | 0x86 => some { form := .m, a := .regs (1), b := .unused, c := .unused, dst := .result (ldRegs (fld m 0 3)), mask := 0x1FC7 }
  | 0x87 => some { form := .m, a := .regs (1), b := .data (ldRegs (fld m 0 3)), c := .unused, dst := .none, mask := 0x1FDF }
  | 0x88 => some { form := .r, a := .regs (1), b := .unused, c := .unused, dst := .none, mask := 0x1FE0 }
  | 0x89 => some { form := .r, a := .unused, b := .unused, c := .unused, dst := .none, mask := 0x1E00 }
  | 0x8A => some { form := .m, a := .regs (2), b := .unused, c := .unused, dst := .result (1), mask := 0x7 }
  | 0x8B => some { form := .m, a := .regs (2), b := .unused, c := .unused, dst := .result (1), mask := 0x0 }
  | 0x8C => some { form := .m, a := .regs (2), b := .unused, c := .unused, dst := .result (1), mask := 0x7 }
  | 0x8D => some { form := .m, a := .regs (2), b := .unused, c := .unused, dst := .result (1), mask := 0x7 }
  | 0x8E => some { form := .i, a := .unused, b := .unused, c := .unused, dst := .result (1), mask := 0x0 }
  | 0x8F => some { form := .i, a := .unused, b := .unused, c := .unused, dst := .none, mask := 0x0 }
  | 0x90 => some { form := .rx, a := .unused, b := .unused, c := .unused, dst := .none, mask := 0x3F }
  | 0x91 => some { form := .m, a := .regs (2), b := .regs (1), c := .unused, dst := .none, mask := 0x0 }
  | 0x92 => some { form := .m, a := .regs (2), b := .regs (1), c := .unused, dst := .none, mask := 0x0 }
  | 0x93 => some { form := .m, a := .regs (2), b := .regs (1), c := .unused, dst := .none, mask := 0x0 }
  | 0x94 => some { form := .m, a := .regs (2), b := .unused, c := .unused, dst := .result (ldRegs (fld m 0 3)), mask := 0x7 }
  | 0x95 => some { form := .m, a := .regs (2), b := .data (ldRegs (fld m 0 3)), c := .unused, dst := .none, mask := 0x1FE7 }
  | 0x96 => some { form := .m, a := .regs (2), b := .unused, c := .unused, dst := .none, mask := 0x3 }
  | 0x97 => some { form := .r, a := .regs (1), b := .unused, c := .unused, dst := .result (2), mask := 0x0 }
  | 0x98 => some { form := .m, a := .regs (2), b := .unused, c := .unused, dst := .result (ldRegs (fld m 0 3)), mask := 0x7 }
  | 0x99 => some { form := .m, a := .regs (2), b := .data (ldRegs (fld m 0 3)), c := .unused, dst := .none, mask := 0x7 }
  | 0xA0 => some { form := .m, a := .regs (2), b := .regs (atRegs (fld m 0 3)), c := .unused, dst := .result (atRegs (fld m 0 3)), mask := 0x7 }
  | 0xA1 => some { form := .m, a := .regs (2), b := .regs (atRegs (fld m 0 3)), c := .unused, dst := .result (atRegs (fld m 0 3)), mask := 0x17 }
  | 0xA2 => some { form := .m, a := .regs (2), b := .regs (atRegs (fld m 0 3)), c := .unused, dst := .result (atRegs (fld m 0 3)), mask := 0x17 }
  | 0xA3 => some { form := .m, a := .regs (2), b := .regs (atRegs (fld m 0 3)), c := .unused, dst := .result (atRegs (fld m 0 3)), mask := 0x187 }
  | 0xA4 => some { form := .m, a := .regs (2), b := .regs (atRegs (fld m 0 3)), c := .unused, dst := .result (atRegs (fld m 0 3)), mask := 0x7 }
  | 0xA5 => some { form := .m, a := .regs (2), b := .regs (2 * atRegs (fld m 0 3)), c := .unused, dst := .result (atRegs (fld m 0 3)), mask := 0x7 }
  | 0xA6 => some { form := .m, a := .regs (2), b := .regs (1), c := .unused, dst := .result (1), mask := 0x67 }
  | 0xA7 => some { form := .m, a := .regs (2), b := .regs (1), c := .unused, dst := .result (1), mask := 0x7 }
  | 0xA8 => some { form := .m, a := .regs (2), b := .regs (1), c := .unused, dst := .result (1), mask := 0x7 }
  | 0xA9 => some { form := .m, a := .regs (2), b := .regs (atRegs (fld m 0 3)), c := .unused, dst := .none, mask := 0x197 }
  | 0xAA => some { form := .m, a := .regs (2), b := .regs (1), c := .unused, dst := .none, mask := 0x67 }
  | 0xAB => some { form := .m, a := .regs (2), b := .regs (atRegs (fld m 0 3)), c := .unused, dst := .none, mask := 0x187 }
  | 0xB0 => some { form := .rx, a := .unused, b := .unused, c := .unused, dst := .predPair, mask := 0x1 }
  | 0xB1 => some { form := .rx, a := .unused, b := .unused, c := .unused, dst := .predPair, mask := 0x1 }
  | 0xB2 => some { form := .rx, a := .unused, b := .unused, c := .unused, dst := .result (1), mask := 0x3F }
  | 0xB3 => some { form := .r, a := .regs (1 + fld m 5 1), b := .unused, c := .unused, dst := .result (1), mask := 0x20 }
  | 0xB4 => some { form := .rx, a := .unused, b := .unused, c := .unused, dst := .none, mask := 0xFC }
  | 0xB5 => some { form := .rx, a := .unused, b := .unused, c := .unused, dst := .none, mask := 0xFD }
  | 0xB6 => some { form := .rx, a := .regs (2), b := .unused, c := .unused, dst := .predPair, mask := 0xFD }
  | 0xB7 => some { form := .rx, a := .regs (1), b := .unused, c := .unused, dst := .none, mask := 0xFD }
  | 0xB8 => some { form := .r, a := .regs (2), b := .regs (1), c := .unused, dst := .late, mask := 0x0 }
  | 0xB9 => some { form := .rx, a := .unused, b := .unused, c := .unused, dst := .none, mask := 0x0 }
  | 0xBA => some { form := .r, a := .regs (1), b := .unused, c := .unused, dst := .late, mask := 0x0 }
  | 0xBB => some { form := .r, a := .regs (1), b := .unused, c := .unused, dst := .late, mask := 0x0 }
  | 0xBC => some { form := .rx, a := if fld m 0 3 = 0 then .unused else .group, b := .unused, c := .unused, dst := .none, mask := 0x7 }
  | 0xBD => some { form := .rx, a := .regs (2), b := .unused, c := .unused, dst := .none, mask := 0x0 }
  | 0xC0 => some { form := .e, a := .regs (1), b := .regs (1), c := if fld m 10 1 = 1 then .regs 2 else .unused, dst := .none, mask := 0x1FFC7E0 }
  | 0xC1 => some { form := .e, a := .regs (1), b := .regs (1), c := if fld m 10 1 = 1 then .regs 2 else .unused, dst := .none, mask := 0x1FFC7E0 }
  | 0xC2 => some { form := .e, a := .regs (1), b := .unused, c := .unused, dst := .result (1), mask := 0x3F0 }
  | 0xC3 => some { form := .e, a := .regs (1), b := .unused, c := .unused, dst := .none, mask := 0x0 }
  | 0xC4 => some { form := .e, a := .regs (2), b := .regs (1 + fld m 9 1), c := if fld m 10 1 = 1 then .regs 2 else .unused, dst := .none, mask := 0x1FFFE00 }
  | 0xC5 => some { form := .e, a := .regs (2), b := .regs (2), c := if fld m 10 1 = 1 then .regs 2 else .unused, dst := .none, mask := 0x1FFFFFC }
  | 0xC6 => some { form := .e, a := .unused, b := .unused, c := if fld m 10 1 = 1 then .regs 2 else .unused, dst := .none, mask := 0x1FFC7F8 }
  | 0xC7 => some { form := .e, a := .regs (1), b := .unused, c := if fld m 10 1 = 1 then .regs 2 else .unused, dst := .none, mask := 0x1FFFFF8 }
  | 0xC8 => some { form := .e, a := .regs (1), b := .unused, c := if fld m 10 1 = 1 then .regs 2 else .unused, dst := .none, mask := 0x1FFFFF8 }
  | 0xC9 => some { form := .e, a := .regs (1), b := .unused, c := if fld m 10 1 = 1 then .regs 2 else .unused, dst := .none, mask := 0x1FFC7F8 }
  | 0xCA => some { form := .e, a := .regs (1), b := .unused, c := if fld m 10 1 = 1 then .regs 2 else .unused, dst := .none, mask := 0x1FFFFFC }
  | 0xCB => some { form := .e, a := .regs (1), b := .regs (1), c := if fld m 10 1 = 1 then .regs 2 else .unused, dst := .none, mask := 0x1FFC7F0 }
  | 0xCC => some { form := .e, a := .regs (1), b := .regs (1), c := if fld m 10 1 = 1 then .regs 2 else .unused, dst := .none, mask := 0x1FFC400 }
  | 0xCD => some { form := .e, a := .regs (1), b := .regs (1), c := if fld m 10 1 = 1 then .regs 2 else .unused, dst := .none, mask := 0x1FFC400 }
  | 0xCE => some { form := .e, a := .regs (1), b := .regs (4), c := if fld m 10 1 = 1 then .regs 2 else .unused, dst := .none, mask := 0x1FFC400 }
  | 0xCF => some { form := .e, a := .regs (1), b := .unused, c := if fld m 10 1 = 1 then .regs 2 else .unused, dst := .none, mask := 0x1FFC400 }
  | 0xD0 => some { form := .e, a := .regs (1), b := .regs (1), c := if fld m 10 1 = 1 then .regs 2 else .unused, dst := .none, mask := 0x1FFC400 }
  | 0xD1 => some { form := .e, a := .unused, b := .unused, c := .unused, dst := .none, mask := 0xF }
  | 0xD2 => some { form := .e, a := .unused, b := .unused, c := .unused, dst := .none, mask := 0xFF }
  | 0xD3 => some { form := .e, a := if fld m 9 1 = 1 then .regs 1 else .unused, b := .unused, c := .unused, dst := .none, mask := 0x3FF }
  | 0xD4 => some { form := .e, a := .unused, b := .unused, c := .unused, dst := .none, mask := 0xF }
  | 0xD5 => some { form := .e, a := .unused, b := .unused, c := .unused, dst := .result (1), mask := 0xF }
  | 0xE0 => some { form := .i, a := .unused, b := .unused, c := .unused, dst := .none, mask := 0x0 }
  | 0xE1 => some { form := .rx, a := .unused, b := .unused, c := .unused, dst := .none, mask := 0x0 }
  | 0xE2 => some { form := .i, a := .unused, b := .unused, c := .unused, dst := .result (1), mask := 0x0 }
  | 0xE3 => some { form := .i, a := .regs (1), b := .unused, c := .unused, dst := .none, mask := 0x0 }
  | 0xE4 => some { form := .rx, a := .unused, b := .unused, c := .unused, dst := .none, mask := 0x0 }
  | 0xE5 => some { form := .rx, a := .unused, b := .unused, c := .unused, dst := .none, mask := 0x0 }
  | 0xE6 => some { form := .i, a := .unused, b := .unused, c := .unused, dst := .none, mask := 0x0 }
  | 0xE7 => some { form := .rx, a := .unused, b := .unused, c := .unused, dst := .result (2), mask := 0x0 }
  | _ => none

/-! ### Checks, in the order of R68 -/

/-- Index of a source field (R49). -/
def srcIdx (f : Nat) : Nat := fld f 4 7

/-- Kind of a source field: 1 for a latch (R49). -/
def srcKind (f : Nat) : Nat := fld f 11 1

/-- Permute pattern of a source field (R49). -/
def srcPerm (f : Nat) : Nat := fld f 0 4

/-- Cause register of R68 in a position of n registers: a reserved index, or a pair that is misaligned or a latch. A group of four
is judged later (R177, R341, R418). -/
def regsBad (n f : Nat) : Bool :=
  if srcKind f = 1 then decide (n = 2) else decide (112 ≤ srcIdx f) || (decide (n = 2) && decide (srcIdx f % 2 ≠ 0))

/-- Cause register of R68 of a source position (R22, R24). An index of 0x70 to 0x7F counts in an unused position too, and a latch as
a merge base (R167) is judged here (log entry 26). -/
def srcRegisterBad (u : SrcUse) (f : Nat) : Bool :=
  match u with
  | .free => false
  | .unused | .group => decide (srcKind f = 0) && decide (112 ≤ srcIdx f)
  | .regs n | .data n => regsBad n f
  | .base => decide (srcKind f = 1) || regsBad 1 f

/-- Cause register of the tables after R68 of a source position: a group of four that is misaligned or a latch (R177, R341, R418),
a k-register as the data of several registers (R146, R341), or a latch in the group of RGN (R230). -/
def srcGroupBad (u : SrcUse) (f : Nat) : Bool :=
  match u with
  | .unused | .free => false
  | .regs n => decide (n = 4) && (decide (srcKind f = 1) || decide (srcIdx f % 4 ≠ 0))
  | .data n =>
    (decide (n = 4) && (decide (srcKind f = 1) || decide (srcIdx f % 4 ≠ 0))) ||
      (decide (n ≠ 1) && decide (srcKind f = 0) && decide (80 ≤ srcIdx f))
  | .base => false
  | .group => decide (srcKind f = 1)

/-- Cause source of a source position (R49, R53). -/
def srcSourceBad (u : SrcUse) (f : Nat) : Bool :=
  match u with
  | .unused => decide (f ≠ 0)
  | .free => false
  | .regs _ | .data _ | .base | .group => decide (srcKind f = 1) && decide (4 ≤ srcIdx f)

/-- Cause permute of a source position (R51, R227). That RGN's pattern other than 0 has this cause is the model's choice (log entry
26), and so is that WAITT takes no pattern 14 (R228), by its form RX. -/
def srcPermuteBad (form : Form) (u : SrcUse) (f : Nat) : Bool :=
  match u with
  | .unused | .free => false
  | .group => decide (srcPerm f ≠ 0)
  | .regs _ | .data _ | .base =>
    decide (srcPerm f = 15) || (decide (srcPerm f ≠ 0) && decide (srcKind f = 0) && decide (48 ≤ srcIdx f))
      || (decide (srcPerm f = 14) && decide (form ≠ .r))

/-- Whether a source position uses pattern 14 (R52). -/
def srcRepl (u : SrcUse) (f : Nat) : Bool :=
  match u with
  | .unused | .free | .group => false
  | .regs _ | .data _ | .base => decide (srcPerm f = 14)

/-- The three source positions of a form with their uses; a form without a position has it free. -/
def Raw.srcFields (r : Raw) (sh : Shape) : List (SrcUse × Nat) :=
  match sh.form with
  | .r | .rx | .e => [(sh.a, r.fa), (sh.b, r.fb), (sh.c, r.fc)]
  | .m => [(sh.a, r.fa), (sh.b, r.fb)]
  | .i | .b => [(sh.a, r.fa)]

/-- Cause register of R68 of dst (R22, R24): a k-register, a reserved index, or an odd index where a pair is taken. -/
def dstRegisterBad (u : DstUse) (d : Nat) : Bool :=
  match u with
  | .result n => decide (80 ≤ d) || (decide (n = 2) && decide (d % 2 ≠ 0))
  | .late => decide (80 ≤ d)
  | .none => decide (112 ≤ d)
  | .predPair | .pred => false

/-- Cause register of the tables after R68 of dst: a misaligned group of four (R177, R341). -/
def dstGroupBad (u : DstUse) (d : Nat) : Bool :=
  match u with
  | .result n => decide (n = 4) && decide (d % 4 ≠ 0)
  | .late | .none | .predPair | .pred => false

/-- Cause destination (R60, R99, R139). -/
def dstBad (u : DstUse) (d : Nat) : Bool :=
  match u with
  | .none => decide (d ≠ 0)
  | .predPair => decide (4 ≤ d)
  | .pred => decide (8 ≤ d)
  | .result _ | .late => false

/-- Whether an instruction has a register result with a latch (R58, R60). -/
def DstUse.hasLatch : DstUse → Bool
  | .result _ => true
  | _ => false

/-- Modifier bits outside the mask, with the replication lane of R52. -/
def modBad (r : Raw) (sh : Shape) : Bool :=
  let lanes := (r.srcFields sh).any fun x => srcRepl x.1 x.2
  let mask := if sh.form = .r ∧ lanes then sh.mask ||| 31 else sh.mask
  decide (r.modOf sh.form &&& mask ≠ r.modOf sh.form)

/-- The causes of R68 that an encoding meets, the first in the order of that table. -/
def causeOf (r : Raw) (sh : Shape) : Option Cause :=
  let fs := r.srcFields sh
  if dstRegisterBad sh.dst r.dst || fs.any (fun x => srcRegisterBad x.1 x.2) then some .register
  else if fs.any (fun x => srcSourceBad x.1 x.2) then some .source
  else if fs.any (fun x => srcPermuteBad sh.form x.1 x.2) then some .permute
  else if decide (sh.form = .b) && decide (5 ≤ r.slot) then some .slot
  else if dstBad sh.dst r.dst then some .destination
  else if !sh.dst.hasLatch && (decide (r.wbs ≠ 0) || decide (r.rl ≠ 0)) then some .latch
  else if modBad r sh then some .modifier
  else none

/-- Cause register of the tables after R68 (R177, R230, R341, R418). -/
def groupBad (r : Raw) (sh : Shape) : Bool :=
  dstGroupBad sh.dst r.dst || (r.srcFields sh).any fun x => srcGroupBad x.1 x.2

/-- Whether all that an encoding lacks is a register position that takes its store's data (R146, R341): STRC's count of 0 comes first. -/
def dataBad (r : Raw) (sh : Shape) : Bool :=
  [0x81, 0x83, 0x87, 0x95, 0x99].contains r.op && groupBad r sh && !(decide (r.op = 0x95) && decide (fld r.low 5 8 = 0))

/-! ### Typed operands -/

/-- A number as an element of Fin n, none outside it. -/
def finOf (n x : Nat) : Option (Fin n) := if h : x < n then some ⟨x, h⟩ else none

/-- A permute pattern (R50); lane is mod[4:0]. -/
def permOf (lane v : Nat) : Option Perm :=
  if v = 0 then some .same
  else if v < 6 then some (.bfly (Fin.ofNat 5 (v - 1)))
  else if v < 13 then some (.rot (Fin.ofNat 7 (v - 6)))
  else if v = 13 then some .rev
  else if v = 14 then some (.repl (Fin.ofNat 32 lane))
  else none

/-- A source field (R49). -/
def srcOf (lane f : Nat) : Option Src := do
  let p ← permOf lane (srcPerm f)
  if srcKind f = 1 then
    let n ← finOf 4 (srcIdx f)
    some (.latch n p)
  else
    let r ← regOf (srcIdx f)
    some (.reg r p)

/-- The srcB position under IB (R125). -/
def srcBOf (ib lane f : Nat) : Option SrcB :=
  if ib = 1 then some (.imm (BitVec.ofNat 12 f)) else (srcOf lane f).map .src

/-- A source read only when a control bit is 1. -/
def optSrcOf (bit lane f : Nat) : Option (Option Src) :=
  if bit = 1 then (srcOf lane f).map some else some none

/-- The register group of RGN (R227). -/
def groupOf (n f : Nat) : Option (Option Reg) :=
  if n = 0 then some none
  else if srcKind f = 1 then none
  else do
    let r ← regOf (srcIdx f)
    if groupOk (some r) n then some (some r) else none

/-- The destination of a register result (R45, R58). -/
def destOf (r : Raw) : Option Dest := do
  let d ← regOf r.dst
  let l ← finOf 4 r.rl
  some { reg := d, wbs := decide (r.wbs = 1), rl := l }

/-- The B-form target (R46, R48). -/
def targetOf (r : Raw) : Option Target := do
  let n ← finOf 5 r.slot
  some { off := BitVec.ofNat 32 r.imm, slot := n }

/-- The guard (R54). -/
def guardOf (r : Raw) : Guard :=
  { tt := BitVec.ofNat 8 r.tt, pa := Fin.ofNat 8 r.pa, pb := Fin.ofNat 8 r.pb, pc := Fin.ofNat 8 r.pc }

/-- A one-bit field. -/
def boolOf (n : Nat) : Option Bool := some (decide (n = 1))

/-- REL (R134); 6 and 7 are reserved. -/
def relOf (n : Nat) : Option Rel :=
  match n with
  | 0 => some .eq | 1 => some .ne | 2 => some .lt | 3 => some .le | 4 => some .gt | 5 => some .ge
  | _ => none

/-- MODE (R135). -/
def modeOf (n : Nat) : Option CmpMode :=
  match n with
  | 0 => some .plain | 1 => some .and | 2 => some .or | 3 => some .xor
  | _ => none

/-- FMT of FCLASS (R138). -/
def classFmtOf (n : Nat) : Option ClassFmt :=
  match n with
  | 0 => some .f32 | 1 => some .f16 | 2 => some .bf16
  | _ => none

/-- RM (R80). -/
def rmodeOf (n : Nat) : Option RMode :=
  match n with
  | 0 => some .rne | 1 => some .rz | 2 => some .ru | 3 => some .rd
  | _ => none

/-- FA and FB of FDOT8 (R165). -/
def dotFmtOf (n : Nat) : Option DotFmt :=
  match n with
  | 0 => some .e4m3 | 1 => some .e5m2 | 2 => some .e2m1
  | _ => none

/-- SZ of a load (R146). -/
def ldSizeOf (n : Nat) : Option LdSize :=
  match n with
  | 0 => some .n8 | 1 => some .s8 | 2 => some .n16 | 3 => some .s16 | 4 => some .w32 | 5 => some .d64 | 6 => some .q128
  | _ => none

/-- SZ of a store (R146). -/
def stSizeOf (n : Nat) : Option StSize :=
  match n with
  | 0 => some .b8 | 2 => some .b16 | 4 => some .b32 | 5 => some .b64 | 6 => some .b128
  | _ => none

/-- FEM of STSFE and STW (R323). -/
def fillModeOf (n : Nat) : Option FillMode :=
  match n with
  | 0 => some .wait | 1 => some .trap | 2 => some .ovw
  | _ => none

/-- FMT of a subscription (R327). -/
def subFmtOf (n : Nat) : Option SubFmt :=
  match n with
  | 0 => some .f32 | 1 => some .f16 | 2 => some .bf16 | 3 => some .e4m3 | 4 => some .e5m2 | 5 => some .native
  | _ => none

/-- DOM and SCOPE (R270, R331). -/
def domOf (n : Nat) : Option Dom :=
  match n with
  | 0 => some .team | 1 => some .clus | 2 => some .die | 3 => some .pkg | 4 => some .fab
  | _ => none

/-- LVL of PRFT (R334). -/
def pfLevelOf (n : Nat) : Option PfLevel :=
  match n with
  | 0 => some .l1 | 1 => some .l2 | 2 => some .ms
  | _ => none

/-- SZ of an atomic (R337). -/
def atSizeOf (n : Nat) : Option AtSize :=
  match n with
  | 4 => some .w4 | 5 => some .w8
  | _ => none

/-- OPV of ALOG and REDLOG (R337). -/
def logOpOf (n : Nat) : Option LogOp :=
  match n with
  | 0 => some .and | 1 => some .or | 2 => some .xor
  | _ => none

/-- OPV of REDI (R337). -/
def redOpOf (n : Nat) : Option RedOp :=
  match n with
  | 0 => some .add | 1 => some .min | 2 => some .max
  | _ => none

/-- FT of AFADD and REDF (R337). -/
def atFmtOf (n : Nat) : Option AtFmt :=
  match n with
  | 0 => some .f32 | 1 => some .h2 | 2 => some .bf2
  | _ => none

/-- KIND of POLL (R217). -/
def pollKindOf (n : Nat) : Option PollKind :=
  match n with
  | 0 => some .mask | 1 => some .some | 2 => some .every | 3 => some .count
  | _ => none

/-- CLS (R343). -/
def engClassOf (n : Nat) : Option EngClass :=
  match n with
  | 0 => some .cpe | 1 => some .pme | 2 => some .sel | 3 => some .bke | 4 => some .wlk | 5 => some .cle
  | _ => none

/-- KIND of TSEAL (R361). -/
def recKindOf (n : Nat) : Option RecKind :=
  match n with
  | 0 => some .tensor | 1 => some .scale | 2 => some .walk | 3 => some .bank | 4 => some .coll
  | _ => none

/-- A 3-bit number under an enable bit above it (WOPEN's SWE and SWR, R325). -/
def optOf8 (n : Nat) : Option (Option (Fin 8)) :=
  if 8 ≤ n then some (some (Fin.ofNat 8 n)) else if n = 0 then some none else none

/-- A 4-bit number under an enable bit above it (CPY's BE and BAR, R392). -/
def optOf16 (n : Nat) : Option (Option (Fin 16)) :=
  if 16 ≤ n then some (some (Fin.ofNat 16 n)) else if n = 0 then some none else none

/-- LEV and NUM (R219). -/
def barOf (lev num : Nat) : Option BarRef := do
  let l ← (match lev with
    | 0 => some BarLevel.cohort | 1 => some .team | 2 => some .cluster
    | _ => none)
  some { lev := l, num := Fin.ofNat 16 num }

/-- The common fields of an engine instruction (R47, R348). -/
def ecomOf (m f : Nat) : Option ECom := do
  let tk ← (if fld m 24 1 = 1 then some (some (Fin.ofNat 32 (fld m 19 5)))
    else if fld m 19 5 = 0 then some none else none)
  let gq ← (if fld m 18 1 = 1 then some (some (Fin.ofNat 16 (fld m 14 4)))
    else if fld m 14 4 = 0 then some none else none)
  let nbt ← optSrcOf (fld m 10 1) 0 f
  some { tk := tk, gq := gq, nbt := nbt }

/-- The system register of an immediate (R150); the reserved numbers name none. -/
def sysRegOf (n : Nat) : Option SysReg :=
  match n with
  | 0 => some .flg | 1 => some .win | 2 => some .spal | 3 => some .spah | 4 => some .epcl | 5 => some .epch
  | 9 => some .lctl
  | n => if 16 ≤ n ∧ n < 32 then some (.trw (Fin.ofNat 16 (n - 16)))
    else if 256 ≤ n ∧ n < 264 then some (.cerq (Fin.ofNat 8 (n - 256))) else none

/-- The typed operands of the opcodes 0x00 to 0x2F, none where a modifier value is reserved. -/
def buildInt (op : Nat) (r : Raw) (gd : Guard) (lane m : Nat) : Option Instr :=
  match op with
  | 0x00 => do
    let d ← destOf r
    let a ← srcOf lane r.fa
    let b ← srcBOf (fld m 24 1) lane r.fb
    let co ← boolOf (fld m 5 1)
    some (.add gd d a b co)
  | 0x01 => do
    let d ← destOf r
    let a ← srcOf lane r.fa
    let b ← srcBOf (fld m 24 1) lane r.fb
    let co ← boolOf (fld m 5 1)
    some (.sub gd d a b co)
  | 0x02 => do
    let d ← destOf r
    let a ← srcOf lane r.fa
    let b ← srcBOf (fld m 24 1) lane r.fb
    let c ← srcOf lane r.fc
    let co ← boolOf (fld m 5 1)
    some (.addc gd d a b c co)
  | 0x03 => do
    let d ← destOf r
    let a ← srcOf lane r.fa
    let b ← srcBOf (fld m 24 1) lane r.fb
    let c ← srcOf lane r.fc
    let co ← boolOf (fld m 5 1)
    some (.subb gd d a b c co)
  | 0x04 => do
    let d ← destOf r
    let a ← srcOf lane r.fa
    let b ← srcBOf (fld m 24 1) lane r.fb
    some (.mul gd d a b)
  | 0x05 => do
    let d ← destOf r
    let a ← srcOf lane r.fa
    let b ← srcBOf (fld m 24 1) lane r.fb
    some (.mulhS gd d a b)
  | 0x06 => do
    let d ← destOf r
    let a ← srcOf lane r.fa
    let b ← srcBOf (fld m 24 1) lane r.fb
    some (.mulhN gd d a b)
  | 0x07 => do
    let d ← destOf r
    let a ← srcOf lane r.fa
    let b ← srcBOf (fld m 24 1) lane r.fb
    let c ← srcOf lane r.fc
    some (.mad gd d a b c)
  | 0x08 => do
    let d ← destOf r
    let a ← srcOf lane r.fa
    let b ← srcBOf (fld m 24 1) lane r.fb
    let c ← srcOf lane r.fc
    let sg ← boolOf (fld m 5 1)
    some (.madw gd d a b c sg)
  | 0x09 => do
    let d ← destOf r
    let a ← srcOf lane r.fa
    let b ← srcBOf (fld m 24 1) lane r.fb
    some (.divS gd d a b)
  | 0x0A => do
    let d ← destOf r
    let a ← srcOf lane r.fa
    let b ← srcBOf (fld m 24 1) lane r.fb
    some (.divN gd d a b)
  | 0x0B => do
    let d ← destOf r
    let a ← srcOf lane r.fa
    let b ← srcBOf (fld m 24 1) lane r.fb
    some (.remS gd d a b)
  | 0x0C => do
    let d ← destOf r
    let a ← srcOf lane r.fa
    let b ← srcBOf (fld m 24 1) lane r.fb
    some (.remN gd d a b)
  | 0x0D => do
    let d ← destOf r
    let a ← srcOf lane r.fa
    let b ← srcBOf (fld m 24 1) lane r.fb
    some (.minS gd d a b)
  | 0x0E => do
    let d ← destOf r
    let a ← srcOf lane r.fa
    let b ← srcBOf (fld m 24 1) lane r.fb
    some (.minN gd d a b)
  | 0x0F => do
    let d ← destOf r
    let a ← srcOf lane r.fa
    let b ← srcBOf (fld m 24 1) lane r.fb
    some (.maxS gd d a b)
  | 0x10 => do
    let d ← destOf r
    let a ← srcOf lane r.fa
    let b ← srcBOf (fld m 24 1) lane r.fb
    some (.maxN gd d a b)
  | 0x11 => do
    let d ← destOf r
    let a ← srcOf lane r.fa
    some (.abs gd d a)
  | 0x12 => do
    let d ← destOf r
    let a ← srcOf lane r.fa
    some (.neg gd d a)
  | 0x13 => do
    let d ← destOf r
    let a ← srcOf lane r.fa
    let b ← srcBOf (fld m 24 1) lane r.fb
    let c ← srcOf lane r.fc
    let lut ← some (BitVec.ofNat 8 (fld m 5 8))
    some (.logt gd d a b c lut)
  | 0x14 => do
    let d ← destOf r
    let a ← srcOf lane r.fa
    let b ← srcBOf (fld m 24 1) lane r.fb
    some (.shl gd d a b)
  | 0x15 => do
    let d ← destOf r
    let a ← srcOf lane r.fa
    let b ← srcBOf (fld m 24 1) lane r.fb
    some (.shrN gd d a b)
  | 0x16 => do
    let d ← destOf r
    let a ← srcOf lane r.fa
    let b ← srcBOf (fld m 24 1) lane r.fb
    some (.shrS gd d a b)
  | 0x17 => do
    let d ← destOf r
    let a ← srcOf lane r.fa
    let b ← srcBOf (fld m 24 1) lane r.fb
    some (.rot gd d a b)
  | 0x18 => do
    let d ← destOf r
    let a ← srcOf lane r.fa
    let b ← srcBOf (fld m 24 1) lane r.fb
    let c ← srcOf lane r.fc
    some (.fshl gd d a b c)
  | 0x19 => do
    let d ← destOf r
    let a ← srcOf lane r.fa
    let b ← srcBOf (fld m 24 1) lane r.fb
    let sx ← boolOf (fld m 5 1)
    some (.bfx gd d a b sx)
  | 0x1A => do
    let d ← destOf r
    let a ← srcOf lane r.fa
    let b ← srcBOf (fld m 24 1) lane r.fb
    let c ← srcOf lane r.fc
    some (.bfi gd d a b c)
  | 0x1B => do
    let d ← destOf r
    let a ← srcOf lane r.fa
    some (.popc gd d a)
  | 0x1C => do
    let d ← destOf r
    let a ← srcOf lane r.fa
    some (.clz gd d a)
  | 0x1D => do
    let d ← destOf r
    let a ← srcOf lane r.fa
    some (.brev gd d a)
  | 0x1E => do
    let d ← destOf r
    let a ← srcOf lane r.fa
    let b ← srcBOf (fld m 24 1) lane r.fb
    let k ← finOf 8 (fld m 5 3)
    let inv ← boolOf (fld m 8 1)
    some (.psel gd d a b k inv)
  | 0x1F => do
    let d ← destOf r
    let a ← srcOf lane r.fa
    some (.mov gd d a)
  | 0x20 => do
    let d ← destOf r
    let imm ← some (BitVec.ofNat 32 r.imm)
    some (.movi gd d imm)
  | 0x21 => do
    let d ← destOf r
    let a ← srcOf lane r.fa
    let off ← some (BitVec.ofNat 24 r.off)
    some (.lea gd d a off)
  | _ => none

/-- The typed operands of the opcodes 0x30 to 0x3F, none where a modifier value is reserved. -/
def buildPred (op : Nat) (r : Raw) (gd : Guard) (lane m : Nat) : Option Instr :=
  match op with
  | 0x30 => do
    let pp ← finOf 4 r.dst
    let a ← srcOf lane r.fa
    let b ← srcBOf (fld m 24 1) lane r.fb
    let rel ← relOf (fld m 2 3)
    let mode ← modeOf (fld m 0 2)
    some (.icmpS gd pp a b rel mode)
  | 0x31 => do
    let pp ← finOf 4 r.dst
    let a ← srcOf lane r.fa
    let b ← srcBOf (fld m 24 1) lane r.fb
    let rel ← relOf (fld m 2 3)
    let mode ← modeOf (fld m 0 2)
    some (.icmpN gd pp a b rel mode)
  | 0x32 => do
    let pp ← finOf 4 r.dst
    let a ← srcOf lane r.fa
    let b ← srcOf lane r.fb
    let sg ← boolOf (fld m 5 1)
    let rel ← relOf (fld m 2 3)
    let mode ← modeOf (fld m 0 2)
    some (.icmpW gd pp a b sg rel mode)
  | 0x33 => do
    let pp ← finOf 4 r.dst
    let a ← srcOf lane r.fa
    let b ← srcOf lane r.fb
    let rel ← relOf (fld m 2 3)
    let mode ← modeOf (fld m 0 2)
    some (.fcmp gd pp a b rel mode)
  | 0x34 => do
    let pp ← finOf 4 r.dst
    let a ← srcOf lane r.fa
    let b ← srcOf lane r.fb
    let rel ← relOf (fld m 2 3)
    let mode ← modeOf (fld m 0 2)
    some (.fcmpH2 gd pp a b rel mode)
  | 0x35 => do
    let pp ← finOf 4 r.dst
    let a ← srcOf lane r.fa
    let b ← srcOf lane r.fb
    let rel ← relOf (fld m 2 3)
    let mode ← modeOf (fld m 0 2)
    some (.fcmpBf2 gd pp a b rel mode)
  | 0x36 => do
    let pp ← finOf 4 r.dst
    let a ← srcOf lane r.fa
    let fmt ← classFmtOf (fld m 14 2)
    let cmask ← some (BitVec.ofNat 9 (fld m 5 9))
    let mode ← modeOf (fld m 0 2)
    some (.fclass gd pp a fmt cmask mode)
  | 0x37 => do
    let pp ← finOf 4 r.dst
    let a ← srcOf lane r.fa
    let b ← srcBOf (fld m 24 1) lane r.fb
    let allBits ← boolOf (fld m 2 1)
    let mode ← modeOf (fld m 0 2)
    some (.btest gd pp a b allBits mode)
  | 0x38 => do
    let pp ← finOf 4 r.dst
    let a ← srcOf lane r.fa
    let b ← srcBOf (fld m 24 1) lane r.fb
    let c ← srcOf lane r.fc
    let sg ← boolOf (fld m 5 1)
    let mode ← modeOf (fld m 0 2)
    some (.rchk gd pp a b c sg mode)
  | 0x39 => do
    let pd ← finOf 8 r.dst
    let lut ← some (BitVec.ofNat 8 (fld m 17 8))
    let x ← finOf 8 (fld m 14 3)
    let y ← finOf 8 (fld m 11 3)
    let z ← finOf 8 (fld m 8 3)
    some (.pmix gd pd lut x y z)
  | 0x3A => do
    let d ← destOf r
    some (.ppack gd d)
  | 0x3B => do
    let a ← srcOf lane r.fa
    let mask ← some (BitVec.ofNat 8 (fld m 5 8))
    some (.psprd gd a mask)
  | _ => none

/-- The typed operands of the opcodes 0x40 to 0x5F, none where a modifier value is reserved. -/
def buildFloat (op : Nat) (r : Raw) (gd : Guard) (lane m : Nat) : Option Instr :=
  match op with
  | 0x40 => do
    let d ← destOf r
    let a ← srcOf lane r.fa
    let b ← srcOf lane r.fb
    let rm ← rmodeOf (fld m 17 2)
    let sat ← boolOf (fld m 16 1)
    let na ← boolOf (fld m 15 1)
    let nb ← boolOf (fld m 14 1)
    some (.fadd gd d a b rm sat na nb)
  | 0x41 => do
    let d ← destOf r
    let a ← srcOf lane r.fa
    let b ← srcOf lane r.fb
    let rm ← rmodeOf (fld m 17 2)
    let sat ← boolOf (fld m 16 1)
    let na ← boolOf (fld m 15 1)
    let nb ← boolOf (fld m 14 1)
    some (.fsub gd d a b rm sat na nb)
  | 0x42 => do
    let d ← destOf r
    let a ← srcOf lane r.fa
    let b ← srcOf lane r.fb
    let rm ← rmodeOf (fld m 17 2)
    let sat ← boolOf (fld m 16 1)
    let na ← boolOf (fld m 15 1)
    let nb ← boolOf (fld m 14 1)
    some (.fmul gd d a b rm sat na nb)
  | 0x43 => do
    let d ← destOf r
    let a ← srcOf lane r.fa
    let b ← srcOf lane r.fb
    let c ← srcOf lane r.fc
    let rm ← rmodeOf (fld m 17 2)
    let sat ← boolOf (fld m 16 1)
    let na ← boolOf (fld m 15 1)
    let nb ← boolOf (fld m 14 1)
    let nc ← boolOf (fld m 13 1)
    some (.ffma gd d a b c rm sat na nb nc)
  | 0x44 => do
    let d ← destOf r
    let a ← srcOf lane r.fa
    let b ← srcOf lane r.fb
    let na ← boolOf (fld m 15 1)
    let nb ← boolOf (fld m 14 1)
    some (.fmin gd d a b na nb)
  | 0x45 => do
    let d ← destOf r
    let a ← srcOf lane r.fa
    let b ← srcOf lane r.fb
    let na ← boolOf (fld m 15 1)
    let nb ← boolOf (fld m 14 1)
    some (.fmax gd d a b na nb)
  | 0x46 => do
    let d ← destOf r
    let a ← srcOf lane r.fa
    let b ← srcOf lane r.fb
    let rm ← rmodeOf (fld m 17 2)
    let sat ← boolOf (fld m 16 1)
    let na ← boolOf (fld m 15 1)
    let nb ← boolOf (fld m 14 1)
    some (.pkadh gd d a b rm sat na nb)
  | 0x47 => do
    let d ← destOf r
    let a ← srcOf lane r.fa
    let b ← srcOf lane r.fb
    let rm ← rmodeOf (fld m 17 2)
    let sat ← boolOf (fld m 16 1)
    let na ← boolOf (fld m 15 1)
    let nb ← boolOf (fld m 14 1)
    some (.pkmlh gd d a b rm sat na nb)
  | 0x48 => do
    let d ← destOf r
    let a ← srcOf lane r.fa
    let b ← srcOf lane r.fb
    let c ← srcOf lane r.fc
    let rm ← rmodeOf (fld m 17 2)
    let sat ← boolOf (fld m 16 1)
    let na ← boolOf (fld m 15 1)
    let nb ← boolOf (fld m 14 1)
    let nc ← boolOf (fld m 13 1)
    some (.pkfmh gd d a b c rm sat na nb nc)
  | 0x49 => do
    let d ← destOf r
    let a ← srcOf lane r.fa
    let b ← srcOf lane r.fb
    let rm ← rmodeOf (fld m 17 2)
    let sat ← boolOf (fld m 16 1)
    let na ← boolOf (fld m 15 1)
    let nb ← boolOf (fld m 14 1)
    some (.pkadb gd d a b rm sat na nb)
  | 0x4A => do
    let d ← destOf r
    let a ← srcOf lane r.fa
    let b ← srcOf lane r.fb
    let rm ← rmodeOf (fld m 17 2)
    let sat ← boolOf (fld m 16 1)
    let na ← boolOf (fld m 15 1)
    let nb ← boolOf (fld m 14 1)
    some (.pkmlb gd d a b rm sat na nb)
  | 0x4B => do
    let d ← destOf r
    let a ← srcOf lane r.fa
    let b ← srcOf lane r.fb
    let c ← srcOf lane r.fc
    let rm ← rmodeOf (fld m 17 2)
    let sat ← boolOf (fld m 16 1)
    let na ← boolOf (fld m 15 1)
    let nb ← boolOf (fld m 14 1)
    let nc ← boolOf (fld m 13 1)
    some (.pkfmb gd d a b c rm sat na nb nc)
  | 0x4C => do
    let d ← destOf r
    let a ← srcOf lane r.fa
    let rm ← rmodeOf (fld m 17 2)
    let sat ← boolOf (fld m 16 1)
    let na ← boolOf (fld m 15 1)
    some (.frcp gd d a rm sat na)
  | 0x4D => do
    let d ← destOf r
    let a ← srcOf lane r.fa
    let na ← boolOf (fld m 15 1)
    some (.frsq gd d a na)
  | 0x4E => do
    let d ← destOf r
    let a ← srcOf lane r.fa
    let rm ← rmodeOf (fld m 17 2)
    let na ← boolOf (fld m 15 1)
    some (.fsqrt gd d a rm na)
  | 0x4F => do
    let d ← destOf r
    let a ← srcOf lane r.fa
    let na ← boolOf (fld m 15 1)
    some (.fexp2 gd d a na)
  | 0x50 => do
    let d ← destOf r
    let a ← srcOf lane r.fa
    let na ← boolOf (fld m 15 1)
    some (.flog2 gd d a na)
  | 0x51 => do
    let d ← destOf r
    let a ← srcOf lane r.fa
    let na ← boolOf (fld m 15 1)
    some (.fsin gd d a na)
  | 0x52 => do
    let d ← destOf r
    let a ← srcOf lane r.fa
    let na ← boolOf (fld m 15 1)
    some (.fcos gd d a na)
  | 0x53 => do
    let d ← destOf r
    let a ← srcOf lane r.fa
    let na ← boolOf (fld m 15 1)
    some (.ftanh gd d a na)
  | 0x54 => do
    let d ← destOf r
    let a ← srcOf lane r.fa
    let b ← srcOf lane r.fb
    let rm ← rmodeOf (fld m 17 2)
    let sat ← boolOf (fld m 16 1)
    let na ← boolOf (fld m 15 1)
    let nb ← boolOf (fld m 14 1)
    some (.fdiv gd d a b rm sat na nb)
  | 0x55 => do
    let d ← destOf r
    let a ← srcOf lane r.fa
    let rm ← rmodeOf (fld m 17 2)
    let na ← boolOf (fld m 15 1)
    some (.frnd gd d a rm na)
  | 0x56 => do
    let d ← destOf r
    let a ← srcOf lane r.fa
    let b ← srcOf lane r.fb
    let rm ← rmodeOf (fld m 17 2)
    let sat ← boolOf (fld m 16 1)
    let na ← boolOf (fld m 15 1)
    some (.fscale gd d a b rm sat na)
  | 0x57 => do
    let d ← destOf r
    let a ← srcOf lane r.fa
    let b ← srcOf lane r.fb
    let c ← srcOf lane r.fc
    let rm ← rmodeOf (fld m 17 2)
    let sat ← boolOf (fld m 16 1)
    let na ← boolOf (fld m 15 1)
    let nb ← boolOf (fld m 14 1)
    let nc ← boolOf (fld m 13 1)
    let fb ← dotFmtOf (fld m 7 2)
    let fa ← dotFmtOf (fld m 5 2)
    some (.fdot8 gd d a b c rm sat na nb nc fb fa)
  | _ => none

/-- The typed operands of the opcodes 0x60 to 0x6F, none where a modifier value is reserved. -/
def buildConv (op : Nat) (r : Raw) (gd : Guard) (lane m : Nat) : Option Instr :=
  match op with
  | 0x60 => do
    let d ← destOf r
    let a ← srcOf lane r.fa
    let c ← optSrcOf (fld m 5 1) lane r.fc
    let tgt ← fmtOf (fld m 21 4)
    let frm ← fmtOf (fld m 17 4)
    let rm ← rmodeOf (fld m 15 2)
    let sat ← boolOf (fld m 14 1)
    let ks ← finOf 8 (fld m 11 3)
    let kd ← finOf 8 (fld m 8 3)
    some (.cvt gd d a c tgt frm rm sat ks kd)
  | 0x61 => do
    let d ← destOf r
    let a ← srcOf lane r.fa
    let b ← srcOf lane r.fb
    let c ← optSrcOf (fld m 5 1) lane r.fc
    let tgt ← fmtOf (fld m 21 4)
    let frm ← fmtOf (fld m 17 4)
    let sat ← boolOf (fld m 14 1)
    let ks ← finOf 8 (fld m 11 3)
    let kd ← finOf 8 (fld m 8 3)
    some (.cvtsr gd d a b c tgt frm sat ks kd)
  | 0x62 => do
    let d ← destOf r
    let a ← srcOf lane r.fa
    let c ← optSrcOf (fld m 5 1) lane r.fc
    let tgt ← fmtOf (fld m 21 4)
    let frm ← fmtOf (fld m 17 4)
    let sat ← boolOf (fld m 14 1)
    let ks ← finOf 8 (fld m 11 3)
    let kd ← finOf 8 (fld m 8 3)
    some (.cvti gd d a c tgt frm sat ks kd)
  | 0x63 => do
    let d ← destOf r
    let a ← srcOf lane r.fa
    let b ← srcOf lane r.fb
    let tgt ← fmtOf (fld m 21 4)
    let frm ← fmtOf (fld m 17 4)
    let rm ← rmodeOf (fld m 15 2)
    let sat ← boolOf (fld m 14 1)
    some (.pack2 gd d a b tgt frm rm sat)
  | 0x64 => do
    let d ← destOf r
    let a ← srcOf lane r.fa
    let tgt ← fmtOf (fld m 21 4)
    let frm ← fmtOf (fld m 17 4)
    some (.unpk2 gd d a tgt frm)
  | 0x65 => do
    let _ ← if fld m 17 4 = 15 then some () else none
    let d ← destOf r
    let a ← srcOf lane r.fa
    let b ← optSrcOf (if fld m 21 4 = 4 then 0 else 1) lane r.fb
    let tgt ← fmtOf (fld m 21 4)
    let rm ← rmodeOf (fld m 15 2)
    let ks ← finOf 8 (fld m 11 3)
    some (.lcdec gd d a b tgt rm ks)
  | 0x66 => do
    let _ ← if fld m 17 4 = 8 then some () else none
    let d ← destOf r
    let a ← srcOf lane r.fa
    let b ← srcOf lane r.fb
    let c ← optSrcOf (fld m 5 1) lane r.fc
    let tgt ← fmtOf (fld m 21 4)
    let rm ← rmodeOf (fld m 15 2)
    let kd ← finOf 8 (fld m 8 3)
    some (.qnt gd d a b c tgt rm kd)
  | 0x67 => do
    let _ ← if fld m 21 4 = 8 then some () else none
    let d ← destOf r
    let a ← srcOf lane r.fa
    let b ← srcOf lane r.fb
    let frm ← fmtOf (fld m 17 4)
    let rm ← rmodeOf (fld m 15 2)
    let ks ← finOf 8 (fld m 11 3)
    some (.dqnt gd d a b frm rm ks)
  | 0x68 => do
    let _ ← if fld m 17 4 = 8 then some () else none
    let d ← destOf r
    let a ← srcOf lane r.fa
    let c ← optSrcOf (fld m 5 1) lane r.fc
    let tgt ← fmtOf (fld m 21 4)
    let kd ← finOf 8 (fld m 8 3)
    some (.e8ext gd d a c tgt kd)
  | 0x69 => do
    let d ← destOf r
    let a ← srcOf lane r.fa
    let b ← srcOf lane r.fb
    let c ← optSrcOf (fld m 24 1) lane r.fc
    let deq ← boolOf (fld m 14 1)
    let ks ← finOf 8 (fld m 11 3)
    let kd ← finOf 8 (fld m 8 3)
    let slot ← finOf 8 (fld m 5 3)
    some (.cvtf gd d a b c deq ks kd slot)
  | _ => none

/-- The typed operands of the opcodes 0x70 to 0x7F, none where a modifier value is reserved. -/
def buildControl (op : Nat) (r : Raw) (gd : Guard) (lane m : Nat) : Option Instr :=
  match op with
  | 0x70 => do
    let tgt ← targetOf r
    some (.bra gd tgt)
  | 0x71 => do
    let k ← finOf 8 (fld m 0 3)
    let tgt ← targetOf r
    some (.brany gd k tgt)
  | 0x72 => do
    let k ← finOf 8 (fld m 0 3)
    let tgt ← targetOf r
    some (.brall gd k tgt)
  | 0x73 => do
    let k ← finOf 8 (fld m 0 3)
    let tgt ← targetOf r
    some (.brnone gd k tgt)
  | 0x74 => do
    let a ← srcOf lane r.fa
    some (.brx gd a)
  | 0x75 => do
    let tgt ← targetOf r
    some (.call gd tgt)
  | 0x76 => do
    let a ← srcOf lane r.fa
    some (.callx gd a)
  | 0x77 => do
    let a ← srcOf lane r.fa
    some (.ret gd a)
  | 0x78 => do
    let tgt ← targetOf r
    some (.split gd tgt)
  | 0x79 => do
    some (.join gd)
  | 0x7A => do
    let n ← finOf 16 (fld m 0 4)
    let tgt ← targetOf r
    some (.breakOut gd n tgt)
  | 0x7B => do
    let d ← destOf r
    let tgt ← targetOf r
    some (.loopc gd d tgt)
  | 0x7C => do
    some (.nop gd)
  | 0x7D => do
    some (.yieldRun gd)
  | _ => none

/-- The typed operands of the opcodes 0x80 to 0x9F, none where a modifier value is reserved. -/
def buildMemory (op : Nat) (r : Raw) (gd : Guard) (lane m : Nat) : Option Instr :=
  match op with
  | 0x80 => do
    let d ← destOf r
    let a ← srcOf lane r.fa
    let off ← some (BitVec.ofNat 24 r.off)
    let sz ← ldSizeOf (fld m 0 3)
    some (.ld gd d a off sz)
  | 0x81 => do
    let a ← srcOf lane r.fa
    let b ← srcOf lane r.fb
    let off ← some (BitVec.ofNat 24 r.off)
    let sz ← stSizeOf (fld m 0 3)
    some (.st gd a b off sz)
  | 0x82 => do
    let d ← destOf r
    let a ← srcOf lane r.fa
    let off ← some (BitVec.ofNat 24 r.off)
    let sz ← ldSizeOf (fld m 0 3)
    some (.lds gd d a off sz)
  | 0x83 => do
    let a ← srcOf lane r.fa
    let b ← srcOf lane r.fb
    let off ← some (BitVec.ofNat 24 r.off)
    let sz ← stSizeOf (fld m 0 3)
    some (.sts gd a b off sz)
  | 0x84 => do
    let d ← destOf r
    let a ← srcOf lane r.fa
    let off ← some (BitVec.ofNat 24 r.off)
    let keep ← boolOf (fld m 4 1)
    let trap ← boolOf (fld m 3 1)
    let _ ← if fld m 0 3 = 4 then some () else none
    some (.ldsfe gd d a off keep trap)
  | 0x85 => do
    let a ← srcOf lane r.fa
    let b ← srcOf lane r.fb
    let off ← some (BitVec.ofNat 24 r.off)
    let fem ← fillModeOf (fld m 3 2)
    let _ ← if fld m 0 3 = 4 then some () else none
    some (.stsfe gd a b off fem)
  | 0x86 => do
    let d ← destOf r
    let a ← srcOf lane r.fa
    let off ← some (BitVec.ofNat 24 r.off)
    let win ← finOf 16 (fld m 9 4)
    let rank ← finOf 8 (fld m 6 3)
    let sz ← ldSizeOf (fld m 0 3)
    some (.ldw gd d a off win rank sz)
  | 0x87 => do
    let a ← srcOf lane r.fa
    let b ← srcOf lane r.fb
    let off ← some (BitVec.ofNat 24 r.off)
    let win ← finOf 16 (fld m 9 4)
    let rank ← finOf 8 (fld m 6 3)
    let fem ← fillModeOf (fld m 3 2)
    let sz ← stSizeOf (fld m 0 3)
    some (.stw gd a b off win rank fem sz)
  | 0x88 => do
    let a ← srcOf lane r.fa
    let win ← finOf 16 (fld m 9 4)
    let writer ← optOf8 (fld m 5 4)
    some (.wopen gd a win writer)
  | 0x89 => do
    let win ← finOf 16 (fld m 9 4)
    some (.wclose gd win)
  | 0x8A => do
    let d ← destOf r
    let a ← srcOf lane r.fa
    let off ← some (BitVec.ofNat 24 r.off)
    let fmt ← subFmtOf (fld m 0 3)
    some (.subs gd d a off fmt)
  | 0x8B => do
    let d ← destOf r
    let a ← srcOf lane r.fa
    let off ← some (BitVec.ofNat 24 r.off)
    some (.unsub gd d a off)
  | 0x8C => do
    let d ← destOf r
    let a ← srcOf lane r.fa
    let off ← some (BitVec.ofNat 24 r.off)
    let fmt ← subFmtOf (fld m 0 3)
    some (.upgr gd d a off fmt)
  | 0x8D => do
    let d ← destOf r
    let a ← srcOf lane r.fa
    let off ← some (BitVec.ofNat 24 r.off)
    let fmt ← subFmtOf (fld m 0 3)
    some (.ldsub gd d a off fmt)
  | 0x8E => do
    let d ← destOf r
    let gate ← if r.imm < 4096 then some (BitVec.ofNat 12 r.imm) else none
    some (.acq gd d gate)
  | 0x8F => do
    let gate ← if r.imm < 4096 then some (BitVec.ofNat 12 r.imm) else none
    some (.rel gd gate)
  | 0x90 => do
    let scope ← domOf (fld m 3 3)
    let bk ← boolOf (fld m 2 1)
    let acq ← boolOf (fld m 1 1)
    let rel ← boolOf (fld m 0 1)
    some (.fence gd scope bk acq rel)
  | 0x91 => do
    let a ← srcOf lane r.fa
    let b ← srcOf lane r.fb
    let off ← some (BitVec.ofNat 24 r.off)
    some (.clnr gd a b off)
  | 0x92 => do
    let a ← srcOf lane r.fa
    let b ← srcOf lane r.fb
    let off ← some (BitVec.ofNat 24 r.off)
    some (.invr gd a b off)
  | 0x93 => do
    let a ← srcOf lane r.fa
    let b ← srcOf lane r.fb
    let off ← some (BitVec.ofNat 24 r.off)
    some (.dscr gd a b off)
  | 0x94 => do
    let d ← destOf r
    let a ← srcOf lane r.fa
    let off ← some (BitVec.ofNat 24 r.off)
    let sz ← ldSizeOf (fld m 0 3)
    some (.ldrc gd d a off sz)
  | 0x95 => do
    let a ← srcOf lane r.fa
    let b ← srcOf lane r.fb
    let off ← some (BitVec.ofNat 24 r.off)
    let cnt ← some (BitVec.ofNat 8 (fld m 5 8))
    let sz ← stSizeOf (fld m 0 3)
    some (.strc gd a b off cnt sz)
  | 0x96 => do
    let a ← srcOf lane r.fa
    let off ← some (BitVec.ofNat 24 r.off)
    let lvl ← pfLevelOf (fld m 0 2)
    some (.prft gd a off lvl)
  | 0x97 => do
    let d ← destOf r
    let a ← srcOf lane r.fa
    some (.rfwin gd d a)
  | 0x98 => do
    let d ← destOf r
    let a ← srcOf lane r.fa
    let off ← some (BitVec.ofNat 24 r.off)
    let sz ← ldSizeOf (fld m 0 3)
    some (.ldwt gd d a off sz)
  | 0x99 => do
    let a ← srcOf lane r.fa
    let b ← srcOf lane r.fb
    let off ← some (BitVec.ofNat 24 r.off)
    let sz ← stSizeOf (fld m 0 3)
    some (.stna gd a b off sz)
  | _ => none

/-- The typed operands of the opcodes 0xA0 to 0xAF, none where a modifier value is reserved. -/
def buildAtomic (op : Nat) (r : Raw) (gd : Guard) (lane m : Nat) : Option Instr :=
  match op with
  | 0xA0 => do
    let d ← destOf r
    let a ← srcOf lane r.fa
    let b ← srcOf lane r.fb
    let off ← some (BitVec.ofNat 24 r.off)
    let sz ← atSizeOf (fld m 0 3)
    some (.aadd gd d a b off sz)
  | 0xA1 => do
    let d ← destOf r
    let a ← srcOf lane r.fa
    let b ← srcOf lane r.fb
    let off ← some (BitVec.ofNat 24 r.off)
    let sg ← boolOf (fld m 4 1)
    let sz ← atSizeOf (fld m 0 3)
    some (.amin gd d a b off sg sz)
  | 0xA2 => do
    let d ← destOf r
    let a ← srcOf lane r.fa
    let b ← srcOf lane r.fb
    let off ← some (BitVec.ofNat 24 r.off)
    let sg ← boolOf (fld m 4 1)
    let sz ← atSizeOf (fld m 0 3)
    some (.amax gd d a b off sg sz)
  | 0xA3 => do
    let d ← destOf r
    let a ← srcOf lane r.fa
    let b ← srcOf lane r.fb
    let off ← some (BitVec.ofNat 24 r.off)
    let op ← logOpOf (fld m 7 2)
    let sz ← atSizeOf (fld m 0 3)
    some (.alog gd d a b off op sz)
  | 0xA4 => do
    let d ← destOf r
    let a ← srcOf lane r.fa
    let b ← srcOf lane r.fb
    let off ← some (BitVec.ofNat 24 r.off)
    let sz ← atSizeOf (fld m 0 3)
    some (.axch gd d a b off sz)
  | 0xA5 => do
    let d ← destOf r
    let a ← srcOf lane r.fa
    let b ← srcOf lane r.fb
    let off ← some (BitVec.ofNat 24 r.off)
    let sz ← atSizeOf (fld m 0 3)
    some (.acas gd d a b off sz)
  | 0xA6 => do
    let d ← destOf r
    let a ← srcOf lane r.fa
    let b ← srcOf lane r.fb
    let off ← some (BitVec.ofNat 24 r.off)
    let ft ← atFmtOf (fld m 5 2)
    let _ ← if fld m 0 3 = 4 then some () else none
    some (.afadd gd d a b off ft)
  | 0xA7 => do
    let d ← destOf r
    let a ← srcOf lane r.fa
    let b ← srcOf lane r.fb
    let off ← some (BitVec.ofNat 24 r.off)
    let _ ← if fld m 0 3 = 4 then some () else none
    some (.ainc gd d a b off)
  | 0xA8 => do
    let d ← destOf r
    let a ← srcOf lane r.fa
    let b ← srcOf lane r.fb
    let off ← some (BitVec.ofNat 24 r.off)
    let _ ← if fld m 0 3 = 4 then some () else none
    some (.adec gd d a b off)
  | 0xA9 => do
    let a ← srcOf lane r.fa
    let b ← srcOf lane r.fb
    let off ← some (BitVec.ofNat 24 r.off)
    let op ← redOpOf (fld m 7 2)
    let sg ← boolOf (fld m 4 1)
    let sz ← atSizeOf (fld m 0 3)
    some (.redi gd a b off op sg sz)
  | 0xAA => do
    let a ← srcOf lane r.fa
    let b ← srcOf lane r.fb
    let off ← some (BitVec.ofNat 24 r.off)
    let ft ← atFmtOf (fld m 5 2)
    let _ ← if fld m 0 3 = 4 then some () else none
    some (.redf gd a b off ft)
  | 0xAB => do
    let a ← srcOf lane r.fa
    let b ← srcOf lane r.fb
    let off ← some (BitVec.ofNat 24 r.off)
    let op ← logOpOf (fld m 7 2)
    let sz ← atSizeOf (fld m 0 3)
    some (.redlog gd a b off op sz)
  | _ => none

/-- The typed operands of the opcodes 0xB0 to 0xBF, none where a modifier value is reserved. -/
def buildParallel (op : Nat) (r : Raw) (gd : Guard) (lane m : Nat) : Option Instr :=
  match op with
  | 0xB0 => do
    let pp ← finOf 4 r.dst
    let slp ← boolOf (fld m 0 1)
    some (.elect gd pp slp)
  | 0xB1 => do
    let pp ← finOf 4 r.dst
    let slp ← boolOf (fld m 0 1)
    some (.electq gd pp slp)
  | 0xB2 => do
    let d ← destOf r
    let inv ← boolOf (fld m 5 1)
    let k ← finOf 8 (fld m 2 3)
    let kind ← pollKindOf (fld m 0 2)
    some (.poll gd d inv k kind)
  | 0xB3 => do
    let d ← destOf r
    let a ← srcOf lane r.fa
    let w ← boolOf (fld m 5 1)
    some (.matchLanes gd d a w)
  | 0xB4 => do
    let bar ← barOf (fld m 6 2) (fld m 2 4)
    some (.bara gd bar)
  | 0xB5 => do
    let bar ← barOf (fld m 6 2) (fld m 2 4)
    let wo ← boolOf (fld m 0 1)
    some (.barw gd bar wo)
  | 0xB6 => do
    let pp ← finOf 4 r.dst
    let a ← srcOf lane r.fa
    let bar ← barOf (fld m 6 2) (fld m 2 4)
    let wo ← boolOf (fld m 0 1)
    some (.barwt gd pp a bar wo)
  | 0xB7 => do
    let a ← srcOf lane r.fa
    let bar ← barOf (fld m 6 2) (fld m 2 4)
    let arr ← boolOf (fld m 0 1)
    some (.barx gd a bar arr)
  | 0xB8 => do
    let d ← regOf r.dst
    let a ← srcOf lane r.fa
    let b ← srcOf lane r.fb
    some (.spawn gd d a b)
  | 0xB9 => do
    some (.exit gd)
  | 0xBA => do
    let d ← regOf r.dst
    let a ← srcOf lane r.fa
    some (.enq gd d a)
  | 0xBB => do
    let d ← regOf r.dst
    let a ← srcOf lane r.fa
    some (.deq gd d a)
  | 0xBC => do
    let a ← groupOf (fld m 0 3) r.fa
    let n ← finOf 5 (fld m 0 3)
    some (.rgn gd a n)
  | 0xBD => do
    let a ← srcOf lane r.fa
    some (.waitt gd a)
  | _ => none

/-- The typed operands of the opcodes 0xC0 to 0xDF, none where a modifier value is reserved. -/
def buildEngine (op : Nat) (r : Raw) (gd : Guard) (lane m : Nat) : Option Instr :=
  match op with
  | 0xC0 => do
    let a ← srcOf lane r.fa
    let b ← srcOf lane r.fb
    let e ← ecomOf m r.fc
    let bar ← optOf16 (fld m 5 5)
    some (.cpy gd a b e bar)
  | 0xC1 => do
    let a ← srcOf lane r.fa
    let b ← srcOf lane r.fb
    let e ← ecomOf m r.fc
    let bar ← optOf16 (fld m 5 5)
    some (.cpy2d gd a b e bar)
  | 0xC2 => do
    let d ← destOf r
    let a ← srcOf lane r.fa
    let ppr ← finOf 4 (fld m 8 2)
    let kind ← recKindOf (fld m 4 4)
    some (.tseal gd d a ppr kind)
  | 0xC3 => do
    let a ← srcOf lane r.fa
    some (.tunsl gd a)
  | 0xC4 => do
    let a ← srcOf lane r.fa
    let b ← srcOf lane r.fb
    let e ← ecomOf m r.fc
    let fs ← finOf 8 (fld m 11 3)
    let sci ← boolOf (fld m 9 1)
    some (.tcvp gd a b e fs sci)
  | 0xC5 => do
    let a ← srcOf lane r.fa
    let b ← srcOf lane r.fb
    let e ← ecomOf m r.fc
    let fs ← finOf 8 (fld m 11 3)
    let acc ← finOf 128 (fld m 3 7)
    let q ← boolOf (fld m 2 1)
    some (.tmma gd a b e fs acc q)
  | 0xC6 => do
    let e ← ecomOf m r.fc
    let acc ← finOf 128 (fld m 3 7)
    some (.accz gd e acc)
  | 0xC7 => do
    let a ← srcOf lane r.fa
    let e ← ecomOf m r.fc
    let fs ← finOf 8 (fld m 11 3)
    let acc ← finOf 128 (fld m 3 7)
    some (.accld gd a e fs acc)
  | 0xC8 => do
    let a ← srcOf lane r.fa
    let e ← ecomOf m r.fc
    let fs ← finOf 8 (fld m 11 3)
    let acc ← finOf 128 (fld m 3 7)
    some (.accst gd a e fs acc)
  | 0xC9 => do
    let a ← srcOf lane r.fa
    let e ← ecomOf m r.fc
    let acc ← finOf 128 (fld m 3 7)
    some (.accadd gd a e acc)
  | 0xCA => do
    let a ← srcOf lane r.fa
    let e ← ecomOf m r.fc
    let fs ← finOf 8 (fld m 11 3)
    let acc ← finOf 128 (fld m 3 7)
    let col ← boolOf (fld m 2 1)
    some (.accred gd a e fs acc col)
  | 0xCB => do
    let a ← srcOf lane r.fa
    let b ← srcOf lane r.fb
    let e ← ecomOf m r.fc
    let km1 ← finOf 64 (fld m 4 6)
    some (.tselk gd a b e km1)
  | 0xCC => do
    let a ← srcOf lane r.fa
    let b ← srcOf lane r.fb
    let e ← ecomOf m r.fc
    some (.bankrun gd a b e)
  | 0xCD => do
    let a ← srcOf lane r.fa
    let b ← srcOf lane r.fb
    let e ← ecomOf m r.fc
    some (.bankst gd a b e)
  | 0xCE => do
    let a ← srcOf lane r.fa
    let b ← srcOf lane r.fb
    let e ← ecomOf m r.fc
    some (.walk gd a b e)
  | 0xCF => do
    let a ← srcOf lane r.fa
    let e ← ecomOf m r.fc
    some (.coll gd a e)
  | 0xD0 => do
    let a ← srcOf lane r.fa
    let b ← srcOf lane r.fb
    let e ← ecomOf m r.fc
    some (.cksum gd a b e)
  | 0xD1 => do
    let slot ← finOf 16 (fld m 0 4)
    some (.gset gd slot)
  | 0xD2 => do
    let inv ← boolOf (fld m 7 1)
    let k ← finOf 8 (fld m 4 3)
    let slot ← finOf 16 (fld m 0 4)
    some (.gres gd inv k slot)
  | 0xD3 => do
    let a ← optSrcOf (fld m 9 1) lane r.fa
    let n ← finOf 64 (fld m 3 6)
    let cls ← engClassOf (fld m 0 3)
    some (.waitcnt gd a n cls)
  | 0xD4 => do
    let last ← boolOf (fld m 3 1)
    let cls ← engClassOf (fld m 0 3)
    some (.ecanc gd last cls)
  | 0xD5 => do
    let d ← destOf r
    let sel ← finOf 10 (fld m 0 4)
    some (.tstat gd d sel)
  | _ => none

/-- The typed operands of the opcodes 0xE0 to 0xEF, none where a modifier value is reserved. -/
def buildSystem (op : Nat) (r : Raw) (gd : Guard) (lane _m : Nat) : Option Instr :=
  match op with
  | 0xE0 => do
    let imm ← some (BitVec.ofNat 32 r.imm)
    some (.trap gd imm)
  | 0xE1 => do
    some (.rte gd)
  | 0xE2 => do
    let d ← destOf r
    if r.imm = 0x107 then some (.cerq7Read gd d) else
    let reg ← sysRegOf r.imm
    some (.rdsys gd d reg)
  | 0xE3 => do
    let a ← srcOf lane r.fa
    let reg ← sysRegOf r.imm
    some (.wrsys gd a reg)
  | 0xE4 => do
    some (.wsave gd)
  | 0xE5 => do
    some (.wrstr gd)
  | 0xE6 => do
    let imm ← some (BitVec.ofNat 32 r.imm)
    some (.bkpt gd imm)
  | 0xE7 => do
    let d ← destOf r
    some (.rdtime gd d)
  | _ => none

/-- The typed instruction of an assigned opcode. -/
def build (r : Raw) (sh : Shape) : Option Instr :=
  let gd := guardOf r
  let m := r.modOf sh.form
  let lane := r.low % 32
  if r.op < 0x30 then buildInt r.op r gd lane m else
  if r.op < 0x40 then buildPred r.op r gd lane m else
  if r.op < 0x60 then buildFloat r.op r gd lane m else
  if r.op < 0x70 then buildConv r.op r gd lane m else
  if r.op < 0x80 then buildControl r.op r gd lane m else
  if r.op < 0xA0 then buildMemory r.op r gd lane m else
  if r.op < 0xB0 then buildAtomic r.op r gd lane m else
  if r.op < 0xC0 then buildParallel r.op r gd lane m else
  if r.op < 0xE0 then buildEngine r.op r gd lane m else
  if r.op < 0xF0 then buildSystem r.op r gd lane m else
  none

/-- The cause when a field's value is not assigned: the later tables name some (R156, R230, R418), the rest are modifier. -/
def failCause (r : Raw) : Cause :=
  if r.op = 0xE2 ∨ r.op = 0xE3 then (if r.imm < 4096 then .sysreg else .modifier)
  else if r.op = 0xBC then (if fld r.low 0 3 < 5 then .register else .modifier)
  else .modifier

/-- Decoding of a word's fields. -/
def decodeRaw (w : IWord) (r : Raw) : Except Cause Instr :=
  let m := fld r.low 0 25
  match shapeOf r.op m with
  | none => .ok (.unassignedOpcode w)
  | some sh =>
    match causeOf r sh with
    | some c => .error c
    | none =>
      match build r sh with
      | none => .error (failCause r)
      | some i =>
        if fieldsOk i then (if groupBad r sh then .error .register else .ok i)
        else .error (if r.op = 0xC2 ∨ dataBad r sh = true then .register else .modifier)

/-- Whether a word's cause is register by one of the tables after R209 alone (R230, R341, R418): those of R68 come before
run-length and resource, these after them (R432). -/
def lateRegister (w : IWord) : Bool :=
  let r := unpack w
  match shapeOf r.op (fld r.low 0 25) with
  | none => false
  | some sh =>
    decide (causeOf r sh = none) && decide (r.op ≠ 0x65) &&
      (match decodeRaw w r with
       | .error c => decide (c = .register)
       | .ok _ => false)

/-- The decoder: the instruction of a word, or the cause it is refused with (R68). An unassigned opcode is the
instruction of the table's last row, which raises cause opcode. -/
def decode (w : IWord) : Except Cause Instr := decodeRaw w (unpack w)

/-- The host's question about an opcode-table row: a word of nbits bits, the bits above them zero. -/
def decodeTableWord (nbits w : Nat) : Option Instr :=
  match decode (BitVec.ofNat 96 (w % 2 ^ nbits)) with
  | .ok i => some i
  | .error _ => none

/-! ### The encoder -/

/-- Fields at their lowest bits, added up. -/
def bitsOf : List (Nat × Nat) → Nat
  | [] => 0
  | x :: rest => x.1 * 2 ^ x.2 + bitsOf rest

/-- A one-bit field. -/
def boolCode (b : Bool) : Nat := if b then 1 else 0

/-- REL (R134). -/
def relCode : Rel → Nat
  | .eq => 0 | .ne => 1 | .lt => 2 | .le => 3 | .gt => 4 | .ge => 5

/-- MODE (R135). -/
def modeCode : CmpMode → Nat
  | .plain => 0 | .and => 1 | .or => 2 | .xor => 3

/-- FMT of FCLASS (R138). -/
def classFmtCode : ClassFmt → Nat
  | .f32 => 0 | .f16 => 1 | .bf16 => 2

/-- RM (R80). -/
def rmodeCode : RMode → Nat
  | .rne => 0 | .rz => 1 | .ru => 2 | .rd => 3

/-- FA and FB (R165). -/
def dotFmtCode : DotFmt → Nat
  | .e4m3 => 0 | .e5m2 => 1 | .e2m1 => 2

/-- SZ of a load (R146). -/
def ldSizeCode : LdSize → Nat
  | .n8 => 0 | .s8 => 1 | .n16 => 2 | .s16 => 3 | .w32 => 4 | .d64 => 5 | .q128 => 6

/-- SZ of a store (R146). -/
def stSizeCode : StSize → Nat
  | .b8 => 0 | .b16 => 2 | .b32 => 4 | .b64 => 5 | .b128 => 6

/-- FEM (R323). -/
def fillModeCode : FillMode → Nat
  | .wait => 0 | .trap => 1 | .ovw => 2

/-- FMT of a subscription (R327). -/
def subFmtCode : SubFmt → Nat
  | .f32 => 0 | .f16 => 1 | .bf16 => 2 | .e4m3 => 3 | .e5m2 => 4 | .native => 5

/-- DOM and SCOPE (R270). -/
def domCode : Dom → Nat
  | .team => 0 | .clus => 1 | .die => 2 | .pkg => 3 | .fab => 4

/-- LVL (R334). -/
def pfLevelCode : PfLevel → Nat
  | .l1 => 0 | .l2 => 1 | .ms => 2

/-- SZ of an atomic (R337). -/
def atSizeCode : AtSize → Nat
  | .w4 => 4 | .w8 => 5

/-- OPV of ALOG and REDLOG (R337). -/
def logOpCode : LogOp → Nat
  | .and => 0 | .or => 1 | .xor => 2

/-- OPV of REDI (R337). -/
def redOpCode : RedOp → Nat
  | .add => 0 | .min => 1 | .max => 2

/-- FT (R337). -/
def atFmtCode : AtFmt → Nat
  | .f32 => 0 | .h2 => 1 | .bf2 => 2

/-- KIND of POLL (R217). -/
def pollKindCode : PollKind → Nat
  | .mask => 0 | .some => 1 | .every => 2 | .count => 3

/-- CLS (R343). -/
def engClassCode : EngClass → Nat
  | .cpe => 0 | .pme => 1 | .sel => 2 | .bke => 3 | .wlk => 4 | .cle => 5

/-- KIND of TSEAL (R361). -/
def recKindCode : RecKind → Nat
  | .tensor => 0 | .scale => 1 | .walk => 2 | .bank => 3 | .coll => 4

/-- SWE and SWR (R325). -/
def optCode8 : Option (Fin 8) → Nat
  | some n => 8 + n.val
  | none => 0

/-- BE and BAR (R392). -/
def optCode16 : Option (Fin 16) → Nat
  | some n => 16 + n.val
  | none => 0

/-- LEV above NUM, from mod[2] (R219). -/
def barCode (b : BarRef) : Nat :=
  b.num.val + (match b.lev with | .cohort => 0 | .team => 1 | .cluster => 2) * 2 ^ 4

/-- The number of a system register (R150). -/
def sysRegNum : SysReg → Nat
  | .flg => 0 | .win => 1 | .spal => 2 | .spah => 3 | .epcl => 4 | .epch => 5 | .lctl => 9
  | .trw n => 16 + n.val
  | .cerq n => 256 + n.val

/-- A permute pattern (R50). -/
def permCode : Perm → Nat
  | .same => 0
  | .bfly n => 1 + n.val
  | .rot n => 6 + n.val
  | .rev => 13
  | .repl _ => 14

/-- A source field (R49). -/
def srcCode : Src → Nat
  | .reg r p => permCode p + regNum r * 2 ^ 4
  | .latch n p => permCode p + n.val * 2 ^ 4 + 2 ^ 11

/-- The srcB position (R125). -/
def srcBCode : SrcB → Nat
  | .src a => srcCode a
  | .imm v => v.toNat

/-- IB (R124). -/
def srcBBit : SrcB → Nat
  | .src _ => 0
  | .imm _ => 1

/-- The source fields of a srcB position. -/
def SrcB.list : SrcB → List Src
  | .src a => [a]
  | .imm _ => []

/-- An optional source field. -/
def optSrcCode : Option Src → Nat
  | some a => srcCode a
  | none => 0

/-- The control bit of an optional source. -/
def optBit (a : Option Src) : Nat := if a.isSome then 1 else 0

/-- The register group of RGN (R227). -/
def groupCode : Option Reg → Nat
  | some r => regNum r * 2 ^ 4
  | none => 0

/-- The lane of a replication pattern. -/
def Src.lane : Src → Option (Fin 32)
  | .reg _ (.repl l) => some l
  | .latch _ (.repl l) => some l
  | _ => none

/-- mod[4:0]: the lane of the first source that replicates, 0 where none does (R52). -/
def laneOf (l : List Src) : Nat :=
  match l.filterMap Src.lane with
  | [] => 0
  | n :: _ => n.val

/-- The common modifier fields of an engine instruction (R47, R348). -/
def ecomCode (e : ECom) : Nat :=
  bitsOf [(match e.tk with | some n => 32 + n.val | none => 0, 19),
    (match e.gq with | some n => 16 + n.val | none => 0, 14), (optBit e.nbt, 10)]

/-- The form-dependent part of the R and E forms (R46). -/
def lowR (a b c m : Nat) : Nat := a * 2 ^ 49 + b * 2 ^ 37 + c * 2 ^ 25 + m

/-- The form-dependent part of the I form (R46). -/
def lowI (a imm m : Nat) : Nat := a * 2 ^ 49 + imm * 2 ^ 17 + m

/-- The form-dependent part of the M form (R46). -/
def lowM (a b off m : Nat) : Nat := a * 2 ^ 49 + b * 2 ^ 37 + off * 2 ^ 13 + m

/-- The form-dependent part of the B form (R46). -/
def lowB (a : Nat) (t : Target) (m : Nat) : Nat := a * 2 ^ 49 + t.off.toNat * 2 ^ 17 + t.slot.val * 2 ^ 14 + m

/-- The fields of a word from its opcode, guard and form part. -/
def rawOf (op : Nat) (gd : Guard) (wbs rl dst low : Nat) : Raw :=
  { op := op, tt := gd.tt.toNat, pa := gd.pa.val, pb := gd.pb.val, pc := gd.pc.val,
    wbs := wbs, rl := rl, dst := dst, low := low }

/-- The fields of an instruction of the opcode map; a step of a unit, the fabric or the host has no word. -/
def rawOfInstr : Instr → Option Raw
  | .add gd d a b co => some (rawOf 0x00 gd (boolCode d.wbs) d.rl.val (regNum d.reg) (lowR (srcCode a) (srcBCode b) 0 (bitsOf [(laneOf ([a] ++ b.list), 0), (srcBBit b, 24), (boolCode co, 5)])))
  | .sub gd d a b co => some (rawOf 0x01 gd (boolCode d.wbs) d.rl.val (regNum d.reg) (lowR (srcCode a) (srcBCode b) 0 (bitsOf [(laneOf ([a] ++ b.list), 0), (srcBBit b, 24), (boolCode co, 5)])))
  | .addc gd d a b c co => some (rawOf 0x02 gd (boolCode d.wbs) d.rl.val (regNum d.reg) (lowR (srcCode a) (srcBCode b) (srcCode c) (bitsOf [(laneOf ([a] ++ b.list ++ [c]), 0), (srcBBit b, 24), (boolCode co, 5)])))
  | .subb gd d a b c co => some (rawOf 0x03 gd (boolCode d.wbs) d.rl.val (regNum d.reg) (lowR (srcCode a) (srcBCode b) (srcCode c) (bitsOf [(laneOf ([a] ++ b.list ++ [c]), 0), (srcBBit b, 24), (boolCode co, 5)])))
  | .mul gd d a b => some (rawOf 0x04 gd (boolCode d.wbs) d.rl.val (regNum d.reg) (lowR (srcCode a) (srcBCode b) 0 (bitsOf [(laneOf ([a] ++ b.list), 0), (srcBBit b, 24)])))
  | .mulhS gd d a b => some (rawOf 0x05 gd (boolCode d.wbs) d.rl.val (regNum d.reg) (lowR (srcCode a) (srcBCode b) 0 (bitsOf [(laneOf ([a] ++ b.list), 0), (srcBBit b, 24)])))
  | .mulhN gd d a b => some (rawOf 0x06 gd (boolCode d.wbs) d.rl.val (regNum d.reg) (lowR (srcCode a) (srcBCode b) 0 (bitsOf [(laneOf ([a] ++ b.list), 0), (srcBBit b, 24)])))
  | .mad gd d a b c => some (rawOf 0x07 gd (boolCode d.wbs) d.rl.val (regNum d.reg) (lowR (srcCode a) (srcBCode b) (srcCode c) (bitsOf [(laneOf ([a] ++ b.list ++ [c]), 0), (srcBBit b, 24)])))
  | .madw gd d a b c sg => some (rawOf 0x08 gd (boolCode d.wbs) d.rl.val (regNum d.reg) (lowR (srcCode a) (srcBCode b) (srcCode c) (bitsOf [(laneOf ([a] ++ b.list ++ [c]), 0), (srcBBit b, 24), (boolCode sg, 5)])))
  | .divS gd d a b => some (rawOf 0x09 gd (boolCode d.wbs) d.rl.val (regNum d.reg) (lowR (srcCode a) (srcBCode b) 0 (bitsOf [(laneOf ([a] ++ b.list), 0), (srcBBit b, 24)])))
  | .divN gd d a b => some (rawOf 0x0A gd (boolCode d.wbs) d.rl.val (regNum d.reg) (lowR (srcCode a) (srcBCode b) 0 (bitsOf [(laneOf ([a] ++ b.list), 0), (srcBBit b, 24)])))
  | .remS gd d a b => some (rawOf 0x0B gd (boolCode d.wbs) d.rl.val (regNum d.reg) (lowR (srcCode a) (srcBCode b) 0 (bitsOf [(laneOf ([a] ++ b.list), 0), (srcBBit b, 24)])))
  | .remN gd d a b => some (rawOf 0x0C gd (boolCode d.wbs) d.rl.val (regNum d.reg) (lowR (srcCode a) (srcBCode b) 0 (bitsOf [(laneOf ([a] ++ b.list), 0), (srcBBit b, 24)])))
  | .minS gd d a b => some (rawOf 0x0D gd (boolCode d.wbs) d.rl.val (regNum d.reg) (lowR (srcCode a) (srcBCode b) 0 (bitsOf [(laneOf ([a] ++ b.list), 0), (srcBBit b, 24)])))
  | .minN gd d a b => some (rawOf 0x0E gd (boolCode d.wbs) d.rl.val (regNum d.reg) (lowR (srcCode a) (srcBCode b) 0 (bitsOf [(laneOf ([a] ++ b.list), 0), (srcBBit b, 24)])))
  | .maxS gd d a b => some (rawOf 0x0F gd (boolCode d.wbs) d.rl.val (regNum d.reg) (lowR (srcCode a) (srcBCode b) 0 (bitsOf [(laneOf ([a] ++ b.list), 0), (srcBBit b, 24)])))
  | .maxN gd d a b => some (rawOf 0x10 gd (boolCode d.wbs) d.rl.val (regNum d.reg) (lowR (srcCode a) (srcBCode b) 0 (bitsOf [(laneOf ([a] ++ b.list), 0), (srcBBit b, 24)])))
  | .abs gd d a => some (rawOf 0x11 gd (boolCode d.wbs) d.rl.val (regNum d.reg) (lowR (srcCode a) 0 0 (bitsOf [(laneOf ([a]), 0)])))
  | .neg gd d a => some (rawOf 0x12 gd (boolCode d.wbs) d.rl.val (regNum d.reg) (lowR (srcCode a) 0 0 (bitsOf [(laneOf ([a]), 0)])))
  | .logt gd d a b c lut => some (rawOf 0x13 gd (boolCode d.wbs) d.rl.val (regNum d.reg) (lowR (srcCode a) (srcBCode b) (srcCode c) (bitsOf [(laneOf ([a] ++ b.list ++ [c]), 0), (srcBBit b, 24), (lut.toNat, 5)])))
  | .shl gd d a b => some (rawOf 0x14 gd (boolCode d.wbs) d.rl.val (regNum d.reg) (lowR (srcCode a) (srcBCode b) 0 (bitsOf [(laneOf ([a] ++ b.list), 0), (srcBBit b, 24)])))
  | .shrN gd d a b => some (rawOf 0x15 gd (boolCode d.wbs) d.rl.val (regNum d.reg) (lowR (srcCode a) (srcBCode b) 0 (bitsOf [(laneOf ([a] ++ b.list), 0), (srcBBit b, 24)])))
  | .shrS gd d a b => some (rawOf 0x16 gd (boolCode d.wbs) d.rl.val (regNum d.reg) (lowR (srcCode a) (srcBCode b) 0 (bitsOf [(laneOf ([a] ++ b.list), 0), (srcBBit b, 24)])))
  | .rot gd d a b => some (rawOf 0x17 gd (boolCode d.wbs) d.rl.val (regNum d.reg) (lowR (srcCode a) (srcBCode b) 0 (bitsOf [(laneOf ([a] ++ b.list), 0), (srcBBit b, 24)])))
  | .fshl gd d a b c => some (rawOf 0x18 gd (boolCode d.wbs) d.rl.val (regNum d.reg) (lowR (srcCode a) (srcBCode b) (srcCode c) (bitsOf [(laneOf ([a] ++ b.list ++ [c]), 0), (srcBBit b, 24)])))
  | .bfx gd d a b sx => some (rawOf 0x19 gd (boolCode d.wbs) d.rl.val (regNum d.reg) (lowR (srcCode a) (srcBCode b) 0 (bitsOf [(laneOf ([a] ++ b.list), 0), (srcBBit b, 24), (boolCode sx, 5)])))
  | .bfi gd d a b c => some (rawOf 0x1A gd (boolCode d.wbs) d.rl.val (regNum d.reg) (lowR (srcCode a) (srcBCode b) (srcCode c) (bitsOf [(laneOf ([a] ++ b.list ++ [c]), 0), (srcBBit b, 24)])))
  | .popc gd d a => some (rawOf 0x1B gd (boolCode d.wbs) d.rl.val (regNum d.reg) (lowR (srcCode a) 0 0 (bitsOf [(laneOf ([a]), 0)])))
  | .clz gd d a => some (rawOf 0x1C gd (boolCode d.wbs) d.rl.val (regNum d.reg) (lowR (srcCode a) 0 0 (bitsOf [(laneOf ([a]), 0)])))
  | .brev gd d a => some (rawOf 0x1D gd (boolCode d.wbs) d.rl.val (regNum d.reg) (lowR (srcCode a) 0 0 (bitsOf [(laneOf ([a]), 0)])))
  | .psel gd d a b k inv => some (rawOf 0x1E gd (boolCode d.wbs) d.rl.val (regNum d.reg) (lowR (srcCode a) (srcBCode b) 0 (bitsOf [(laneOf ([a] ++ b.list), 0), (srcBBit b, 24), (k.val, 5), (boolCode inv, 8)])))
  | .mov gd d a => some (rawOf 0x1F gd (boolCode d.wbs) d.rl.val (regNum d.reg) (lowR (srcCode a) 0 0 (bitsOf [(laneOf ([a]), 0)])))
  | .movi gd d imm => some (rawOf 0x20 gd (boolCode d.wbs) d.rl.val (regNum d.reg) (lowI 0 imm.toNat (0)))
  | .lea gd d a off => some (rawOf 0x21 gd (boolCode d.wbs) d.rl.val (regNum d.reg) (lowM (srcCode a) 0 off.toNat (0)))
  | .icmpS gd pp a b rel mode => some (rawOf 0x30 gd 0 0 pp.val (lowR (srcCode a) (srcBCode b) 0 (bitsOf [(srcBBit b, 24), (relCode rel, 2), (modeCode mode, 0)])))
  | .icmpN gd pp a b rel mode => some (rawOf 0x31 gd 0 0 pp.val (lowR (srcCode a) (srcBCode b) 0 (bitsOf [(srcBBit b, 24), (relCode rel, 2), (modeCode mode, 0)])))
  | .icmpW gd pp a b sg rel mode => some (rawOf 0x32 gd 0 0 pp.val (lowR (srcCode a) (srcCode b) 0 (bitsOf [(boolCode sg, 5), (relCode rel, 2), (modeCode mode, 0)])))
  | .fcmp gd pp a b rel mode => some (rawOf 0x33 gd 0 0 pp.val (lowR (srcCode a) (srcCode b) 0 (bitsOf [(relCode rel, 2), (modeCode mode, 0)])))
  | .fcmpH2 gd pp a b rel mode => some (rawOf 0x34 gd 0 0 pp.val (lowR (srcCode a) (srcCode b) 0 (bitsOf [(relCode rel, 2), (modeCode mode, 0)])))
  | .fcmpBf2 gd pp a b rel mode => some (rawOf 0x35 gd 0 0 pp.val (lowR (srcCode a) (srcCode b) 0 (bitsOf [(relCode rel, 2), (modeCode mode, 0)])))
  | .fclass gd pp a fmt cmask mode => some (rawOf 0x36 gd 0 0 pp.val (lowR (srcCode a) 0 0 (bitsOf [(classFmtCode fmt, 14), (cmask.toNat, 5), (modeCode mode, 0)])))
  | .btest gd pp a b allBits mode => some (rawOf 0x37 gd 0 0 pp.val (lowR (srcCode a) (srcBCode b) 0 (bitsOf [(srcBBit b, 24), (boolCode allBits, 2), (modeCode mode, 0)])))
  | .rchk gd pp a b c sg mode => some (rawOf 0x38 gd 0 0 pp.val (lowR (srcCode a) (srcBCode b) (srcCode c) (bitsOf [(srcBBit b, 24), (boolCode sg, 5), (modeCode mode, 0)])))
  | .pmix gd pd lut x y z => some (rawOf 0x39 gd 0 0 pd.val (lowR 0 0 0 (bitsOf [(lut.toNat, 17), (x.val, 14), (y.val, 11), (z.val, 8)])))
  | .ppack gd d => some (rawOf 0x3A gd (boolCode d.wbs) d.rl.val (regNum d.reg) (lowR 0 0 0 (0)))
  | .psprd gd a mask => some (rawOf 0x3B gd 0 0 0 (lowR (srcCode a) 0 0 (bitsOf [(laneOf ([a]), 0), (mask.toNat, 5)])))
  | .fadd gd d a b rm sat na nb => some (rawOf 0x40 gd (boolCode d.wbs) d.rl.val (regNum d.reg) (lowR (srcCode a) (srcCode b) 0 (bitsOf [(laneOf ([a] ++ [b]), 0), (rmodeCode rm, 17), (boolCode sat, 16), (boolCode na, 15), (boolCode nb, 14)])))
  | .fsub gd d a b rm sat na nb => some (rawOf 0x41 gd (boolCode d.wbs) d.rl.val (regNum d.reg) (lowR (srcCode a) (srcCode b) 0 (bitsOf [(laneOf ([a] ++ [b]), 0), (rmodeCode rm, 17), (boolCode sat, 16), (boolCode na, 15), (boolCode nb, 14)])))
  | .fmul gd d a b rm sat na nb => some (rawOf 0x42 gd (boolCode d.wbs) d.rl.val (regNum d.reg) (lowR (srcCode a) (srcCode b) 0 (bitsOf [(laneOf ([a] ++ [b]), 0), (rmodeCode rm, 17), (boolCode sat, 16), (boolCode na, 15), (boolCode nb, 14)])))
  | .ffma gd d a b c rm sat na nb nc => some (rawOf 0x43 gd (boolCode d.wbs) d.rl.val (regNum d.reg) (lowR (srcCode a) (srcCode b) (srcCode c) (bitsOf [(laneOf ([a] ++ [b] ++ [c]), 0), (rmodeCode rm, 17), (boolCode sat, 16), (boolCode na, 15), (boolCode nb, 14), (boolCode nc, 13)])))
  | .fmin gd d a b na nb => some (rawOf 0x44 gd (boolCode d.wbs) d.rl.val (regNum d.reg) (lowR (srcCode a) (srcCode b) 0 (bitsOf [(laneOf ([a] ++ [b]), 0), (boolCode na, 15), (boolCode nb, 14)])))
  | .fmax gd d a b na nb => some (rawOf 0x45 gd (boolCode d.wbs) d.rl.val (regNum d.reg) (lowR (srcCode a) (srcCode b) 0 (bitsOf [(laneOf ([a] ++ [b]), 0), (boolCode na, 15), (boolCode nb, 14)])))
  | .pkadh gd d a b rm sat na nb => some (rawOf 0x46 gd (boolCode d.wbs) d.rl.val (regNum d.reg) (lowR (srcCode a) (srcCode b) 0 (bitsOf [(laneOf ([a] ++ [b]), 0), (rmodeCode rm, 17), (boolCode sat, 16), (boolCode na, 15), (boolCode nb, 14)])))
  | .pkmlh gd d a b rm sat na nb => some (rawOf 0x47 gd (boolCode d.wbs) d.rl.val (regNum d.reg) (lowR (srcCode a) (srcCode b) 0 (bitsOf [(laneOf ([a] ++ [b]), 0), (rmodeCode rm, 17), (boolCode sat, 16), (boolCode na, 15), (boolCode nb, 14)])))
  | .pkfmh gd d a b c rm sat na nb nc => some (rawOf 0x48 gd (boolCode d.wbs) d.rl.val (regNum d.reg) (lowR (srcCode a) (srcCode b) (srcCode c) (bitsOf [(laneOf ([a] ++ [b] ++ [c]), 0), (rmodeCode rm, 17), (boolCode sat, 16), (boolCode na, 15), (boolCode nb, 14), (boolCode nc, 13)])))
  | .pkadb gd d a b rm sat na nb => some (rawOf 0x49 gd (boolCode d.wbs) d.rl.val (regNum d.reg) (lowR (srcCode a) (srcCode b) 0 (bitsOf [(laneOf ([a] ++ [b]), 0), (rmodeCode rm, 17), (boolCode sat, 16), (boolCode na, 15), (boolCode nb, 14)])))
  | .pkmlb gd d a b rm sat na nb => some (rawOf 0x4A gd (boolCode d.wbs) d.rl.val (regNum d.reg) (lowR (srcCode a) (srcCode b) 0 (bitsOf [(laneOf ([a] ++ [b]), 0), (rmodeCode rm, 17), (boolCode sat, 16), (boolCode na, 15), (boolCode nb, 14)])))
  | .pkfmb gd d a b c rm sat na nb nc => some (rawOf 0x4B gd (boolCode d.wbs) d.rl.val (regNum d.reg) (lowR (srcCode a) (srcCode b) (srcCode c) (bitsOf [(laneOf ([a] ++ [b] ++ [c]), 0), (rmodeCode rm, 17), (boolCode sat, 16), (boolCode na, 15), (boolCode nb, 14), (boolCode nc, 13)])))
  | .frcp gd d a rm sat na => some (rawOf 0x4C gd (boolCode d.wbs) d.rl.val (regNum d.reg) (lowR (srcCode a) 0 0 (bitsOf [(laneOf ([a]), 0), (rmodeCode rm, 17), (boolCode sat, 16), (boolCode na, 15)])))
  | .frsq gd d a na => some (rawOf 0x4D gd (boolCode d.wbs) d.rl.val (regNum d.reg) (lowR (srcCode a) 0 0 (bitsOf [(laneOf ([a]), 0), (boolCode na, 15)])))
  | .fsqrt gd d a rm na => some (rawOf 0x4E gd (boolCode d.wbs) d.rl.val (regNum d.reg) (lowR (srcCode a) 0 0 (bitsOf [(laneOf ([a]), 0), (rmodeCode rm, 17), (boolCode na, 15)])))
  | .fexp2 gd d a na => some (rawOf 0x4F gd (boolCode d.wbs) d.rl.val (regNum d.reg) (lowR (srcCode a) 0 0 (bitsOf [(laneOf ([a]), 0), (boolCode na, 15)])))
  | .flog2 gd d a na => some (rawOf 0x50 gd (boolCode d.wbs) d.rl.val (regNum d.reg) (lowR (srcCode a) 0 0 (bitsOf [(laneOf ([a]), 0), (boolCode na, 15)])))
  | .fsin gd d a na => some (rawOf 0x51 gd (boolCode d.wbs) d.rl.val (regNum d.reg) (lowR (srcCode a) 0 0 (bitsOf [(laneOf ([a]), 0), (boolCode na, 15)])))
  | .fcos gd d a na => some (rawOf 0x52 gd (boolCode d.wbs) d.rl.val (regNum d.reg) (lowR (srcCode a) 0 0 (bitsOf [(laneOf ([a]), 0), (boolCode na, 15)])))
  | .ftanh gd d a na => some (rawOf 0x53 gd (boolCode d.wbs) d.rl.val (regNum d.reg) (lowR (srcCode a) 0 0 (bitsOf [(laneOf ([a]), 0), (boolCode na, 15)])))
  | .fdiv gd d a b rm sat na nb => some (rawOf 0x54 gd (boolCode d.wbs) d.rl.val (regNum d.reg) (lowR (srcCode a) (srcCode b) 0 (bitsOf [(laneOf ([a] ++ [b]), 0), (rmodeCode rm, 17), (boolCode sat, 16), (boolCode na, 15), (boolCode nb, 14)])))
  | .frnd gd d a rm na => some (rawOf 0x55 gd (boolCode d.wbs) d.rl.val (regNum d.reg) (lowR (srcCode a) 0 0 (bitsOf [(laneOf ([a]), 0), (rmodeCode rm, 17), (boolCode na, 15)])))
  | .fscale gd d a b rm sat na => some (rawOf 0x56 gd (boolCode d.wbs) d.rl.val (regNum d.reg) (lowR (srcCode a) (srcCode b) 0 (bitsOf [(laneOf ([a] ++ [b]), 0), (rmodeCode rm, 17), (boolCode sat, 16), (boolCode na, 15)])))
  | .fdot8 gd d a b c rm sat na nb nc fb fa => some (rawOf 0x57 gd (boolCode d.wbs) d.rl.val (regNum d.reg) (lowR (srcCode a) (srcCode b) (srcCode c) (bitsOf [(laneOf ([a] ++ [b] ++ [c]), 0), (rmodeCode rm, 17), (boolCode sat, 16), (boolCode na, 15), (boolCode nb, 14), (boolCode nc, 13), (dotFmtCode fb, 7), (dotFmtCode fa, 5)])))
  | .cvt gd d a c tgt frm rm sat ks kd => some (rawOf 0x60 gd (boolCode d.wbs) d.rl.val (regNum d.reg) (lowR (srcCode a) 0 (optSrcCode c) (bitsOf [(laneOf ([a] ++ c.toList), 0), (optBit c, 5), (Fmt.code tgt, 21), (Fmt.code frm, 17), (rmodeCode rm, 15), (boolCode sat, 14), (ks.val, 11), (kd.val, 8)])))
  | .cvtsr gd d a b c tgt frm sat ks kd => some (rawOf 0x61 gd (boolCode d.wbs) d.rl.val (regNum d.reg) (lowR (srcCode a) (srcCode b) (optSrcCode c) (bitsOf [(laneOf ([a] ++ [b] ++ c.toList), 0), (optBit c, 5), (Fmt.code tgt, 21), (Fmt.code frm, 17), (boolCode sat, 14), (ks.val, 11), (kd.val, 8)])))
  | .cvti gd d a c tgt frm sat ks kd => some (rawOf 0x62 gd (boolCode d.wbs) d.rl.val (regNum d.reg) (lowR (srcCode a) 0 (optSrcCode c) (bitsOf [(laneOf ([a] ++ c.toList), 0), (optBit c, 5), (Fmt.code tgt, 21), (Fmt.code frm, 17), (boolCode sat, 14), (ks.val, 11), (kd.val, 8)])))
  | .pack2 gd d a b tgt frm rm sat => some (rawOf 0x63 gd (boolCode d.wbs) d.rl.val (regNum d.reg) (lowR (srcCode a) (srcCode b) 0 (bitsOf [(laneOf ([a] ++ [b]), 0), (Fmt.code tgt, 21), (Fmt.code frm, 17), (rmodeCode rm, 15), (boolCode sat, 14)])))
  | .unpk2 gd d a tgt frm => some (rawOf 0x64 gd (boolCode d.wbs) d.rl.val (regNum d.reg) (lowR (srcCode a) 0 0 (bitsOf [(laneOf ([a]), 0), (Fmt.code tgt, 21), (Fmt.code frm, 17)])))
  | .lcdec gd d a b tgt rm ks => some (rawOf 0x65 gd (boolCode d.wbs) d.rl.val (regNum d.reg) (lowR (srcCode a) (optSrcCode b) 0 (bitsOf [(laneOf ([a] ++ b.toList), 0), (Fmt.code tgt, 21), (rmodeCode rm, 15), (ks.val, 11), (15, 17)])))
  | .qnt gd d a b c tgt rm kd => some (rawOf 0x66 gd (boolCode d.wbs) d.rl.val (regNum d.reg) (lowR (srcCode a) (srcCode b) (optSrcCode c) (bitsOf [(laneOf ([a] ++ [b] ++ c.toList), 0), (optBit c, 5), (Fmt.code tgt, 21), (rmodeCode rm, 15), (kd.val, 8), (8, 17)])))
  | .dqnt gd d a b frm rm ks => some (rawOf 0x67 gd (boolCode d.wbs) d.rl.val (regNum d.reg) (lowR (srcCode a) (srcCode b) 0 (bitsOf [(laneOf ([a] ++ [b]), 0), (Fmt.code frm, 17), (rmodeCode rm, 15), (ks.val, 11), (8, 21)])))
  | .e8ext gd d a c tgt kd => some (rawOf 0x68 gd (boolCode d.wbs) d.rl.val (regNum d.reg) (lowR (srcCode a) 0 (optSrcCode c) (bitsOf [(laneOf ([a] ++ c.toList), 0), (optBit c, 5), (Fmt.code tgt, 21), (kd.val, 8), (8, 17)])))
  | .cvtf gd d a b c deq ks kd slot => some (rawOf 0x69 gd (boolCode d.wbs) d.rl.val (regNum d.reg) (lowR (srcCode a) (srcCode b) (optSrcCode c) (bitsOf [(laneOf ([a] ++ [b] ++ c.toList), 0), (optBit c, 24), (boolCode deq, 14), (ks.val, 11), (kd.val, 8), (slot.val, 5)])))
  | .bra gd tgt => some (rawOf 0x70 gd 0 0 0 (lowB 0 tgt (0)))
  | .brany gd k tgt => some (rawOf 0x71 gd 0 0 0 (lowB 0 tgt (bitsOf [(k.val, 0)])))
  | .brall gd k tgt => some (rawOf 0x72 gd 0 0 0 (lowB 0 tgt (bitsOf [(k.val, 0)])))
  | .brnone gd k tgt => some (rawOf 0x73 gd 0 0 0 (lowB 0 tgt (bitsOf [(k.val, 0)])))
  | .brx gd a => some (rawOf 0x74 gd 0 0 0 (lowR (srcCode a) 0 0 (bitsOf [(laneOf ([a]), 0)])))
  | .call gd tgt => some (rawOf 0x75 gd 0 0 0 (lowB 0 tgt (0)))
  | .callx gd a => some (rawOf 0x76 gd 0 0 0 (lowR (srcCode a) 0 0 (bitsOf [(laneOf ([a]), 0)])))
  | .ret gd a => some (rawOf 0x77 gd 0 0 0 (lowR (srcCode a) 0 0 (bitsOf [(laneOf ([a]), 0)])))
  | .split gd tgt => some (rawOf 0x78 gd 0 0 0 (lowB 0 tgt (0)))
  | .join gd => some (rawOf 0x79 gd 0 0 0 (lowR 0 0 0 (0)))
  | .breakOut gd n tgt => some (rawOf 0x7A gd 0 0 0 (lowB 0 tgt (bitsOf [(n.val, 0)])))
  | .loopc gd d tgt => some (rawOf 0x7B gd (boolCode d.wbs) d.rl.val (regNum d.reg) (lowB 0 tgt (0)))
  | .nop gd => some (rawOf 0x7C gd 0 0 0 (lowR 0 0 0 (0)))
  | .yieldRun gd => some (rawOf 0x7D gd 0 0 0 (lowR 0 0 0 (0)))
  | .ld gd d a off sz => some (rawOf 0x80 gd (boolCode d.wbs) d.rl.val (regNum d.reg) (lowM (srcCode a) 0 off.toNat (bitsOf [(ldSizeCode sz, 0)])))
  | .st gd a b off sz => some (rawOf 0x81 gd 0 0 0 (lowM (srcCode a) (srcCode b) off.toNat (bitsOf [(stSizeCode sz, 0)])))
  | .lds gd d a off sz => some (rawOf 0x82 gd (boolCode d.wbs) d.rl.val (regNum d.reg) (lowM (srcCode a) 0 off.toNat (bitsOf [(ldSizeCode sz, 0)])))
  | .sts gd a b off sz => some (rawOf 0x83 gd 0 0 0 (lowM (srcCode a) (srcCode b) off.toNat (bitsOf [(stSizeCode sz, 0)])))
  | .ldsfe gd d a off keep trap => some (rawOf 0x84 gd (boolCode d.wbs) d.rl.val (regNum d.reg) (lowM (srcCode a) 0 off.toNat (bitsOf [(boolCode keep, 4), (boolCode trap, 3), (4, 0)])))
  | .stsfe gd a b off fem => some (rawOf 0x85 gd 0 0 0 (lowM (srcCode a) (srcCode b) off.toNat (bitsOf [(fillModeCode fem, 3), (4, 0)])))
  | .ldw gd d a off win rank sz => some (rawOf 0x86 gd (boolCode d.wbs) d.rl.val (regNum d.reg) (lowM (srcCode a) 0 off.toNat (bitsOf [(win.val, 9), (rank.val, 6), (ldSizeCode sz, 0)])))
  | .stw gd a b off win rank fem sz => some (rawOf 0x87 gd 0 0 0 (lowM (srcCode a) (srcCode b) off.toNat (bitsOf [(win.val, 9), (rank.val, 6), (fillModeCode fem, 3), (stSizeCode sz, 0)])))
  | .wopen gd a win writer => some (rawOf 0x88 gd 0 0 0 (lowR (srcCode a) 0 0 (bitsOf [(laneOf ([a]), 0), (win.val, 9), (optCode8 writer, 5)])))
  | .wclose gd win => some (rawOf 0x89 gd 0 0 0 (lowR 0 0 0 (bitsOf [(win.val, 9)])))
  | .subs gd d a off fmt => some (rawOf 0x8A gd (boolCode d.wbs) d.rl.val (regNum d.reg) (lowM (srcCode a) 0 off.toNat (bitsOf [(subFmtCode fmt, 0)])))
  | .unsub gd d a off => some (rawOf 0x8B gd (boolCode d.wbs) d.rl.val (regNum d.reg) (lowM (srcCode a) 0 off.toNat (0)))
  | .upgr gd d a off fmt => some (rawOf 0x8C gd (boolCode d.wbs) d.rl.val (regNum d.reg) (lowM (srcCode a) 0 off.toNat (bitsOf [(subFmtCode fmt, 0)])))
  | .ldsub gd d a off fmt => some (rawOf 0x8D gd (boolCode d.wbs) d.rl.val (regNum d.reg) (lowM (srcCode a) 0 off.toNat (bitsOf [(subFmtCode fmt, 0)])))
  | .acq gd d gate => some (rawOf 0x8E gd (boolCode d.wbs) d.rl.val (regNum d.reg) (lowI 0 gate.toNat (0)))
  | .rel gd gate => some (rawOf 0x8F gd 0 0 0 (lowI 0 gate.toNat (0)))
  | .fence gd scope bk acq rel => some (rawOf 0x90 gd 0 0 0 (lowR 0 0 0 (bitsOf [(domCode scope, 3), (boolCode bk, 2), (boolCode acq, 1), (boolCode rel, 0)])))
  | .clnr gd a b off => some (rawOf 0x91 gd 0 0 0 (lowM (srcCode a) (srcCode b) off.toNat (0)))
  | .invr gd a b off => some (rawOf 0x92 gd 0 0 0 (lowM (srcCode a) (srcCode b) off.toNat (0)))
  | .dscr gd a b off => some (rawOf 0x93 gd 0 0 0 (lowM (srcCode a) (srcCode b) off.toNat (0)))
  | .ldrc gd d a off sz => some (rawOf 0x94 gd (boolCode d.wbs) d.rl.val (regNum d.reg) (lowM (srcCode a) 0 off.toNat (bitsOf [(ldSizeCode sz, 0)])))
  | .strc gd a b off cnt sz => some (rawOf 0x95 gd 0 0 0 (lowM (srcCode a) (srcCode b) off.toNat (bitsOf [(cnt.toNat, 5), (stSizeCode sz, 0)])))
  | .prft gd a off lvl => some (rawOf 0x96 gd 0 0 0 (lowM (srcCode a) 0 off.toNat (bitsOf [(pfLevelCode lvl, 0)])))
  | .rfwin gd d a => some (rawOf 0x97 gd (boolCode d.wbs) d.rl.val (regNum d.reg) (lowR (srcCode a) 0 0 (bitsOf [(laneOf ([a]), 0)])))
  | .ldwt gd d a off sz => some (rawOf 0x98 gd (boolCode d.wbs) d.rl.val (regNum d.reg) (lowM (srcCode a) 0 off.toNat (bitsOf [(ldSizeCode sz, 0)])))
  | .stna gd a b off sz => some (rawOf 0x99 gd 0 0 0 (lowM (srcCode a) (srcCode b) off.toNat (bitsOf [(stSizeCode sz, 0)])))
  | .aadd gd d a b off sz => some (rawOf 0xA0 gd (boolCode d.wbs) d.rl.val (regNum d.reg) (lowM (srcCode a) (srcCode b) off.toNat (bitsOf [(atSizeCode sz, 0)])))
  | .amin gd d a b off sg sz => some (rawOf 0xA1 gd (boolCode d.wbs) d.rl.val (regNum d.reg) (lowM (srcCode a) (srcCode b) off.toNat (bitsOf [(boolCode sg, 4), (atSizeCode sz, 0)])))
  | .amax gd d a b off sg sz => some (rawOf 0xA2 gd (boolCode d.wbs) d.rl.val (regNum d.reg) (lowM (srcCode a) (srcCode b) off.toNat (bitsOf [(boolCode sg, 4), (atSizeCode sz, 0)])))
  | .alog gd d a b off op sz => some (rawOf 0xA3 gd (boolCode d.wbs) d.rl.val (regNum d.reg) (lowM (srcCode a) (srcCode b) off.toNat (bitsOf [(logOpCode op, 7), (atSizeCode sz, 0)])))
  | .axch gd d a b off sz => some (rawOf 0xA4 gd (boolCode d.wbs) d.rl.val (regNum d.reg) (lowM (srcCode a) (srcCode b) off.toNat (bitsOf [(atSizeCode sz, 0)])))
  | .acas gd d a b off sz => some (rawOf 0xA5 gd (boolCode d.wbs) d.rl.val (regNum d.reg) (lowM (srcCode a) (srcCode b) off.toNat (bitsOf [(atSizeCode sz, 0)])))
  | .afadd gd d a b off ft => some (rawOf 0xA6 gd (boolCode d.wbs) d.rl.val (regNum d.reg) (lowM (srcCode a) (srcCode b) off.toNat (bitsOf [(atFmtCode ft, 5), (4, 0)])))
  | .ainc gd d a b off => some (rawOf 0xA7 gd (boolCode d.wbs) d.rl.val (regNum d.reg) (lowM (srcCode a) (srcCode b) off.toNat (bitsOf [(4, 0)])))
  | .adec gd d a b off => some (rawOf 0xA8 gd (boolCode d.wbs) d.rl.val (regNum d.reg) (lowM (srcCode a) (srcCode b) off.toNat (bitsOf [(4, 0)])))
  | .redi gd a b off op sg sz => some (rawOf 0xA9 gd 0 0 0 (lowM (srcCode a) (srcCode b) off.toNat (bitsOf [(redOpCode op, 7), (boolCode sg, 4), (atSizeCode sz, 0)])))
  | .redf gd a b off ft => some (rawOf 0xAA gd 0 0 0 (lowM (srcCode a) (srcCode b) off.toNat (bitsOf [(atFmtCode ft, 5), (4, 0)])))
  | .redlog gd a b off op sz => some (rawOf 0xAB gd 0 0 0 (lowM (srcCode a) (srcCode b) off.toNat (bitsOf [(logOpCode op, 7), (atSizeCode sz, 0)])))
  | .elect gd pp slp => some (rawOf 0xB0 gd 0 0 pp.val (lowR 0 0 0 (bitsOf [(boolCode slp, 0)])))
  | .electq gd pp slp => some (rawOf 0xB1 gd 0 0 pp.val (lowR 0 0 0 (bitsOf [(boolCode slp, 0)])))
  | .poll gd d inv k kind => some (rawOf 0xB2 gd (boolCode d.wbs) d.rl.val (regNum d.reg) (lowR 0 0 0 (bitsOf [(boolCode inv, 5), (k.val, 2), (pollKindCode kind, 0)])))
  | .matchLanes gd d a w => some (rawOf 0xB3 gd (boolCode d.wbs) d.rl.val (regNum d.reg) (lowR (srcCode a) 0 0 (bitsOf [(laneOf ([a]), 0), (boolCode w, 5)])))
  | .bara gd bar => some (rawOf 0xB4 gd 0 0 0 (lowR 0 0 0 (bitsOf [(barCode bar, 2)])))
  | .barw gd bar wo => some (rawOf 0xB5 gd 0 0 0 (lowR 0 0 0 (bitsOf [(barCode bar, 2), (boolCode wo, 0)])))
  | .barwt gd pp a bar wo => some (rawOf 0xB6 gd 0 0 pp.val (lowR (srcCode a) 0 0 (bitsOf [(barCode bar, 2), (boolCode wo, 0)])))
  | .barx gd a bar arr => some (rawOf 0xB7 gd 0 0 0 (lowR (srcCode a) 0 0 (bitsOf [(barCode bar, 2), (boolCode arr, 0)])))
  | .spawn gd d a b => some (rawOf 0xB8 gd 0 0 (regNum d) (lowR (srcCode a) (srcCode b) 0 (bitsOf [(laneOf ([a] ++ [b]), 0)])))
  | .exit gd => some (rawOf 0xB9 gd 0 0 0 (lowR 0 0 0 (0)))
  | .enq gd d a => some (rawOf 0xBA gd 0 0 (regNum d) (lowR (srcCode a) 0 0 (bitsOf [(laneOf ([a]), 0)])))
  | .deq gd d a => some (rawOf 0xBB gd 0 0 (regNum d) (lowR (srcCode a) 0 0 (bitsOf [(laneOf ([a]), 0)])))
  | .rgn gd a n => some (rawOf 0xBC gd 0 0 0 (lowR (groupCode a) 0 0 (bitsOf [(n.val, 0)])))
  | .waitt gd a => some (rawOf 0xBD gd 0 0 0 (lowR (srcCode a) 0 0 (0)))
  | .cpy gd a b e bar => some (rawOf 0xC0 gd 0 0 0 (lowR (srcCode a) (srcCode b) (optSrcCode e.nbt) (bitsOf [(ecomCode e, 0), (optCode16 bar, 5)])))
  | .cpy2d gd a b e bar => some (rawOf 0xC1 gd 0 0 0 (lowR (srcCode a) (srcCode b) (optSrcCode e.nbt) (bitsOf [(ecomCode e, 0), (optCode16 bar, 5)])))
  | .tseal gd d a ppr kind => some (rawOf 0xC2 gd (boolCode d.wbs) d.rl.val (regNum d.reg) (lowR (srcCode a) 0 0 (bitsOf [(ppr.val, 8), (recKindCode kind, 4)])))
  | .tunsl gd a => some (rawOf 0xC3 gd 0 0 0 (lowR (srcCode a) 0 0 (0)))
  | .tcvp gd a b e fs sci => some (rawOf 0xC4 gd 0 0 0 (lowR (srcCode a) (srcCode b) (optSrcCode e.nbt) (bitsOf [(ecomCode e, 0), (fs.val, 11), (boolCode sci, 9)])))
  | .tmma gd a b e fs acc q => some (rawOf 0xC5 gd 0 0 0 (lowR (srcCode a) (srcCode b) (optSrcCode e.nbt) (bitsOf [(ecomCode e, 0), (fs.val, 11), (acc.val, 3), (boolCode q, 2)])))
  | .accz gd e acc => some (rawOf 0xC6 gd 0 0 0 (lowR 0 0 (optSrcCode e.nbt) (bitsOf [(ecomCode e, 0), (acc.val, 3)])))
  | .accld gd a e fs acc => some (rawOf 0xC7 gd 0 0 0 (lowR (srcCode a) 0 (optSrcCode e.nbt) (bitsOf [(ecomCode e, 0), (fs.val, 11), (acc.val, 3)])))
  | .accst gd a e fs acc => some (rawOf 0xC8 gd 0 0 0 (lowR (srcCode a) 0 (optSrcCode e.nbt) (bitsOf [(ecomCode e, 0), (fs.val, 11), (acc.val, 3)])))
  | .accadd gd a e acc => some (rawOf 0xC9 gd 0 0 0 (lowR (srcCode a) 0 (optSrcCode e.nbt) (bitsOf [(ecomCode e, 0), (acc.val, 3)])))
  | .accred gd a e fs acc col => some (rawOf 0xCA gd 0 0 0 (lowR (srcCode a) 0 (optSrcCode e.nbt) (bitsOf [(ecomCode e, 0), (fs.val, 11), (acc.val, 3), (boolCode col, 2)])))
  | .tselk gd a b e km1 => some (rawOf 0xCB gd 0 0 0 (lowR (srcCode a) (srcCode b) (optSrcCode e.nbt) (bitsOf [(ecomCode e, 0), (km1.val, 4)])))
  | .bankrun gd a b e => some (rawOf 0xCC gd 0 0 0 (lowR (srcCode a) (srcCode b) (optSrcCode e.nbt) (bitsOf [(ecomCode e, 0)])))
  | .bankst gd a b e => some (rawOf 0xCD gd 0 0 0 (lowR (srcCode a) (srcCode b) (optSrcCode e.nbt) (bitsOf [(ecomCode e, 0)])))
  | .walk gd a b e => some (rawOf 0xCE gd 0 0 0 (lowR (srcCode a) (srcCode b) (optSrcCode e.nbt) (bitsOf [(ecomCode e, 0)])))
  | .coll gd a e => some (rawOf 0xCF gd 0 0 0 (lowR (srcCode a) 0 (optSrcCode e.nbt) (bitsOf [(ecomCode e, 0)])))
  | .cksum gd a b e => some (rawOf 0xD0 gd 0 0 0 (lowR (srcCode a) (srcCode b) (optSrcCode e.nbt) (bitsOf [(ecomCode e, 0)])))
  | .gset gd slot => some (rawOf 0xD1 gd 0 0 0 (lowR 0 0 0 (bitsOf [(slot.val, 0)])))
  | .gres gd inv k slot => some (rawOf 0xD2 gd 0 0 0 (lowR 0 0 0 (bitsOf [(boolCode inv, 7), (k.val, 4), (slot.val, 0)])))
  | .waitcnt gd a n cls => some (rawOf 0xD3 gd 0 0 0 (lowR (optSrcCode a) 0 0 (bitsOf [(optBit a, 9), (n.val, 3), (engClassCode cls, 0)])))
  | .ecanc gd last cls => some (rawOf 0xD4 gd 0 0 0 (lowR 0 0 0 (bitsOf [(boolCode last, 3), (engClassCode cls, 0)])))
  | .tstat gd d sel => some (rawOf 0xD5 gd (boolCode d.wbs) d.rl.val (regNum d.reg) (lowR 0 0 0 (bitsOf [(sel.val, 0)])))
  | .trap gd imm => some (rawOf 0xE0 gd 0 0 0 (lowI 0 imm.toNat (0)))
  | .rte gd => some (rawOf 0xE1 gd 0 0 0 (lowR 0 0 0 (0)))
  | .rdsys gd d reg => some (rawOf 0xE2 gd (boolCode d.wbs) d.rl.val (regNum d.reg) (lowI 0 (sysRegNum reg) (0)))
  | .wrsys gd a reg => some (rawOf 0xE3 gd 0 0 0 (lowI (srcCode a) (sysRegNum reg) (0)))
  | .wsave gd => some (rawOf 0xE4 gd 0 0 0 (lowR 0 0 0 (0)))
  | .wrstr gd => some (rawOf 0xE5 gd 0 0 0 (lowR 0 0 0 (0)))
  | .bkpt gd imm => some (rawOf 0xE6 gd 0 0 0 (lowI 0 imm.toNat (0)))
  | .rdtime gd d => some (rawOf 0xE7 gd (boolCode d.wbs) d.rl.val (regNum d.reg) (lowR 0 0 0 (0)))
  | .cerq7Read gd d => some (rawOf 0xE2 gd (boolCode d.wbs) d.rl.val (regNum d.reg) (lowI 0 0x107 0))
  | .unassignedOpcode w => some (unpack w)
  | .cksumChunk _ => none
  | .chunkSend _ => none
  | .chunkReceive _ _ _ _ _ => none
  | .chunkReRequest _ _ _ => none
  | .chunkAcknowledge _ _ _ => none
  | .shapeReceive _ _ => none
  | .launchAcceptance => none
  | .eligibilityTest _ => none
  | .placementPass => none
  | .contextSaveStart _ => none
  | .contextSaveComplete _ => none
  | .launchEnd _ => none
  | .snapshotCopy _ _ => none
  | .wloadComplete _ => none
  | .fetchParityRefetch _ _ => none
  | .replayAdmission _ => none
  | .registerWriteComplete _ => none
  | .barwtDeadline _ => none
  | .waittExpiry _ => none
  | .cohortRelease _ => none
  | .windowAccessArrival _ => none
  | .windowAnswer _ => none
  | .subscriptionUpdate _ => none
  | .subscriptionInvalidation _ => none
  | .gateReleaseApply _ _ => none
  | .homeAccessPerform _ => none
  | .maintenanceComplete _ => none
  | .writeBackAccept _ => none
  | .weightRefreshEnd _ _ => none
  | .missTableWaitEnd _ => none
  | .translationShootdown _ => none
  | .rfqWaitEnd _ => none
  | .vnpChainTake _ => none
  | .install _ => none
  | .wake _ => none
  | .ownershipStep _ => none
  | .engineCommandStart _ _ => none
  | .notBeforeMet _ => none
  | .commandForward _ _ => none
  | .commandReport _ _ => none
  | .cancelStop _ => none
  | .cpyStep _ => none
  | .tcvpStep _ => none
  | .tmmaStep _ => none
  | .accCommandRun _ => none
  | .tselkRun _ => none
  | .bankRowStep _ => none
  | .bankEngineResume _ => none
  | .bankstSample _ _ => none
  | .walkStep _ => none
  | .walkOutput _ => none
  | .residueRetry _ _ _ _ => none
  | .l2Eviction _ => none
  | .memsideCapacityEviction _ => none
  | .weightRefreshStart _ _ => none
  | .pageWalk _ _ _ _ => none
  | .dirq _ _ _ _ => none
  | .directoryReply _ _ _ => none
  | .pageDataMessage _ _ _ _ => none
  | .stepTimeout _ => none
  | .faultHardTimeout _ => none
  | .declinedQueueForward _ => none
  | .leaseRenewal _ => none
  | .leaseLapse _ => none
  | .renewalRequest _ _ => none
  | .homeLeaseEnd _ _ => none
  | .downgrade _ _ => none
  | .revoke _ => none
  | .recallPage _ => none
  | .release _ _ => none
  | .writeBack _ _ _ _ => none
  | .clockEviction => none
  | .noFrameDecline _ => none
  | .collectiveNoProgress _ => none
  | .scanTest => none
  | .scanTestComplete _ => none
  | .patrolPassStart => none
  | .lehrSectorScrub _ => none
  | .passComplete => none
  | .rebuildLineMove _ _ => none
  | .rebuildComplete _ _ => none
  | .linkLaneMappedOut _ => none
  | .linkFailure _ => none
  | .flitRetry _ => none
  | .umrilMessageReceive _ => none
  | .planeHealthChange _ _ => none
  | .uetRetransmission _ => none
  | .ptpMessage _ => none
  | .offsetAlarm => none
  | .submit _ _ => none
  | .cancel _ _ => none
  | .bindQueue _ _ _ _ => none
  | .shoot _ _ _ _ => none
  | .wload _ _ _ _ _ => none
  | .grant _ _ _ _ _ => none
  | .retire _ _ _ => none
  | .pwrset _ _ _ => none
  | .powerGate _ => none
  | .powerReturnComplete _ => none
  | .dfrespRetry _ _ _ => none
  | .dfrespTrap _ _ _ => none
  | .dfrespAbort _ _ _ => none
  | .tableHmap _ _ => none
  | .tableMaddr _ _ => none
  | .tableFramePool _ _ _ => none
  | .paramAge _ _ => none
  | .paramLease _ _ => none
  | .paramPass _ _ => none
  | .paramTestInterval _ _ => none
  | .paramAlertThreshold _ _ _ => none
  | .mode _ _ _ _ => none
  | .fwdstep _ _ => none
  | .ectl _ _ _ _ => none
  | .counterClear _ _ => none
  | .invalidHostCommand _ _ => none
  | .thermalAlert _ _ _ => none
  | .thermalTrip _ _ _ => none
  | .powerUp _ => none
  | .pageReadRequest _ _ _ _ => none
  | .renewalReply _ _ => none
  | .sensorFallBelowThreshold _ _ _ => none

/-- The word of an instruction of the opcode map; none for a step that has no word, and for an ill-formed instruction. -/
def encode (i : Instr) : Option IWord := if wellFormed i then (rawOfInstr i).map pack else none

end Sys2Proof
end

