-- ==== Sys2Proof/Machine/Flags.lean ====
section
/-!
DEFINITION. Number formats, rounding and the sticky flags (02_number_formats): exact values, the encodings of R72 to R79, the
rounding of R80 to R84, the flush controls of R85 and the flags of R87. Every value is exact until one function rounds it.
-/

namespace Sys2Proof.Machine

/-! ### Flags -/

/-- A set of sticky flags in the layout of R31: NV, DZ, OF, UF, NX from bit 4 down. -/
abbrev FlagSet := BitVec 5

/-- No flag. -/
def noFlags : FlagSet := 0#5

/-- NV (R31). -/
def flagNV : FlagSet := 16#5

/-- DZ (R31). -/
def flagDZ : FlagSet := 8#5

/-- OF (R31). -/
def flagOF : FlagSet := 4#5

/-- UF (R31). -/
def flagUF : FlagSet := 2#5

/-- NX (R31). -/
def flagNX : FlagSet := 1#5

/-- A flag under a condition. -/
def flagIf (b : Bool) (f : FlagSet) : FlagSet := if b then f else 0#5

/-! ### Exact values -/

/-- An exact value: NaN, an infinity, or sign and magnitude n / d with d > 0 (a zero keeps its sign, R82). -/
inductive XVal where
  | nan
  | inf (neg : Bool)
  | fin (neg : Bool) (n d : Nat)
  deriving DecidableEq, Repr

/-- A zero of a sign. -/
def XVal.zero (neg : Bool) : XVal := .fin neg 0 1

/-- The value of an integer; 0 is +0. -/
def XVal.ofInt (i : Int) : XVal := .fin (decide (i < 0)) i.natAbs 1

/-- m x 2^e with a sign. -/
def XVal.scaled (neg : Bool) (m : Nat) (e : Int) : XVal :=
  if 0 ≤ e then .fin neg (m * 2 ^ e.toNat) 1 else .fin neg m (2 ^ (-e).toNat)

/-- Negation, exact, zeros and infinities included (R159). -/
def XVal.neg : XVal → XVal
  | .nan => .nan
  | .inf s => .inf (!s)
  | .fin s n d => .fin (!s) n d

/-- Negation under a modifier bit. -/
def XVal.negIf (b : Bool) (x : XVal) : XVal := if b then x.neg else x

/-- Whether a value is a zero. -/
def XVal.isZero : XVal → Bool
  | .fin _ n _ => n == 0
  | _ => false

/-- The sign of a value; NaN has none. -/
def XVal.isNeg : XVal → Bool
  | .nan => false
  | .inf s => s
  | .fin s _ _ => s

/-- A value times 2^e. -/
def XVal.shift (x : XVal) (e : Int) : XVal :=
  match x with
  | .fin s n d => if 0 ≤ e then .fin s (n * 2 ^ e.toNat) d else .fin s n (d * 2 ^ (-e).toNat)
  | y => y

/-- floor(log2(n / d)) for positive n and d. -/
def ilog2 (n d : Nat) : Int :=
  let e : Int := (n.log2 : Int) - (d.log2 : Int)
  let ok := if 0 ≤ e then d * 2 ^ e.toNat ≤ n else d ≤ n * 2 ^ (-e).toNat
  if ok then e else e - 1

/-! ### Encodings -/

/-- Fraction bits of a floating format (R72). -/
def fracBits : Fmt → Nat
  | .f32 => 23 | .f16 => 10 | .bf16 => 7 | .e4m3 => 3 | .e5m2 => 2 | .e2m1 => 1
  | _ => 0

/-- Exponent bits of a floating format (R72). -/
def expBits : Fmt → Nat
  | .f32 | .bf16 => 8 | .f16 | .e5m2 => 5 | .e4m3 => 4 | .e2m1 => 2
  | _ => 0

/-- Bias of a floating format (R72). -/
def fmtBias : Fmt → Nat
  | .f32 | .bf16 => 127 | .f16 | .e5m2 => 15 | .e4m3 => 7 | .e2m1 => 1
  | _ => 0

/-- Whether a format has infinities (R74). -/
def hasInf : Fmt → Bool
  | .f32 | .f16 | .bf16 | .e5m2 => true
  | _ => false

/-- The sign bit of a format as a weight. -/
def signBit (f : Fmt) : Nat := 2 ^ (f.bits - 1)

/-- The positive infinity (R74). -/
def infBits (f : Fmt) : Nat := (2 ^ expBits f - 1) * 2 ^ fracBits f

/-- The largest finite encoding (R74). -/
def maxBits (f : Fmt) : Nat :=
  match f with
  | .e4m3 => 0x7E
  | .e2m1 => 0x7
  | f => infBits f - 1

/-- The canonical NaN (R74, R75); e2m1 has none and takes +0 (R83). -/
def nanBits (f : Fmt) : Nat :=
  match f with
  | .e4m3 => 0x7F
  | .e2m1 => 0
  | .e8m0 => 0xFF
  | f => infBits f + 2 ^ (fracBits f - 1)

/-- The value of a floating encoding (R73, R74). -/
def decodeFloat (f : Fmt) (v : Nat) : XVal :=
  let m := fracBits f
  let s := decide (signBit f ≤ v % 2 ^ f.bits)
  let e := v / 2 ^ m % 2 ^ expBits f
  let fr := v % 2 ^ m
  if hasInf f && e == 2 ^ expBits f - 1 then (if fr = 0 then .inf s else .nan)
  else if f = .e4m3 && e == 15 && fr == 7 then .nan
  else if e = 0 then .scaled s fr (1 - (fmtBias f : Int) - m)
  else .scaled s (2 ^ m + fr) ((e : Int) - fmtBias f - m)

/-- The value of an e8m0 byte (R76). -/
def decodeScale (x : Nat) : XVal := if x = 0xFF then .nan else .scaled false 1 ((x : Int) - 127)

/-- The integer of an encoding (R71). -/
def decodeInt (f : Fmt) (v : Nat) : Int :=
  let u := v % 2 ^ f.bits
  if f.isSigned && decide (2 ^ (f.bits - 1) ≤ u) then (u : Int) - 2 ^ f.bits else u

/-- The value of an element of any format but lc2 (R71 to R76). -/
def decodeFmt (f : Fmt) (v : Nat) : XVal :=
  if f.isInt then .ofInt (decodeInt f v)
  else if f = .e8m0 then decodeScale (v % 256)
  else decodeFloat f v

/-- Whether an encoding is a subnormal of f32, f16 or bf16: the values the flush controls touch (R85). -/
def flushable (f : Fmt) (v : Nat) : Bool :=
  (f = .f32 || f = .f16 || f = .bf16) && v / 2 ^ fracBits f % 2 ^ expBits f == 0 && v % 2 ^ fracBits f != 0

/-- Input flush (R85): a subnormal of f32, f16 or bf16 reads as a zero of its sign. -/
def readFlushed (ifl : Bool) (f : Fmt) (v : Nat) : XVal :=
  if ifl && flushable f v then .zero (decide (signBit f ≤ v % 2 ^ f.bits)) else decodeFmt f v

/-! ### Rounding -/

/-- How a value between two grid values is decided: a mode of R80, or the stochastic rule of R84 with its operand. -/
inductive RMethod where
  | mode (m : RMode)
  | stoch (rnd : Word)
  deriving DecidableEq, Repr

/-- The integer that q + r / d is rounded to, for 0 ≤ r < d. -/
def roundStep (rm : RMethod) (neg : Bool) (q r d : Nat) : Nat :=
  match rm with
  | .mode .rne => if d < 2 * r || (2 * r == d && q % 2 == 1) then q + 1 else q
  | .mode .rz => q
  | .mode .ru => if r ≠ 0 && !neg then q + 1 else q
  | .mode .rd => if r ≠ 0 && neg then q + 1 else q
  | .stoch rnd =>
    let f := r * 65536 / d
    if f ≠ 0 && decide (65536 - f ≤ rnd.toNat / 65536) then q + 1 else q

/-- n / d rounded to a multiple of 2^t: the multiple, and whether it is exact. -/
def roundAt (rm : RMethod) (neg : Bool) (n d : Nat) (t : Int) : Nat × Bool :=
  let n' := if 0 ≤ t then n else n * 2 ^ (-t).toNat
  let d' := if 0 ≤ t then d * 2 ^ t.toNat else d
  (roundStep rm neg (n' / d') (n' % d') d', n' % d' == 0)

/-- An encoding with its flags. -/
structure Rounded where
  bits : Nat
  flags : FlagSet
  deriving DecidableEq, Repr

/-- Exponent of the lowest normal (R72). -/
def minExp (f : Fmt) : Int := 1 - (fmtBias f : Int)

/-- The encoding of k x 2^t on a format's grid, exponent unbounded above; k has at most fracBits + 1 bits or is the power of
two above them. -/
def placeBits (f : Fmt) (k : Nat) (t : Int) : Nat :=
  let m := fracBits f
  if k < 2 ^ m then k
  else
    let e := t + m + fmtBias f
    if k = 2 ^ (m + 1) then (e + 1).toNat * 2 ^ m else e.toNat * 2 ^ m + (k - 2 ^ m)

/-- Whether an overflow of a sign goes to infinity (R81). -/
def overflowsToInf (f : Fmt) (rm : RMethod) (sat neg : Bool) : Bool :=
  hasInf f && !sat &&
  match rm with
  | .mode .rne | .stoch _ => true
  | .mode .rz => false
  | .mode .ru => !neg
  | .mode .rd => neg

/-- Rounding of a non-zero finite magnitude n / d (R81, R84) with the flags of R87. -/
def roundFinite (f : Fmt) (rm : RMethod) (sat neg : Bool) (n d : Nat) : Rounded :=
  let m : Int := fracBits f
  let e := ilog2 n d
  let t := max e (minExp f) - m
  let (k, exact) := roundAt rm neg n d t
  let (ku, _) := roundAt rm neg n d (e - m)
  let sgn := if neg then signBit f else 0
  let bits := placeBits f k t
  let tiny := decide (e < minExp f) && !(e + 1 == minExp f && ku == 2 ^ (fracBits f + 1))
  if maxBits f < bits then
    { bits := sgn + (if overflowsToInf f rm sat neg then infBits f else maxBits f), flags := flagOF ||| flagNX }
  else
    { bits := sgn + bits, flags := flagIf (tiny && !exact) flagUF ||| flagIf (!exact) flagNX }

/-- RoundF to a floating format, with the special values of R82 and R83. -/
def roundFloat (f : Fmt) (rm : RMethod) (sat : Bool) (x : XVal) : Rounded :=
  match x with
  | .nan => { bits := nanBits f, flags := flagIf (f = .e2m1) flagNV }
  | .inf s =>
    let sgn := if s then signBit f else 0
    if hasInf f then { bits := sgn + infBits f, flags := noFlags }
    else { bits := sgn + maxBits f, flags := flagOF ||| flagNX }
  | .fin s n d => if n = 0 then { bits := if s then signBit f else 0, flags := noFlags } else roundFinite f rm sat s n d

/-- Output flush (R85). -/
def flushOut (ofl : Bool) (f : Fmt) (r : Rounded) : Rounded :=
  if ofl && flushable f r.bits then
    { bits := if signBit f ≤ r.bits then signBit f else 0, flags := r.flags ||| flagUF ||| flagNX }
  else r

/-- Rounding to e8m0 by magnitude (R77). -/
def roundScale (rm : RMethod) (x : XVal) : Rounded :=
  match x with
  | .nan => { bits := 0xFF, flags := noFlags }
  | .inf _ => { bits := 0xFF, flags := flagNV }
  | .fin _ n d =>
    if n = 0 then { bits := 0, flags := flagUF ||| flagNX }
    else
      let e := ilog2 n d
      -- n / d against 2^e and 1.5 x 2^e
      let n' := if 0 ≤ e then n else n * 2 ^ (-e).toNat
      let d' := if 0 ≤ e then d * 2 ^ e.toNat else d
      let exact := n' == d'
      let up := !exact &&
        match rm with
        | .mode .ru => true
        | .mode .rne | .stoch _ => decide (3 * d' < 2 * n') || (2 * n' == 3 * d' && decide ((e + 127) % 2 ≠ 0))
        | .mode .rz | .mode .rd => false
      let b : Int := (if up then e + 1 else e) + 127
      if b < 0 then { bits := 0, flags := flagUF ||| flagNX }
      else if 254 < b then { bits := 0xFE, flags := flagOF ||| flagNX }
      else { bits := b.toNat, flags := flagIf (!exact) flagNX }

/-- The least and the greatest value of an integer format (R71). -/
def intMin (f : Fmt) : Int := if f.isSigned then -(2 ^ (f.bits - 1)) else 0

/-- The greatest value of an integer format (R71). -/
def intMax (f : Fmt) : Int := if f.isSigned then 2 ^ (f.bits - 1) - 1 else 2 ^ f.bits - 1

/-- The encoding of an integer in a format, modulo 2^w (R13). -/
def encodeInt (f : Fmt) (i : Int) : Nat := (i % 2 ^ f.bits).toNat

/-- A value rounded to an integer by a mode. -/
def roundToInt (rm : RMethod) (neg : Bool) (n d : Nat) : Int × Bool :=
  let (k, exact) := roundAt rm neg n d 0
  (if neg then -(k : Int) else k, exact)

/-- Rounding to an integer target (R83). clampFlags is what a finite value beyond the range sets: NV, or OF and NX under
QNT (R175). -/
def roundInt (f : Fmt) (rm : RMethod) (clampFlags : FlagSet) (x : XVal) : Rounded :=
  match x with
  | .nan => { bits := 0, flags := flagNV }
  | .inf s => { bits := encodeInt f (if s then intMin f else intMax f), flags := flagNV }
  | .fin s n d =>
    let (i, exact) := roundToInt rm s n d
    if i < intMin f then { bits := encodeInt f (intMin f), flags := clampFlags }
    else if intMax f < i then { bits := encodeInt f (intMax f), flags := clampFlags }
    else { bits := encodeInt f i, flags := flagIf (!exact) flagNX }

/-- Rounding to any target of CVT (R169), with output flush. -/
def roundFmt (f : Fmt) (rm : RMethod) (sat ofl : Bool) (x : XVal) : Rounded :=
  if f.isInt then roundInt f rm flagNV x
  else if f = .e8m0 then roundScale rm x
  else flushOut ofl f (roundFloat f rm sat x)

/-! ### Exact operations -/

/-- An exact result with the flags of the operation itself. -/
structure OpResult where
  val : XVal
  flags : FlagSet := 0#5
  deriving DecidableEq, Repr

/-- The invalid operation: NaN with NV (R75). -/
def invalidOp : OpResult := { val := .nan, flags := flagNV }

/-- Sign of an exact zero sum of operands of opposite sign (R82). -/
def zeroSumNeg (rm : RMode) : Bool := decide (rm = .rd)

/-- Sum of two values (R82). -/
def addX (rm : RMode) (x y : XVal) : OpResult :=
  match x, y with
  | .nan, _ | _, .nan => { val := .nan }
  | .inf s, .inf t => if s = t then { val := .inf s } else invalidOp
  | .inf s, .fin .. => { val := .inf s }
  | .fin .., .inf t => { val := .inf t }
  | .fin s n d, .fin t m e =>
    let a : Int := (if s then -1 else 1) * (n * e : Nat)
    let b : Int := (if t then -1 else 1) * (m * d : Nat)
    let v := a + b
    if v = 0 then { val := .zero (if s = t then s else zeroSumNeg rm) }
    else { val := .fin (decide (v < 0)) v.natAbs (d * e) }

/-- Product of two values. -/
def mulX (x y : XVal) : OpResult :=
  match x, y with
  | .nan, _ | _, .nan => { val := .nan }
  | .inf s, .inf t => { val := .inf (s != t) }
  | .inf s, .fin t m _ => if m = 0 then invalidOp else { val := .inf (s != t) }
  | .fin s n _, .inf t => if n = 0 then invalidOp else { val := .inf (s != t) }
  | .fin s n d, .fin t m e => { val := .fin (s != t) (n * m) (d * e) }

/-- Whether a product is zero times infinity. -/
def mulInvalid (x y : XVal) : Bool :=
  match x, y with
  | .inf _, .fin _ m _ => m == 0
  | .fin _ n _, .inf _ => n == 0
  | _, _ => false

/-- Fused multiply and add: invalid on zero times infinity even when the addend is NaN (R161). -/
def fmaX (rm : RMode) (x y z : XVal) : OpResult :=
  if mulInvalid x y then invalidOp else addX rm (mulX x y).val z

/-- Quotient of two values; DZ for a finite non-zero value by zero (R161). -/
def divX (x y : XVal) : OpResult :=
  match x, y with
  | .nan, _ | _, .nan => { val := .nan }
  | .inf _, .inf _ => invalidOp
  | .inf s, .fin t _ _ => { val := .inf (s != t) }
  | .fin s _ _, .inf t => { val := .zero (s != t) }
  | .fin s n d, .fin t m e =>
    if m = 0 then (if n = 0 then invalidOp else { val := .inf (s != t), flags := flagDZ })
    else { val := .fin (s != t) (n * e) (d * m) }

/-- Integer square root, one bit a step from bit k down. -/
def isqrtFrom (n : Nat) : Nat → Nat → Nat
  | 0, r => r
  | k + 1, r => let r' := r + 2 ^ k; isqrtFrom n k (if r' * r' ≤ n then r' else r)

/-- floor(sqrt n) for n below 2^1400. -/
def isqrt (n : Nat) : Nat := isqrtFrom n 700 0

/-- A value that rounds, at every grid of at least 2^-200, as the square root of n / d does: the root where it is a multiple
of 2^-201, else a point inside the gap that holds it. -/
def sqrtX (n d : Nat) : XVal :=
  let k := 201
  let v := n * 4 ^ k / d
  let r := isqrt v
  if r * r * d = n * 4 ^ k then .fin false r (2 ^ k) else .fin false (2 * r + 1) (2 ^ (k + 1))

/-- Order of two finite or infinite values: the sign of x - y (R137); zeros are equal. -/
def cmpX (x y : XVal) : Option Ordering :=
  match x, y with
  | .nan, _ | _, .nan => none
  | .inf s, .inf t => some (if s = t then .eq else if s then .lt else .gt)
  | .inf s, .fin .. => some (if s then .lt else .gt)
  | .fin .., .inf t => some (if t then .gt else .lt)
  | .fin s n d, .fin t m e =>
    let a : Int := (if s then -1 else 1) * (n * e : Nat)
    let b : Int := (if t then -1 else 1) * (m * d : Nat)
    some (compare a b)

/-- Sum of exact products and an addend (R165): NaN when any term or the addend is NaN or the operation is invalid; invalid,
with NV, when a product is zero times infinity or both infinities occur among the exact terms. -/
def sumX (rm : RMode) (terms : List OpResult) (c : XVal) : OpResult :=
  let vals := c :: terms.map OpResult.val
  let bad := terms.any (fun t => t.flags ≠ 0#5) || (vals.contains (.inf false) && vals.contains (.inf true))
  if bad then invalidOp
  else { val := terms.foldl (fun acc t => (addX rm acc t.val).val) c }

/-- Element k of a packed value (R70). -/
def elemOf (f : Fmt) (v k : Nat) : Nat := v / 2 ^ (f.bits * k) % 2 ^ f.bits

/-- The comparison encoding of an element value at a subscription format (R92): no flush, no flag. -/
def cmpEncode (src : Fmt) (f : SubFmt) (v : Nat) : Nat :=
  let tgt (g : Fmt) := (roundFloat g (.mode .rne) false (decodeFmt src v)).bits
  match f with
  | .f32 => tgt .f32
  | .f16 => tgt .f16
  | .bf16 => tgt .bf16
  | .e4m3 => tgt .e4m3
  | .e5m2 => tgt .e5m2
  | .native => v

/-- The eight weights of an lc2 index in quarter units (R78, R79). -/
def lcWeight (idx i : Nat) : Int :=
  let b (k : Nat) := idx / 2 ^ k % 2
  let sg := if i = 7 then (b 1 + b 2 + b 3 + b 4 + b 5 + b 6 + b 7) % 2 else b (1 + i)
  (if sg = 1 then -1 else 1) * ((2 * b (8 + i) + 1 : Nat) : Int) * 2 - (b 0 : Nat)

end Sys2Proof.Machine
end

