-- ==== Sys2Proof/Config.lean ====
section
/-!
DEFINITION. What an implementation fixes and the spec leaves open: free values, each an opaque constant that no proof can
see into. A field of the state counts the draws of those that differ from use to use.
-/

namespace Sys2Proof.Config

/-- The approximated functions of R163. -/
inductive ApproxFn where | frsq | fexp2 | flog2 | fsin | fcos | ftanh
  deriving DecidableEq, Repr

/-- The result bits of an approximated function on an operand's bits, before the bound of R163 is applied: the design of the
function units fixes them, and the spec lists them nowhere (log entry 11). -/
opaque approxBits : ApproxFn → Word → Word

/-- A byte of the weight store that nothing has loaded since power-up (R288), by die and offset (log entry 7). -/
opaque weightByte : Nat → Nat → Byte

/-- Whether a read of a dead predicate gives the value last written rather than 0 (R33; log entry 5): by the thread's number, the
lines it has left, its PC and the predicate. -/
opaque deadKept : Nat → Nat → Nat → Nat → Bool

/-- Whether a byte that an earlier step of a copy has written over is read as it stood before the command (R403; log entry 24): by the
command, its step and the byte's place in it. -/
opaque copyOld : Nat → Nat → Nat → Bool

/-- The instruction word that the trap record of the n-th refused fetch holds: no word was fetched (R434; log entry 21). -/
opaque fetchWord : Nat → IWord

/-- What a cache of more lines than it can hold replaces, at the n-th choice (R254; log entry 64). -/
opaque victim : Nat → Nat

/-- A byte of a sector's ciphertext under a generation of keys (R488): AES-256-XTS under keys that the IOD draws and keeps (log entry
12). -/
opaque cipherByte : Nat → Nat → Nat → List Byte → Byte

/-- The integrity tag of a sector's ciphertext under a generation of keys, at its address and key version (R488; log entry 12). -/
opaque sectorTag : Nat → Nat → Nat → List Byte → BitVec 40

/-- The two check symbols over 38 byte symbols (R487, R488): the spec does not give the code (log entry 12). -/
opaque sectorEcc : List Byte → BitVec 16

/-- The n-th pick among things that the spec lets the device choose from (R483; log entry 10). -/
opaque freePick : Nat → Nat

/-- Millionths of a tick by which a tick's period is corrected (R520; log entry 50), before the bound of 100. -/
opaque slewPpm : Nat

end Sys2Proof.Config
end

