-- ==== Sys2Proof/Machine/State.lean ====
section
/-!
DEFINITION. The state of the machine as plain data: threads, cohorts, teams, launches, partitions and the units around them
(00 to 25), the outcomes a step can stop with, and the state after reset. Fields that are the model's own and not the
spec's say so.
-/

namespace Sys2Proof.Machine

/-! ### Tables -/

/-- A finite table: pairs of key and value, the first pair of a key counting. -/
abbrev Tbl (κ α : Type) := List (κ × α)

/-! ### Threads -/

/-- A place a register write goes to: a g-register, an entry of the register stack (R26) or an s-register. -/
inductive RegCell where
  | g (n : Fin 16)
  | stk (n : Nat)
  | s (n : Fin 32)
  deriving DecidableEq, Repr

/-- A register write that an instruction has issued and that has not completed (R25): its number, the cells its values go
to in order, and for each whether a later write of the thread has taken its place. -/
structure Pend where
  id : Nat
  cells : List RegCell
  live : List Bool
  deriving DecidableEq, Repr

/-- One thread's value of a forward latch (R18, R58, R59); pend is a captured register whose write is outstanding (R56), token a
captured s-register that the completion token of an execution will write (R353). -/
inductive Latch where
  | invalid
  | valid (v : Word)
  | pend (id : Nat) (part : Nat)
  | token (n : Fin 32) (exec : Nat)
  deriving DecidableEq, Repr

/-- What a thread waits for at its instruction (R183, R189). -/
inductive WaitWhy where
  /-- a full/empty word of its own allocation (R323): scratch word offset and its place in the waiter list -/
  | word (off : Nat)
  /-- an owner's answer to a window access (R560) -/
  | window (id : Nat)
  /-- the words of a frame that WRSTR loads (R152) -/
  | frame (id : Nat)
  /-- a PTC time (R228) -/
  | time (t : DWord)
  /-- the second copy of a fetch line (R37) -/
  | refetch (line : Pc)
  /-- entries of the miss table or the fault queue (R463, R467) -/
  | missTable
  | rfq (die : Nat)
  /-- the host's debugger (R153) -/
  | debug
  /-- room for commands in an engine queue and its counter (R346), a count of at most n (R415), a guard slot (R413) -/
  | queue (cls : EngClass) (n : Nat)
  | count (cls : EngClass) (n : Nat)
  | slot (n : Fin 16)
  deriving DecidableEq, Repr

/-- A barrier of the machine: a level, its owner and its number (R206). -/
inductive BarOwner where
  | cohort (c : CohId)
  | team (t : TeamId)
  | cluster (lid k4 : Nat)
  deriving DecidableEq, Repr

/-- A barrier by its owner and number. -/
structure BarKey where
  owner : BarOwner
  num : Fin 16
  deriving DecidableEq, Repr

/-- Why a thread is Blocked (R183). deadline is BARWT's, with the predicate pair it reports in (R221); held is a second arrival of BARA
or BARX.arr in a phase, which waits for that phase to complete (R207, R220; log entry 65). -/
inductive BlockWhy where
  | conv
  | bar (b : BarKey) (phase : Nat) (deadline : Option (DWord × Fin 4))
  | held (b : BarKey) (phase : Nat)
  deriving DecidableEq, Repr

/-- What the first slot of a pair leaves a thread to do once the second has taken effect (R189): a barrier's phase, a time, the
join it sleeps for, or an arrival, at the next slot or past a join. -/
inductive Owed where
  | bar (b : BarKey) (phase : Nat) (deadline : Option (DWord × Fin 4))
  | held (b : BarKey) (phase : Nat)
  | time (t : DWord)
  | conv (join : Pc)
  | arrive
  | past (pc : Pc)
  deriving DecidableEq, Repr

/-- The status of a thread (R183). A thread seated in the gather table or its queue is Ready or Waiting by what its
instruction awaits; wait, beside the status, names an event that it awaits. arriving is the moment of R185. -/
inductive Status where
  | seated
  | arriving
  | inRun
  | blocked (why : BlockWhy)
  | parked
  | waiting
  | exited
  deriving DecidableEq, Repr

/-- How a thread came to stand at its PC: what R37, R38 check when it enters the slot there. -/
inductive EntryKind where
  /-- an entry that needs no check: within the line, or one R38 exempts -/
  | free
  /-- by fall-through into a new line (R37) -/
  | line
  /-- by a taken transfer, at a launch's entry, or a return to a changed PC (R38) -/
  | transfer
  deriving DecidableEq, Repr

/-- A run kept across a trap or a park (R62): its latches and the slots it had counted (R188). -/
structure Kept where
  latches : Vector Latch 4
  rsl : Nat
  deriving DecidableEq, Repr

/-- One thread (R18, R150, R434). -/
structure Thread where
  pc : Pc
  g : Vector Word 16
  stack : List Word
  wb : Nat
  wres : Nat
  wdep : Nat
  preds : BitVec 8
  /-- live bit of each predicate (R455) -/
  live : BitVec 8
  /-- its number among the threads placed, and the lines it has left: the model's own fields, which tell the free values of its dead
  predicates apart (R33) -/
  num : Nat
  left : Nat
  latches : Vector Latch 4
  flg : BitVec 5
  spa : Pc
  trw : Vector Word 16
  epc : Pc
  /-- the thread is in a trap handler (R438) -/
  hnd : Bool
  /-- the resume PC that delivery placed, which an unchanged return is told by (R62): the model's own field -/
  resume : Pc
  status : Status
  wait : Option WaitWhy
  entry : EntryKind
  /-- what a pair's first slot left to do, with the PC of its second (R189) -/
  owed : Option (Pc × Owed)
  /-- a run to continue at the thread's PC (R62) -/
  kept : Option Kept
  /-- the run its record was taken in, for a return to the unchanged PC (R62) -/
  record : Option Kept
  pends : List Pend
  /-- accesses and atomics that a FENCE.rel holds later synchronising writes for (R310) -/
  fence : List Nat
  /-- outstanding writes that are synchronising reads (R310) -/
  syncReads : List Nat
  /-- translation traps that the host ordered for a page (R486): address space and page -/
  replayTrap : List (Nat × Nat)
  /-- a pair's second slot at which its retry fails (R444), with the unit; and that its run has been stopped at its end for a save
  (R450, R454): the model's own -/
  failing : Option (Pc × Nat)
  stopped : Bool
  deriving DecidableEq, Repr

/-! ### Cohorts -/

/-- An entry of the convergence stack (R199), with the threads of its mask that have arrived (R201). -/
structure ConvEntry where
  join : Pc
  mask : BitVec 32
  arrived : BitVec 32
  deriving DecidableEq, Repr

/-- A completion token's claim on an s-register (R353), with what the reported commands of its execution have come to (R354). -/
structure Claim where
  reg : Fin 32
  exec : Nat
  stat : Nat
  count : Nat
  deriving DecidableEq, Repr

/-- One cohort: its s-registers, outstanding counters, token claims and convergence stack (R18, R199, R350, R353). -/
structure Cohort where
  part : PartId
  /-- first entry of its register slice (R182) -/
  slice : Nat
  s : Vector Word 32
  counters : Vector Nat 6
  /-- s-registers that a command's completion token claims (R353) -/
  claims : List Claim
  pends : List Pend
  /-- top entry first -/
  conv : List ConvEntry
  deriving DecidableEq, Repr

/-! ### Barriers -/

/-- One barrier (R206 to R208, R222): the phase, the members arrived in it, the arrivals held for the next phase, the
phase of each member's last arrival, the pending-byte counter, and by phase the writes that must perform before it
completes (R311). -/
structure Barrier where
  phase : Nat
  arrived : List Tid
  held : List Tid
  last : List (Tid × Nat)
  bytes : Int
  waits : List (Nat × Nat)
  deriving DecidableEq, Repr

/-! ### Teams -/

/-- A peer window (R263): base offset in units of 128 bytes, open, and the single writer's rank where SWE = 1. -/
structure Window where
  off : BitVec 13
  opened : Bool
  writer : Option (Fin 8)
  deriving DecidableEq, Repr

/-- A guard slot's state (R355): open (00), resolved true (01) or resolved false (10). -/
inductive GuardSt where | unset | yes | no
  deriving DecidableEq, Repr

/-! ### Sealed records -/

/-- A sealed tensor or scale-tile record with the element format its slot gave at sealing (R397, R398). -/
structure TensorRec where
  base : Nat
  rows : Nat
  cols : Nat
  rstr : Nat
  lay : Nat
  planes : Nat
  elem : Fmt
  deriving DecidableEq, Repr

/-- A sealed walk descriptor (R399). -/
structure WalkRec where
  nb : Nat
  nab : Nat
  rs : Nat
  doff : Nat
  noff : Nat
  steps : Nat
  deriving DecidableEq, Repr

/-- A step word of a bank microprogram (R384); wide says f32. -/
inductive BankStep where
  | load (d : Fin 8) (k : Fin 4)
  | scale (d a : Fin 8) (wide : Bool) (k : Fin 8)
  | add (d a b : Fin 8) (wide : Bool)
  | store (a : Fin 8) (k : Fin 4)
  | adv
  deriving DecidableEq, Repr

/-- A sealed bank microprogram (R384, R400): its steps, streams by channel select and start row, and constants. -/
structure BankRec where
  rows : Nat
  cols : Nat
  steps : List BankStep
  streams : List (Nat × Nat)
  consts : List Word
  deriving DecidableEq, Repr

/-- The injection of a collective descriptor (R538). -/
structure Injection where
  chunk : Nat
  step : Nat
  word : Nat
  mask : Word
  deriving DecidableEq, Repr

/-- Operations of a collective (R525). -/
inductive CollOp where | allReduce | reduceScatter | allGather | broadcast
  deriving DecidableEq, Repr

/-- A sealed collective descriptor (R527). -/
structure CollRec where
  buf : Nat
  cid : Nat
  nch : Nat
  dt : Nat
  mbase : Nat
  mcnt : Nat
  dmask : Nat
  op : CollOp
  elem : Fmt
  rop : RedOp
  root : Nat
  inject : Option Injection
  deriving DecidableEq, Repr

/-- The checked record of a handle-table entry (R361). -/
inductive SealedRec where
  | tensor (t : TensorRec)
  | scale (t : TensorRec)
  | walk (w : WalkRec)
  | bank (m : BankRec)
  | coll (d : CollRec)
  deriving DecidableEq, Repr

/-- A handle-table entry (R361): its generation, and the record sealed in it while it is valid. -/
structure Handle where
  gen : BitVec 16
  record : Option SealedRec
  deriving DecidableEq, Repr

/-- An access that waits for a scratch word's state (R324): a thread's own, or a peer's window store. -/
inductive WordWaiter where
  | take (t : Tid) (keep : Bool) (d : Dest) (lead : Bool)
  | fill (t : Tid) (v : Word)
  | peer (id : Nat)
  deriving DecidableEq, Repr

/-- Where a team stands with pre-emption (R449, R450): running, chosen at a tick and running on, saving, or discarded and
waiting for its last writes. -/
inductive Preempt where
  | no
  | chosen (tick : Nat)
  | saving
  | discarded
  deriving DecidableEq, Repr

/-- One resident team (R181, R256, R260, R263, R267, R355, R361, R446). -/
structure Team where
  core : CoreId
  base : Fin 8
  /-- first byte of its allocation in the core's scratchpad (R247) -/
  scrBase : Nat
  k2 : Fin 8
  k4 : Nat
  stage : Nat
  /-- the module's number when the team was placed, k8 (R21) -/
  k8 : Nat
  /-- scratch bytes that are not 0, by offset -/
  scratch : List Host.Cell
  /-- offsets of the full scratch words -/
  full : List Nat
  waiters : List (Nat × WordWaiter)
  windows : Vector Window 16
  guards : Vector GuardSt 16
  handles : List Handle
  /-- accumulator elements that are not +0, at tile x 4096 + 64 x row + col -/
  tiles : List (Nat × Word)
  restartable : Bool
  /-- the cycle of its last closing instruction (R446): the model's own -/
  closed : Option Nat
  regionPc : Pc
  slots : Vector Word 4
  /-- NaN blocks (R373) and ignored resolutions (R414) -/
  nanBlocks : Word
  ignored : Word
  preempt : Preempt
  /-- the first number that its accesses can have had since it was placed or restored (R302): the model's own -/
  edge : Nat
  deriving DecidableEq, Repr

/-! ### Launches -/

/-- A format slot (R232). -/
structure FormatSlot where
  valid : Bool
  elem : Fmt
  scale : Option Bool
  block : Nat
  rm : RMode
  planes : Nat
  deriving DecidableEq, Repr

/-- A stage descriptor (R234). -/
structure StageDesc where
  spc : Pc
  floor : Nat
  deriving DecidableEq, Repr

/-- A launch record as the CP holds it (R231 to R234). -/
structure LaunchRec where
  entry : Pc
  cpt : Nat
  tpc : Nat
  ncl : Nat
  regs : Nat
  acc : Nat
  gsl : Nat
  scr : Nat
  obar : Nat
  tbar : Nat
  cbar : Nat
  hndl : Nat
  gates : Nat
  queue : Nat
  prio : Nat
  repl : Bool
  /-- TEN, in the layout of R31 -/
  ten : BitVec 5
  ofl : Bool
  ifl : Bool
  sigp : Nat
  waits : List (Nat × Nat)
  args : Vector Word 16
  fmts : Vector FormatSlot 8
  stages : List StageDesc
  deriving DecidableEq, Repr

/-- Kinds of region (R269). -/
inductive RegKind where | plain | subscribed | memside | weight | discard
  deriving DecidableEq, Repr

/-- A region-table entry (R268). -/
structure Region where
  base : Nat
  limit : Nat
  kind : RegKind
  dom : Dom
  inst : Nat
  gate : Nat
  nonIdem : Bool
  untagged : Bool
  deriving DecidableEq, Repr

/-- A thread of a save image (R453): its record in the layout of R454, and what that layout has no field for, as why it is Blocked. -/
structure SavedThread where
  tid : Tid
  record : List Byte
  rest : Thread
  deriving DecidableEq, Repr

/-- The sections of a save image, in order (R453). -/
inductive ImageSection where | threads | cohorts | engine | tiles | handles | scratch | header
  deriving DecidableEq, Repr

/-- A saved team (R453) or the resume words of a discarded one (R447). An image has the records of its threads not Exited, its cohorts,
and its team, whose tiles, handle table, scratch and header it holds; its engine state stays in the command lists. layout gives the
place and the size of each section. left are its exited threads, whose registers a permuted read may yet name (R196; log entry 67). -/
inductive SavedTeam where
  | restart (k3 : Nat) (regionPc : Pc) (slots : Vector Word 4)
  | image (k3 : Nat) (team : Team) (threads : List SavedThread) (cohorts : List (Nat × Cohort)) (bars : List (BarKey × Barrier))
      (layout : List (ImageSection × Nat × Nat)) (left : List (Tid × Thread))
  | done (k3 : Nat)
  deriving DecidableEq, Repr

/-- A pre-empted cluster that waits to be placed again (R251): the state of each team by rank, and the PTC at which its last
team left. -/
structure SavedCluster where
  k4 : Nat
  teams : List (Fin 8 × SavedTeam)
  since : Nat
  deriving DecidableEq, Repr

/-- Where a launch stands (R238 to R241). -/
inductive LaunchState where
  | queued
  | eligible
  /-- its end is due; ok marks a normal end -/
  | ending (ok : Bool)
  deriving DecidableEq, Repr

/-- The place of one team (R247): its core, base partition, scratch run and the register slice of each cohort. -/
structure Place where
  core : CoreId
  base : Fin 8
  scrBase : Nat
  slices : List Nat
  deriving DecidableEq, Repr

/-- A placed cluster: its teams' places in rank order, whether it stands in a floor placement (R248), its place in the order
of placements (R250), the hardware cluster it stands on, and, once it is a victim, the teams that have left it. -/
structure PlacedCluster where
  k4 : Nat
  places : List Place
  floor : Bool
  order : Nat
  die : Nat
  hw : Nat
  victim : Bool
  gone : List (Fin 8 × SavedTeam)
  deriving DecidableEq, Repr

/-- A floor placement that is reserved and not in use (R248). -/
structure Floor where
  die : Nat
  hw : Nat
  places : List Place
  deriving DecidableEq, Repr

/-- A 64-byte item of a stage queue (R249). -/
abbrev QueueItem := List Byte

/-- One stage of a launch; a launch that is no pipeline has one (R237, R249). -/
structure StageRun where
  lid : Nat
  entry : Pc
  /-- clusters placed so far, and clusters ended -/
  nextK4 : Nat
  ended : Nat
  placed : List PlacedCluster
  saved : List SavedCluster
  floors : List Floor
  /-- its input queue -/
  items : List QueueItem
  deriving DecidableEq, Repr

/-- A page of a replayable launch's snapshot (R499): its frame, its bytes that are not 0, and whether a sector of it was
poisoned. -/
structure SnapPage where
  page : Nat
  cells : List Host.Cell
  poison : Bool
  deriving DecidableEq, Repr

/-- A launch: the record as held (R231), its tables (R268, R436), and its stages. -/
structure Launch where
  desc : LaunchRec
  asid : Nat
  /-- root table of its queue's binding at acceptance (R457) -/
  root : Option Nat
  regions : List Region
  /-- the handler PC of each class with V = 1 -/
  tvt : List (Nat × Pc)
  state : LaunchState
  /-- it has left the head of its queue (R239) -/
  left : Bool
  /-- bank engines granted to it at acceptance (R382) -/
  grant : List BankId
  /-- wait-signal addresses whose metadata failure has been reported (R242) -/
  told : List Nat
  /-- the PTC at which its never-placed clusters became placeable (R246) -/
  since : Nat
  /-- its record as the CP read it, for a replay (R500) -/
  record : List Byte
  stages : List StageRun
  /-- a pipeline's floors are reserved (R248); true from the start for a launch that is none -/
  admitted : Bool
  /-- dies where it has reserved its gates (R243) -/
  gateDies : List Nat
  /-- undelivered traps counted beyond the one reported (R441) -/
  trapCount : Nat
  /-- replayable still (R498), replayed once (R500), and its snapshot (R499) -/
  replayable : Bool
  replayed : Bool
  snapshot : List SnapPage
  deriving DecidableEq, Repr

/-! ### Issue -/

/-- An entry of a gather table (R184). late orders the entries of one age that came from the arrival queue, 0 for one that did
not (R185). -/
structure GEntry where
  idx : Nat
  team : TeamId
  pc : Pc
  tids : List Tid
  age : Nat
  late : Nat
  deriving DecidableEq, Repr

/-- A run in progress (R41, R187, R188). -/
structure Run where
  tids : List Tid
  pc : Pc
  rsl : Nat
  start : Nat
  deriving DecidableEq, Repr

/-- A replayed group (R191). -/
structure Replay where
  tids : List Tid
  pc : Pc
  admitted : Option Nat
  deriving DecidableEq, Repr

/-- A partition's issue state (R184, R185, R191): queue holds threads with the cycles they arrived in, and retry a thread of the
group whose execution issues again after a residue mismatch (R444). -/
structure Part where
  entries : List GEntry
  queue : List (Tid × Nat)
  runs : List Run
  replays : List Replay
  /-- cycles of the last admissions -/
  admissions : List Nat
  retry : Option Tid
  deriving DecidableEq, Repr

/-- The issue in progress: the group an instruction executes for, its word and place. The model's own field. -/
structure Issue where
  part : PartId
  pc : Pc
  word : IWord
  tids : List Tid
  /-- the second slot of a pair (R434, P2) -/
  second : Bool
  /-- slots of the run issued before this one (R188) -/
  rsl : Nat
  /-- the slot's template code (R40) -/
  tpl : Nat
  /-- the line's dead-predicate mask (R32) -/
  dpm : BitVec 8
  deriving DecidableEq, Repr

/-- A thread that waits inside its slot (R189): the issue it waits in, and the pair's second slot that follows it. The
model's own. -/
structure Late where
  tid : Tid
  issue : Issue
  second : Option Issue
  deriving DecidableEq, Repr

/-- A trap that is not delivered (R441), with the latches of its record, whose outstanding values are filled in as they come
(R434). -/
structure TrapReport where
  tid : Tid
  core : CoreId
  part : Nat
  record : Vector Word 16
  latches : Vector Latch 4
  deriving DecidableEq, Repr


/-! ### Memory levels -/

/-- A valid sector of a home L2 slice (R284): 32 bytes, dirty and poison bits. -/
structure L2Sector where
  data : List Byte
  dirty : Bool
  poison : Bool
  deriving DecidableEq, Repr

/-- A counted line of a memory-side cache (R290): its reader count, and its sectors that have been written since it was counted, each
with its bytes and its poison, over DRAM. -/
structure Counted where
  count : Nat
  sectors : Tbl Nat (List Byte × Bool)
  deriving DecidableEq, Repr

/-- An L1 sector by its core, address space and virtual address / 32 (R276). -/
structure L1Key where
  core : CoreId
  asid : Nat
  sector : Nat
  deriving DecidableEq, Repr

/-- A domain instance of a launch (R270): the agents that a broadcast of its region goes to. -/
structure Audience where
  lid : Nat
  dom : Dom
  inst : Nat
  deriving DecidableEq, Repr

/-- A subscription of a core (R277): its format, its region's domain instance, and the comparison encodings of the elements of the
sectors it holds, by sector of the tile. -/
structure Subscription where
  core : CoreId
  lid : Nat
  asid : Nat
  /-- virtual and physical address of the tile -/
  va : Nat
  pa : Nat
  fmt : SubFmt
  audience : Audience
  sectors : List (Nat × List Nat)
  deriving DecidableEq, Repr

/-- A directory entry of a tile (R278): its sharers with their formats, or broadcast mode, and its region's domain instance. -/
structure DirTile where
  pa : Nat
  sharers : List (CoreId × SubFmt)
  broadcast : Bool
  audience : Audience
  deriving DecidableEq, Repr

/-- The operation of an atomic at its home (R338): the width is the access's. -/
inductive AtomOp where
  | add | min (sg : Bool) | max (sg : Bool) | logic (op : LogOp) | xch | cas (new : Nat) | fadd (f : AtFmt) | inc | dec
  deriving DecidableEq, Repr

/-- What an elementary access does at its home (R298, R338, R290). -/
inductive AccOp where
  | load
  /-- LDSUB at a format; reg where the core holds the tile at it (R329) -/
  | loadSub (f : SubFmt) (reg : Bool)
  | store (data : List Byte) (alloc : Bool)
  | atomic (op : AtomOp) (v : Nat)
  /-- LDRC: a load that counts the line down for its thread -/
  | loadCount
  /-- STRC: a store that sets the line's count -/
  | storeCount (data : List Byte) (k : Nat)
  deriving DecidableEq, Repr

/-- Where a returned value goes: the outstanding write, how the bytes become words (R146), and where the access is one of several whose
values come together (R148, R152, R258), its place among them. -/
structure RetTo where
  pend : Nat
  ext : LdSize
  part : Option Nat := none
  deriving DecidableEq, Repr

/-- The values of several accesses that come together (R148, R152, R258): the outstanding write that they are for, its thread, how the
bytes become words, and those that have come. -/
structure Gather where
  id : Nat
  tid : Tid
  ext : LdSize
  parts : List (Option (List Byte))
  /-- the page of a translated load (R464) -/
  page : Option PageKey := none
  deriving DecidableEq, Repr

/-- What a later pass of a scratch instruction does for one lane (R258): it reads bytes, writes them, or takes or fills a full/empty
word (R323). -/
inductive PassOp where
  | read (n : Nat) (ret : RetTo)
  | write (bs : List Byte)
  | take (keep trap : Bool) (d : Dest) (lead : Bool)
  | fill (v : Word) (mode : FillMode)
  deriving DecidableEq, Repr

/-- One lane's part in a later pass of a scratch instruction (R258): the cycle of the pass, the lane's thread, and the offset in its
team's allocation. exec tells the instructions apart. -/
structure ScratchPass where
  due : Nat
  exec : Nat
  tid : Tid
  off : Nat
  op : PassOp
  deriving DecidableEq, Repr

/-- An elementary access on its way to its home (R284, R289, R298). after are accesses that perform before it (R310). -/
structure Access where
  id : Nat
  tid : Tid
  core : CoreId
  asid : Nat
  va : Nat
  pa : Nat
  size : Nat
  op : AccOp
  memside : Bool
  /-- its gate and domain, for the waits of R307 and R310 -/
  gate : Nat
  dom : Dom
  ret : Option RetTo
  after : List Nat
  /-- the bytes that a reading access found at its home when it was checked, with what has been written there since: what it gives
  where its sector is poisoned by its turn (R490; log entry 20). The model's own -/
  seen : List Byte
  /-- the execution that it belongs to, by its first access's number, and the block of bytes that the coalescer requests for it, by
  address and length (R295) -/
  exec : Nat
  req : Nat × Nat
  /-- a store whose execution covers its sector whole (R490, R295) -/
  whole : Bool
  /-- the page whose translation miss it holds a table entry for (R463) -/
  miss : Option Nat
  deriving DecidableEq, Repr

/-- A value on its way back to registers (R25). -/
structure Arrival where
  pend : Nat
  tid : Tid
  words : List Word
  /-- die and bank of a weight-store piece (R286) -/
  bank : Option (Nat × Nat)
  /-- the page of a translated load (R464) -/
  page : Option PageKey := none
  deriving DecidableEq, Repr

/-- A notification on its way to a sharer (R279): an update with the element values written, or an invalidation of sectors. -/
structure Notice where
  id : Nat
  core : CoreId
  pa : Nat
  update : Bool
  /-- element index of the tile and its new value -/
  elems : List (Nat × Nat)
  /-- sectors of the tile that the write touched -/
  sectors : List Nat
  /-- the write that waits for its acknowledgement (R307) -/
  access : Nat
  tid : Option Tid
  deriving DecidableEq, Repr

/-- Kinds of cache maintenance (R332). -/
inductive MaintKind where | clean | inval | discard
  deriving DecidableEq, Repr

/-- A maintenance instruction that runs in the background (R332): virtual start, physical start and length of each
piece it acts on. -/
structure Maint where
  id : Nat
  tid : Tid
  /-- the core that issued it, whose L1 it acts on -/
  core : CoreId
  kind : MaintKind
  asid : Nat
  ranges : List (Nat × Nat × Nat)
  deriving DecidableEq, Repr

/-- A maintenance write-back on its way to a base die (R331). -/
structure WriteBackMsg where
  id : Nat
  tid : Tid
  sector : Nat
  data : List Byte
  poison : Bool
  deriving DecidableEq, Repr

/-- What an owner answers to a window access (R264, R326). -/
inductive WinAnswer where
  | data (bytes : List Byte)
  | stored
  | refused
  | wouldWait
  deriving DecidableEq, Repr

/-- A window access (R326, R560): on its way to the owner, waiting at a word, or answered. -/
structure WinAccess where
  id : Nat
  tid : Tid
  owner : TeamId
  rank : Fin 8
  win : Fin 16
  off : Int
  size : Nat
  /-- the bytes of a store with its mode; none for a load -/
  store : Option (List Byte × FillMode)
  /-- a load's destination; lead says that it may yet write an s-register (R23) -/
  dest : Option (Dest × LdSize × Bool)
  /-- the execution that it belongs to: its first access's number -/
  exec : Nat
  arrived : Bool
  /-- the place in the owner's allocation that it was accepted at (R265) -/
  place : Option Nat
  answer : Option WinAnswer
  deriving DecidableEq, Repr

/-- A leaf a TLB holds (R462). -/
structure TlbEntry where
  asid : Nat
  /-- VA / 65,536 of its first page, and its pages: 1 or 4,096 -/
  vpn : Nat
  pages : Nat
  pte : Nat
  deriving DecidableEq, Repr

/-- A translation shootdown in progress (R464): accesses translated through removed entries must perform first. -/
structure Shootdown where
  id : Nat
  asid : Nat
  vpn : Nat
  pages : Nat
  waits : List Nat
  /-- the host command that asked for it -/
  seq : Option Word
  deriving DecidableEq, Repr

/-- A gate of a launch (R304): RV, RI and CNT at the home, and the replicas by die. -/
structure Gate where
  lid : Nat
  num : Nat
  rv : Bool
  ri : Nat
  cnt : Word
  /-- die, RV, RI, CNT -/
  replicas : List (Nat × Bool × Nat × Word)
  deriving DecidableEq, Repr

/-- A release on its way to its home (R307). -/
structure Release where
  id : Nat
  lid : Nat
  num : Nat
  tid : Tid
  core : CoreId
  part : Nat
  ri : Nat
  /-- writes that precede it (R307), and the cycle in which it has reached its home -/
  waits : List Nat
  arrived : Option Nat
  deriving DecidableEq, Repr

/-- The memory system. -/
structure MemSys where
  /-- DRAM bytes that are not 0 -/
  dram : List Host.Cell
  l2 : Tbl Nat L2Sector
  counted : Tbl Nat Counted
  /-- other sectors that the memory-side caches hold, clean (R289) -/
  held : Tbl Nat (List Byte)
  /-- the physical sector and the bytes -/
  l1 : Tbl L1Key (Nat × List Byte)
  /-- fetch lines that a core holds, by core and physical line (R39) -/
  lines : Tbl (CoreId × Nat) (List Byte)
  subs : List Subscription
  dir : List DirTile
  accesses : List Access
  arrivals : List Arrival
  gathers : List Gather
  passes : List ScratchPass
  notices : List Notice
  maints : List Maint
  writeBacks : List WriteBackMsg
  windows : List WinAccess
  /-- weight-store bytes loaded since power-up, by die (R287, R288) -/
  weights : Tbl Nat (List (Nat × Byte))
  /-- banks in their refresh window, by die (R285) -/
  refreshing : List (Nat × Nat)
  /-- weight-store pieces that wait for their bank's window to end (R286) -/
  weightReads : List Arrival
  coreTlb : Tbl CoreId (List TlbEntry)
  dieTlb : Tbl Nat (List TlbEntry)
  shootdowns : List Shootdown
  gates : List Gate
  releases : List Release
  deriving DecidableEq, Repr

/-- Empty caches, no access in flight. -/
def MemSys.reset : MemSys :=
  { dram := [], l2 := [], counted := [], held := [], l1 := [], lines := [], subs := [], dir := [], accesses := [], arrivals := [],
    gathers := [], passes := [], notices := [], maints := [], writeBacks := [], windows := [], weights := [], refreshing := [], weightReads := [], coreTlb := [],
    dieTlb := [], shootdowns := [], gates := [], releases := [] }

/-! ### Reliability -/

/-- An error report record (R502), by its fields. -/
structure ErrRec where
  kind : Nat
  pa : Nat
  ptc : Nat
  loc : Nat
  drop : Nat
  deriving DecidableEq, Repr

/-- What is wrong with a DRAM sector or a weight-store granule that is not clean (R489, R491): one symbol, which its ECC corrects, or
more. -/
inductive Health where | oneSymbol | broken
  deriving DecidableEq, Repr

/-- A stripe row of a channel group (R292, R293, R496), of the layout of R292 or of a retired group's. -/
structure Stripe where
  stack : Nat
  group : Nat
  row : Nat
  moved : Bool
  deriving DecidableEq, Repr

/-- A retired channel group of a stack (R495 to R497): the channel, its donors, the rebuild boundary in stripe rows, and
whether the rebuild has ended. -/
structure Retired where
  stack : Nat
  group : Nat
  channel : Nat
  donors : List Nat
  boundary : Nat
  done : Bool
  deriving DecidableEq, Repr

/-- A unit out of service (R445, R501). -/
inductive Outage where
  | bank (b : BankId)
  | walker (stack : Nat)
  | collective (die : Nat)
  deriving DecidableEq, Repr

/-- Protection, the lehr, retirement, scan test and reports (20). -/
structure Reliability where
  /-- the sideband of each DRAM sector written since power-up (R487), and the parity sectors of their stripes with theirs (R293, R488) -/
  side : Tbl Nat DWord
  parity : Tbl Stripe (List Byte × DWord)
  /-- data and parity sectors that are not clean -/
  sick : Tbl Nat Health
  sickParity : Tbl Stripe Health
  /-- write version, the generation of the live keys of each version, and how many generations there have been (R493) -/
  vw : Nat
  keys : Vector (Option Nat) 4
  keyGen : Nat
  /-- length of a pass in hours, whether one runs, and when it began -/
  passHours : Nat
  passing : Bool
  passStart : Nat
  /-- the array sectors that the pass has visited, as ranges (R492) -/
  visited : List (Nat × Nat)
  /-- Poisoned or Rebuilt outcomes of the pass by stack and channel (R495) -/
  bad : Tbl (Nat × Nat) Nat
  retired : List Retired
  /-- stack and channel in degraded service (R495) -/
  degraded : List (Nat × Nat)
  reports : List ErrRec
  dropped : Nat
  fenced : List CoreId
  /-- dies whose sectors' keys P5 has lost (R554) -/
  keyless : List Nat
  out : List Outage
  /-- minutes between tests, 0 off; the PTC of the last; the hardware cluster to take next; the one drained (R501) -/
  testMinutes : Nat
  lastTest : Nat
  nextCluster : Nat × Nat
  draining : Option (Nat × Nat)
  /-- pages free in the snapshot pool (R499) and save areas free (R453) -/
  snapFree : Nat
  saveFree : Nat
  /-- weight-store granules that are not clean (R491), by die and granule -/
  weightSick : Tbl (Nat × Nat) Health
  deriving DecidableEq, Repr

/-- Protection as reset leaves it: every sector clean, no keys, a 24-hour pass, a 15-minute test interval. -/
def Reliability.reset : Reliability :=
  { side := [], parity := [], sick := [], sickParity := [], vw := 0, keys := Vector.replicate 4 none, keyGen := 0, passHours := 24,
    passing := false, passStart := 0, visited := [], bad := [], retired := [],
    degraded := [], reports := [], dropped := 0, fenced := [], keyless := [], out := [], testMinutes := 15, lastTest := 0,
    nextCluster := (0, 0), draining := none, snapFree := 0, saveFree := 0, weightSick := [] }

/-! ### Remote paging -/

/-- STATE of a park record that is not free (R468); a saved one keeps the reason it was declined for, and whether the host has answered
it since (R486). -/
inductive ParkState where | waiting | installed | declined (reason : Nat) | answered | saved (was : Option Nat) (answered : Bool)
  deriving DecidableEq, Repr

/-- A park record (R467, R468). Its latches, validity and run length stay with its threads. touch are the threads whose access
touches its page; group links the records of one group; order is its place among arrivals. -/
structure ParkRec where
  die : Nat
  idx : Nat
  key : PageKey
  va : Nat
  lid : Nat
  tids : List Tid
  touch : List Tid
  pc : Pc
  kind : AccKind
  part : PartId
  tarr : Nat
  order : Nat
  group : Nat
  st : ParkState
  /-- its entry in the declined-fault queue (R485) -/
  asked : Option Nat
  deriving DecidableEq, Repr

/-- Where the service of a page chain stands (R474). -/
inductive ChainState where
  | arrived
  /-- DIRQ sent: whether for writing -/
  | directory (write : Bool)
  /-- page data asked for: the messages that have arrived, and whether ownership was granted -/
  | fetch (src : PageSource) (lease : Nat) (owned : Bool) (got : List (Nat × List Byte))
  /-- the frame holds the data; none where the page is held and only W is to be set -/
  | install (frame : Option Nat) (src : PageSource) (lease : Nat) (owned : Bool)
  | wake
  deriving DecidableEq, Repr

/-- A page chain in service (R470, R474, R475): its first record's place among arrivals, queue and root table (R559), the step's sequence
number, when it was sent, its retries, and the first record's tick. -/
structure Chain where
  key : PageKey
  first : Nat
  queue : Nat
  root : Option Nat
  st : ChainState
  seq : Nat
  sent : Nat
  retries : Nat
  since : Nat
  /-- waits for a frame since (R483) -/
  frameWait : Option Nat
  deriving DecidableEq, Repr

/-- A frame of the pool that holds a page (R480, R482, R483): owned, or under a lease. -/
structure Frame where
  frame : Nat
  key : PageKey
  root : Nat
  owned : Bool
  lease : Nat
  /-- a renewal that is asked for: its sequence number, when it was sent, and its retries (R475) -/
  renewing : Option (Nat × Nat × Nat)
  src : PageSource
  deriving DecidableEq, Repr

/-- A directory entry of this home (R472), by its fields: the sharers are SH0 to SH7 as far as NSH. -/
structure DirEntry where
  state : Nat
  owner : Nat
  locm : Nat
  ver : Nat
  locf : Nat
  sharers : List Nat
  locator : Locator
  deriving DecidableEq, Repr

/-- What a home asks a module that holds a page for (R481, R482). -/
inductive HomeAsk where | revoke | recall | downgrade (lease : Nat)
  deriving DecidableEq, Repr

/-- A module that a home waits for: what it asked, its sequence number, when it was sent, and its retries (R475). -/
structure HomeWait where
  module : Nat
  ask : HomeAsk
  seq : Nat
  sent : Nat
  retries : Nat
  deriving DecidableEq, Repr

/-- What a module asks a home for (R474, R480): the page to read or to write, or a renewal. -/
inductive ReqKind where | read | write | renew
  deriving DecidableEq, Repr

/-- A request this home serves or holds for its key (R484): the module, what it asks for, its sequence number, whether it has a VNP thread
(R470), and the modules it waits for. -/
structure DirReq where
  key : PageKey
  src : Nat
  kind : ReqKind
  seq : Nat
  begun : Bool
  waits : List HomeWait
  deriving DecidableEq, Repr

/-- A write-back that is not acknowledged (R484): where to and what, the frame that it frees, what follows it (the home's sequence
number for an acknowledgement, else RELEASE), and its step (R475). -/
structure WriteOut where
  key : PageKey
  dest : PageSource
  data : List Byte
  frame : Option Nat
  tell : Option Nat
  seq : Nat
  sent : Nat
  retries : Nat
  deriving DecidableEq, Repr

/-- A message of the VNP to another module or a storage server (R473 to R484), with its step's sequence number (R475). -/
inductive VnpMsg where
  | dirq (home : Nat) (key : PageKey) (write : Bool) (seq : Nat)
  | pageRead (src : PageSource) (key : PageKey) (seq : Nat)
  | reply (module : Nat) (key : PageKey) (seq : Nat) (r : DirReply)
  | pageData (module : Nat) (key : PageKey) (seq idx : Nat) (data : List Byte)
  | ask (module : Nat) (key : PageKey) (a : HomeAsk) (seq : Nat)
  | ack (module : Nat) (key : PageKey) (seq : Nat)
  | renew (home : Nat) (key : PageKey) (seq : Nat)
  | renewed (module : Nat) (key : PageKey) (seq tick : Nat)
  | release (home : Nat) (key : PageKey) (seq : Nat)
  | writeBack (dest : PageSource) (key : PageKey) (seq : Nat) (data : List Byte)
  deriving DecidableEq, Repr

/-- A declined-fault entry (R485); id, which tells the entries apart, is the model's own. -/
structure Declined where
  id : Nat
  va : Nat
  asid : Nat
  rfqi : Nat
  die : Nat
  kind : AccKind
  reason : Nat
  lid : Nat
  tids : List Tid
  pc : Pc
  deriving DecidableEq, Repr

/-- Remote faults and the Virga network processor (19). hand is the frame that the clock's hand stands before (R483). -/
structure Vnp where
  /-- park records in order of arrival -/
  rfq : List ParkRec
  declined : List Declined
  chains : List Chain
  frames : List Frame
  pool : List Nat
  low : Nat
  hand : Nat
  leaseLen : Nat
  hmap : List Nat
  /-- the directory's area in DRAM (R472): where it begins, and its entries; and when the leases that this home has granted end (R480) -/
  dirArea : Option (Nat × Nat)
  leases : Tbl (PageKey × Nat) Nat
  reqs : List DirReq
  writeOuts : List WriteOut
  /-- messages sent, newest last -/
  sent : List VnpMsg
  seq : Nat
  deriving DecidableEq, Repr

/-- The VNP after reset: a lease of 10 ms (R480), no pool, no hash map. -/
def Vnp.reset : Vnp :=
  { rfq := [], declined := [], chains := [], frames := [], pool := [], low := 0, hand := 0, leaseLen := 10000000,
    hmap := [], dirArea := none, leases := [], reqs := [], writeOuts := [], sent := [], seq := 0 }

/-! ### Engines -/

/-- What a command does, with the operands, records and formats that it captured (R347). -/
inductive CmdOp where
  | cpy (dst src : TensorRec) (bar : Option (Fin 16))
  | cpy2d (dst src : TensorRec) (bar : Option (Fin 16))
  | tcvp (planes scale src : TensorRec) (srcScale : Option TensorRec)
  /-- quarter is Q of a quarter form; hB and sB are B's handles and fs the slot number, by which quarters fuse (R378) -/
  | tmma (a aScale b bScale : TensorRec) (tile : Fin 128) (quarter : Option (Fin 4)) (hB sB : Word) (fs : Fin 8)
  | accz (tile : Fin 128)
  | accld (tile : Fin 128) (t : TensorRec)
  | accst (tile : Fin 128) (t : TensorRec) (rm : RMode)
  | accadd (tile src : Fin 128)
  | accred (tile : Fin 128) (t : TensorRec) (rm : RMode) (col : Bool)
  | tselk (x r : TensorRec) (k : Nat)
  | bankrun (m : BankRec) (stack first count : Nat)
  | bankst (r : TensorRec) (stack first count : Nat)
  | walk (w : WalkRec) (v seed : Word) (out : Nat)
  | coll (d : CollRec)
  | cksum (src dst : TensorRec)
  deriving DecidableEq, Repr

/-- Where a command stands: in its list, running, or ended with a status and not reported (R351, R352). -/
inductive CmdSt where
  | queued
  | running
  | ended (stat : Nat)
  deriving DecidableEq, Repr

/-- An engine command (R343 to R370). -/
structure Command where
  id : Nat
  coh : CohId
  core : CoreId
  cls : EngClass
  op : CmdOp
  /-- the execution that issued it (R354) -/
  exec : Nat
  token : Option (Fin 32)
  guard : Option (Fin 16)
  notBefore : Option DWord
  /-- its not-before time has not been met (R358) -/
  held : Bool
  /-- it has been forwarded from a core-side queue (R344) -/
  forwarded : Bool
  st : CmdSt
  /-- steps completed (R365) and progress (R343) -/
  step : Nat
  count : Nat
  /-- the command at whose head it was fused (R378): its own, once it has become the head of its team's list -/
  fuse : Option Nat
  /-- an engine that it names has stopped with a fault (R410, R411) -/
  bad : Bool
  /-- cancelled and not yet stopped (R366) -/
  cancelled : Bool
  /-- no report follows (R368, R369) -/
  mute : Bool
  deriving DecidableEq, Repr

/-- A bank engine's standing with its present command (R386, R411). -/
inductive BankSt where | idle | waiting | running | suspended
  deriving DecidableEq, Repr

/-- A bank engine (R382, R385, R386): the commands that have arrived, the first of which is its present one, and the state
of that one. -/
structure BankEng where
  queue : List Nat
  st : BankSt
  mpc : Nat
  row : Nat
  acc : Vector (List Byte) 8
  susp : Nat
  /-- the PTC of the last ordinary request on its channels -/
  quiet : Nat
  deriving DecidableEq, Repr

/-- The read that a walk's step makes next (R388): the degree, the first neighbour's index once the degree is known, or the neighbour
at an address. -/
inductive WalkRead where
  | degree
  | offset (deg : Nat)
  | neighbour (va : Nat)
  deriving DecidableEq, Repr

/-- A walk in progress (R387 to R389): the walker of the stack that it reads next, if that read has a translation, its place in the order
of arrivals there, its next read, the register x, the vertices taken, and once it has stopped the address that stopped it. -/
structure WalkRun where
  stack : Option Nat
  since : Nat
  read : WalkRead
  x : Word
  out : List Word
  isOver : Bool
  stop : Option Nat
  deriving DecidableEq, Repr

/-- A participant's collective in progress (R529 to R540). -/
structure CollRun where
  rank : Nat
  /-- chunks final, sent, and verified, by step and chunk -/
  sent : List (Nat × Nat)
  got : List (Nat × Nat)
  /-- stored checksums by chunk (R531) -/
  sums : Tbl Nat Nat
  /-- retained copies by step and chunk, with their checksums -/
  kept : Tbl (Nat × Nat) (List Byte × Nat)
  /-- re-requests made, by step and chunk -/
  asked : Tbl (Nat × Nat) Nat
  shapeSent : Bool
  shapeIn : Bool
  /-- it met a mismatch or served a re-request (R537) -/
  tainted : Bool
  /-- PTC of its last progress (R540) -/
  last : Nat
  deriving DecidableEq, Repr

/-- What collective engines send each other (R531 to R533): to a module and die, about a collective. -/
inductive CollMsg where
  | shape (cid : Nat) (words : List Nat)
  | chunk (cid step chunk : Nat) (data : List Byte) (sum : Nat)
  | ack (cid step chunk : Nat)
  | again (cid step chunk : Nat)
  deriving DecidableEq, Repr

/-- A message between collective engines with its destination and source, module and die each. -/
structure CollSend where
  dst : Nat × Nat
  src : Nat × Nat
  msg : CollMsg
  deriving DecidableEq, Repr

/-- A launch's collective error queue on a die (R534, R535): the records, the number of the next, and those dropped since. -/
structure ErrQueue where
  records : List (Vector Word 8)
  next : Nat
  dropped : Nat
  deriving DecidableEq, Repr

/-- The engines. -/
structure Engines where
  /-- every command that is not reported, oldest first -/
  cmds : List Command
  /-- the team served last by core and class (R344) -/
  turns : Tbl (CoreId × EngClass) TeamId
  /-- partial sums of the slab in progress by command: element and block at (64 m + n) x 16 + b (R376) -/
  slabs : Tbl Nat (List Int)
  banks : Tbl BankId BankEng
  walks : Tbl Nat WalkRun
  /-- bytes that a copy's steps have written over, as they stood before it, by command: in scratch or in memory, and the address
  (R403) -/
  copied : Tbl Nat (Tbl (Bool × Nat) Byte)
  colls : Tbl Nat CollRun
  /-- commands that run to completion without their team, each with the team as it left its core (R364, R368, R369) -/
  ghosts : Tbl Nat Team
  msgs : List CollSend
  errs : Tbl (Nat × Nat) ErrQueue
  deriving DecidableEq, Repr

/-- The first key version generated (R550, R493). -/
def Reliability.firstKeys (r : Reliability) : Reliability := { r with keys := #v[some 0, none, none, none], keyGen := 1 }

/-- No command. -/
def Engines.reset : Engines :=
  { cmds := [], turns := [], slabs := [], banks := [], walks := [], copied := [], colls := [], ghosts := [], msgs := [], errs := [] }

/-! ### The command processor and the host -/

/-- A SPAWN whose record the CP has not read (R224): the spawning thread, its outstanding write, the record's address, the
argument word, and the thread's accesses that perform first. -/
structure Spawn where
  tid : Tid
  pend : Nat
  asid : Nat
  root : Option Nat
  va : Nat
  arg : Word
  after : List Nat
  deriving DecidableEq, Repr

/-- A weight load that waits or runs (R287, R552). -/
structure WLoad where
  seq : Word
  die : Nat
  off : Nat
  pa : Nat
  len : Nat
  deriving DecidableEq, Repr

/-- A record of the report ring (R553). -/
inductive HostReport where
  /-- an undelivered trap (R441): launch, thread, place, its record with its latches, and how many others there were -/
  | trap (lid : Nat) (tid : Tid) (core : CoreId) (record : Vector Word 16) (latches : Vector Latch 4) (others : Nat)
  /-- a metadata failure (R242) -/
  | metadata (lid addr : Nat)
  /-- a thermal alert (R555) -/
  | thermal (die sensor celsius : Nat)
  /-- a thread halted at BKPT with the debugger armed (R153): its PC and tag -/
  | debug (tid : Tid) (pc : Pc) (tag : Word)
  /-- the clock alarm of R522 -/
  | clock (offset : Int)
  deriving DecidableEq, Repr

/-- The command processor (08, 25). -/
structure Cp where
  idCounter : Nat
  credit : Vector Nat 64
  cursor : Vector Nat 4
  ageMs : Nat
  lastDie : Option Nat
  order : Nat
  spawns : List Spawn
  wloads : List WLoad
  /-- engines granted to a queue on a stack: first and count (R552) -/
  grants : Tbl (Nat × Nat) (Nat × Nat)
  /-- collective test mode and debug armed, by queue (R552) -/
  modes : Tbl Nat (Bool × Bool)
  /-- host commands that wait in the ring, and completions: sequence number and status (R552) -/
  ring : List Instr
  completions : List (Word × Nat)
  reports : List HostReport
  deriving DecidableEq, Repr

/-- The CP after reset. -/
def Cp.reset : Cp :=
  { idCounter := 0, credit := Vector.replicate 64 0, cursor := Vector.replicate 4 0, ageMs := 10, lastDie := none, order := 0,
    spawns := [], wloads := [], grants := [], modes := [], ring := [], completions := [], reports := [] }

/-- An event counter (R557): its 48-bit count and its control word; and, the model's own, the cycle of its last CLR. -/
structure EvCounter where
  count : BitVec 48
  ctl : Word
  cleared : Option Nat
  deriving DecidableEq, Repr

/-- A power state's change in progress or reached (R554). -/
structure Power where
  state : Nat
  /-- the scope is entering P3 and gates when its last team has left -/
  gating : Bool
  /-- a return from P4 or P5 has not completed: the state it returns from, and the sequence number of the PWRSET that it completes -/
  returning : Option (Nat × Word)
  deriving DecidableEq, Repr

/-- The clock's discipline (R519 to R522): the port that the host has selected, the rank of the grandmaster in the best master clock
algorithm, a Sync that has arrived (its number and its arrival), a peer-delay request that has been answered (its sending, its receipt
and the answer's arrival), the delay of the link, and millionths of a tick slewed beyond whole ones. -/
structure Clock where
  port : Nat
  rank : Option Nat
  sync : Option (Nat × Nat)
  asked : Option (Nat × Nat × Nat)
  delay : Int
  slew : Nat
  locked : Bool
  /-- it has locked once since power-up -/
  everLocked : Bool
  grandmaster : Nat
  offset : Int
  /-- PTC at which lock was lost -/
  lostAt : Nat
  /-- the alarm of R522 has been reported -/
  alarm : Bool
  deriving DecidableEq, Repr

/-- A die-to-die link (R507, R510): lanes mapped out, failed, flits sent again. -/
structure Link where
  mapped : Nat
  failed : Bool
  retries : Nat
  deriving DecidableEq, Repr

/-- A Umril message to another module that UET has not acknowledged (R514, R516): its destination, class, length where the spec gives its
payload, tag and sequence number; its place among the RUD messages of its step or chunk; and the plane that carries it, none while it
is not sent. -/
structure Flight where
  dst : Nat
  cls : Nat
  len : Option Nat
  tag : Nat
  seq : Nat
  n : Nat
  plane : Option Nat
  deriving DecidableEq, Repr

/-- Boot, power, thermal limits, clock, fabric and counters (22, 25). -/
structure Module where
  /-- boot status word (R551), and the fused rollback counter (R550) -/
  boot : Word
  booted : Bool
  rollback : Nat
  power : Tbl PwrScope Power
  /-- alert threshold of dies 0 to 3 and the IOD, 4 (R555) -/
  threshold : Vector Nat 5
  /-- sensors that have written an alert and not fallen since -/
  alerted : List (Nat × Nat)
  clock : Clock
  links : Tbl LinkId Link
  /-- healthy planes, ascending, and the messages that are on their way (R516) -/
  planes : List Nat
  flights : List Flight
  /-- module and plane to address (R513) -/
  maddr : List (Nat × Nat × Nat)
  /-- messages accepted, for the units that take them (R515) -/
  inbox : List Umril
  counters : Tbl (CtrPlace × Nat) EvCounter
  deriving DecidableEq, Repr

/-- The module right after reset: the boot ROM has not run (R550). -/
def Module.reset : Module :=
  { boot := 0#32, booted := false, rollback := 0, power := [], threshold := Vector.replicate 5 95, alerted := [],
    clock := { port := 0, rank := none, sync := none, asked := none, delay := 0, slew := 0, locked := false, everLocked := false,
               grandmaster := 0, offset := 0, lostAt := 0, alarm := false }, links := [],
    planes := List.range 16, flights := [], maddr := [], inbox := [], counters := [] }

/-! ### What happens next -/

/-- What happens next: an event of a unit, the fabric or the host, a partition's issue, or time. The model's own. -/
inductive Turn where
  | event (i : Instr)
  | issue (p : PartId)
  | pass (ticks : Nat)
  /-- a core's L1 replaces a sector, or drops a fetch line it holds (R39, R276) -/
  | evictL1 (core : CoreId) (asid sector : Nat)
  | dropLine (core : CoreId) (line : Nat)
  /-- the host's debugger lets a halted thread go on (R153) -/
  | resume (t : Tid)
  /-- the host provides pages of the snapshot pool and save areas (R453, R499) -/
  | snapRoom (pages : Nat)
  | saveRoom (teams : Nat)
  /-- the host writes physical memory (R549, R461), reserves the directory's area (R472), sets the module's number (R513), and selects the
  port of IEEE 1588 (R519) -/
  | hostWrite (pa : Nat) (bs : List Byte)
  | hostDirectory (pa entries : Nat)
  | hostNumber (n : Nat)
  | ptpPort (n : Nat)
  /-- another module, or the storage service (255), acknowledges a step (R481 to R484) -/
  | vnpAck (src : Nat) (key : PageKey) (seq : Nat)
  /-- UET acknowledges a message (R516) -/
  | uetAck (f : Flight)
  /-- the host reads records of the error report queue (R502) -/
  | readErrors (n : Nat)
  /-- a DRAM sector, the parity sector of a stripe or a granule of a weight store goes bad (R489, R491) -/
  | decay (sector : Nat) (h : Health)
  | decayParity (stripe : Stripe) (h : Health)
  | weightDecay (die granule : Nat) (h : Health)
  /-- an off-core engine meets a lasting error (R445, R501), or a core engine in a sequencer step of a command -/
  | outage (o : Outage)
  | engineError (id : Nat)
  /-- a channel fails its interface training (R495) -/
  | training (stack channel : Nat)
  deriving DecidableEq, Repr

/-! ### Outcomes -/

/-- Why the machine stops with a fault: never. Every condition that the spec names is a trap of a thread, a status of a command,
or a step without effect, and the machine goes on. -/
inductive Fault where
  deriving DecidableEq, Repr

/-- Why an instruction is refused. -/
inductive Refusal where
  /-- raised by a dispatch arm whose instruction has no meaning in the model yet. Safe: nothing follows from it. -/
  | notModelled (mnemonic : String)
  deriving DecidableEq, Repr

/-! ### The state -/

/-- The machine. -/
structure State where
  threads : Tbl Tid Thread
  cohorts : Tbl CohId Cohort
  teams : Tbl TeamId Team
  barriers : Tbl BarKey Barrier
  parts : Tbl PartId Part
  launches : List Launch
  /-- undelivered traps of the cycle in progress (R441) -/
  traps : List TrapReport
  /-- the issue in progress, and the threads that wait inside their slot (R189): the model's own fields -/
  issue : Option Issue
  late : List Late
  /-- what happens next: the model's own field, the place of everything outside -/
  sched : List Turn
  /-- cycles so far, and fresh numbers for writes, accesses and commands: the model's own -/
  cycle : Nat
  nextId : Nat
  /-- the next free value's number: the model's own -/
  free : Nat
  /-- module number within the scale-up domain, k8 (R21, R513) -/
  moduleNo : Nat
  mem : MemSys
  eng : Engines
  rel : Reliability
  vnp : Vnp
  cp : Cp
  module : Module
  /-- queue bindings: ASID and root table (R457) -/
  bindings : Tbl Nat (Nat × Nat)
  /-- the PTC (R517) -/
  ptc : DWord
  deriving DecidableEq, Repr

/-- The machine right after reset. -/
def State.reset : State :=
  { threads := [], cohorts := [], teams := [], barriers := [], parts := [], launches := [], traps := [],
    issue := none, late := [], sched := [], cycle := 0, nextId := 0, free := 0
    , moduleNo := 0
    , mem := MemSys.reset, eng := Engines.reset, rel := Reliability.reset, vnp := Vnp.reset, cp := Cp.reset, module := Module.reset, bindings := []
    , ptc := 0#64
  }

end Sys2Proof.Machine
end

