-- ==== Sys2Proof/Machine/Ops.lean ====
section
/-!
DEFINITION. The named operations over tables, registers and threads that every meaning uses: reading and writing registers
(R18 to R28), advancing a thread and leaving a line (R32, R63), taking a trap (R431 to R441), and carrying an instruction
out over its issue group (R55, R433).
-/

namespace Sys2Proof.Machine

/-! ### Tables -/

/-- The entry of a key. -/
def tget {κ α : Type} [DecidableEq κ] (t : Tbl κ α) (k : κ) : Option α :=
  match t with
  | [] => none
  | p :: rest => if p.1 = k then some p.2 else tget rest k

/-- The table with a key's entry changed. -/
def tmod {κ α : Type} [DecidableEq κ] (t : Tbl κ α) (k : κ) (f : α → α) : Tbl κ α :=
  t.map fun p => if p.1 = k then (p.1, f p.2) else p

/-- The table with an entry set, at its place or at the end. -/
def tput {κ α : Type} [DecidableEq κ] (t : Tbl κ α) (k : κ) (v : α) : Tbl κ α :=
  match t with
  | [] => [(k, v)]
  | p :: rest => if p.1 = k then (k, v) :: rest else p :: tput rest k v

/-- The table without a key. -/
def terase {κ α : Type} [DecidableEq κ] (t : Tbl κ α) (k : κ) : Tbl κ α := t.filter fun p => p.1 ≠ k

/-! ### Memory cells -/

/-- The cells of a list at other addresses. -/
def cellDrop (a : Nat) (m : List Host.Cell) : List Host.Cell := m.filter fun p => p.1 ≠ a

/-- A cell put at its place among rising addresses. -/
def cellInsert (a : Nat) (v : Byte) : List Host.Cell → List Host.Cell
  | [] => [(a, v)]
  | p :: rest => if a < p.1 then (a, v) :: p :: rest else p :: cellInsert a v rest

/-- A list of cells in canonical form with one byte written: addresses rise, and no entry holds the byte dflt that an
unlisted address reads as. -/
def cellPut (dflt : Byte) (a : Nat) (v : Byte) (m : List Host.Cell) : List Host.Cell :=
  if v = dflt then cellDrop a m else cellInsert a v (cellDrop a m)

/-- The byte at an address. -/
def cellGet (dflt : Byte) (a : Nat) : List Host.Cell → Byte
  | [] => dflt
  | (b, w) :: rest => if a = b then w else cellGet dflt a rest

/-- The canonical form of a memory: addresses rise strictly, and no entry holds the byte that an unlisted address reads as. -/
def Memory.wf (dflt : Byte) : List Host.Cell → Bool
  | [] => true
  | [(_, w)] => decide (w ≠ dflt)
  | (a, w) :: (b, v) :: rest => decide (w ≠ dflt) && decide (a < b) && Memory.wf dflt ((b, v) :: rest)

/-- Bytes written from an address up. -/
def cellPutAll (dflt : Byte) (a : Nat) (vs : List Byte) (m : List Host.Cell) : List Host.Cell :=
  match vs with
  | [] => m
  | v :: rest => cellPutAll dflt (a + 1) rest (cellPut dflt a v m)

/-- n bytes from an address up. -/
def cellGetAll (dflt : Byte) (a n : Nat) (m : List Host.Cell) : List Byte :=
  match n with
  | 0 => []
  | k + 1 => cellGet dflt a m :: cellGetAll dflt (a + 1) k m

/-- The number of bytes in little-endian order (R4). -/
def leNat : List Byte → Nat
  | [] => 0
  | b :: rest => b.toNat + 256 * leNat rest

/-- n little-endian bytes of a number (R4). -/
def leBytes (n v : Nat) : List Byte :=
  match n with
  | 0 => []
  | k + 1 => BitVec.ofNat 8 v :: leBytes k (v / 256)

/-- The words of a byte list, 4 bytes each, little-endian. -/
def leWords : List Byte → List Word
  | a :: b :: c :: d :: rest => BitVec.ofNat 32 (leNat [a, b, c, d]) :: leWords rest
  | _ => []

/-- The little-endian bytes of words. -/
def wordBytes : List Word → List Byte
  | [] => []
  | w :: rest => leBytes 4 w.toNat ++ wordBytes rest

/-- The value of a list of words, lowest first. -/
def wordsNat : List Word → Nat
  | [] => 0
  | w :: rest => w.toNat + 2 ^ 32 * wordsNat rest

/-- n words of a value, lowest first. -/
def natWords (n v : Nat) : List Word :=
  match n with
  | 0 => []
  | k + 1 => BitVec.ofNat 32 v :: natWords k (v / 2 ^ 32)

/-! ### Lookups -/

/-- A thread that no placement has made: the reading of a number that names none. -/
def Thread.blank : Thread :=
  { pc := 0#57, g := Vector.replicate 16 0#32, stack := List.replicate 48 0#32, wb := 0, wres := 0, wdep := 0, preds := 0#8,
    live := 255#8, num := 0, left := 0, latches := Vector.replicate 4 .invalid, flg := 0#5, spa := 0#57, trw := Vector.replicate 16 0#32,
    epc := 0#57, hnd := false, resume := 0#57, status := .exited, wait := none, entry := .free, owed := none, kept := none,
    record := none, pends := [], fence := [], syncReads := [], replayTrap := [], failing := none, stopped := false }

/-- A thread by its number. -/
def State.thread (s : State) (t : Tid) : Thread := (tget s.threads t).getD Thread.blank

/-- A cohort that no placement has made. -/
def Cohort.blank : Cohort :=
  { part := { core := { die := 0, core := 0 }, part := 0 }, slice := 0, s := Vector.replicate 32 0#32, counters := Vector.replicate 6 0,
    claims := [], pends := [], conv := [] }

/-- A cohort by its number. -/
def State.cohort (s : State) (c : CohId) : Cohort := (tget s.cohorts c).getD Cohort.blank

/-- A team by its number. -/
def State.team (s : State) (t : TeamId) : Option Team := tget s.teams t

/-- The launch that an identifier belongs to (R237). -/
def State.launchOf (s : State) (lid : Nat) : Option Launch := s.launches.find? fun l => l.stages.any fun g => g.lid = lid

/-- The launch of a thread. -/
def State.launch (s : State) (t : Tid) : Option Launch := s.launchOf t.coh.team.lid

/-- The identifier that a launch's gates are kept under: that of its first stage. -/
def State.gateLid (s : State) (lid : Nat) : Nat := ((s.launchOf lid).bind fun l => l.stages.head?.map fun g => g.lid).getD lid

/-- The stages of a launch, changed where an identifier's stage stands. -/
def State.modLaunch (s : State) (lid : Nat) (f : Launch → Launch) : State :=
  { s with launches := s.launches.map fun l => if l.stages.any (fun g => g.lid = lid) then f l else l }

/-- A thread changed. -/
def State.modThread (s : State) (t : Tid) (f : Thread → Thread) : State := { s with threads := tmod s.threads t f }

/-- A cohort changed. -/
def State.modCohort (s : State) (c : CohId) (f : Cohort → Cohort) : State := { s with cohorts := tmod s.cohorts c f }

/-- A team changed. -/
def State.modTeam (s : State) (t : TeamId) (f : Team → Team) : State := { s with teams := tmod s.teams t f }

/-- The issue group in progress, in ascending lane order; empty where nothing issues. -/
def State.group (s : State) : List Tid :=
  match s.issue with
  | some is => is.tids
  | none => []

/-- Order of threads within a cycle (R185): cohort, lane, launch, team. -/
def tidLe (a b : Tid) : Bool :=
  let key (t : Tid) := [t.coh.k1, t.lane.val, t.coh.team.lid, t.coh.team.k3]
  let rec go : List Nat → List Nat → Bool
    | x :: xs, y :: ys => if x < y then true else if y < x then false else go xs ys
    | _, _ => true
  go (key a) (key b)

/-- Insertion of a thread into an ascending list. -/
def insertTid (t : Tid) : List Tid → List Tid
  | [] => [t]
  | u :: rest => if tidLe t u then t :: u :: rest else u :: insertTid t rest

/-- Threads in the order of R185. -/
def sortTids (l : List Tid) : List Tid := l.foldr insertTid []

/-- Insertion of a thread into a list that ascends by lane. -/
def insertLane (t : Tid) : List Tid → List Tid
  | [] => [t]
  | u :: rest => if t.lane ≤ u.lane then t :: u :: rest else u :: insertLane t rest

/-- Threads in ascending lane order. -/
def sortLanes (l : List Tid) : List Tid := l.foldr insertLane []

/-- Order of a gather table's entries (R184, R185, R190): by age, of one age those that came from the arrival queue last and in its
order, then by index. -/
def GEntry.key (e : GEntry) : List Nat := [e.age, e.late, e.idx]

/-- Whether a team is to be saved: its save has begun, or 100 us have passed since it was chosen (R450). -/
def Preempt.saves (p : Preempt) (now : Nat) : Bool :=
  match p with
  | .saving => true
  | .chosen tick => decide (tick + 100000 ≤ now)
  | .no | .discarded => false

/-- A fresh number for a write, an access or a command. -/
def State.fresh (s : State) : Nat × State := (s.nextId, { s with nextId := s.nextId + 1 })

/-! ### Registers -/

/-- WIN (R150). -/
def winWord (th : Thread) : Word := BitVec.ofNat 32 (th.wdep * 2 ^ 16 + th.wres * 2 ^ 8 + th.wb)

/-- Entries of a thread's register stack: D - 16 (R18). -/
def Thread.depth (th : Thread) : Nat := th.stack.length

/-- Frames of a thread's register stack, F (R26). -/
def Thread.frames (th : Thread) : Nat := th.stack.length / 16

/-- The cell a register names (R26); a special names none. -/
def cellOf (th : Thread) (r : Reg) : Option RegCell :=
  match r with
  | .g n => some (.g n)
  | .w n => some (.stk ((16 * th.wb + n.val) % th.depth))
  | .s n => some (.s n)
  | .k _ => none

/-- An entry of a thread's register stack. -/
def Thread.entryAt (th : Thread) (n : Nat) : Word := th.stack.getD n 0#32

/-- The specials (R21). -/
def special (s : State) (t : Tid) (n : Fin 32) : Word :=
  let tm := s.team t.coh.team
  let num (f : Team → Nat) : Word := BitVec.ofNat 32 ((tm.map f).getD 0)
  match n.val with
  | 0 => BitVec.ofNat 32 t.lane.val
  | 1 => BitVec.ofNat 32 t.coh.k1
  | 2 => num fun x => x.k2.val
  | 3 => BitVec.ofNat 32 t.coh.team.k3
  | 4 => num fun x => x.k4
  | 5 => BitVec.ofNat 32 t.coh.team.lid
  | 6 => num fun x => x.core.core
  | 7 => num fun x => x.core.die
  | 8 => num fun x => x.k8
  | 9 => num fun x => x.stage
  | k => if 16 ≤ k then ((s.launch t).map fun l => l.desc.args[(k - 16) % 16]'(Nat.mod_lt _ (by decide))).getD 0#32
    else 0#32

/-- The value a register of a thread holds (R20, R26, R194). -/
def readReg (s : State) (t : Tid) (r : Reg) : Word :=
  let th := s.thread t
  match r with
  | .g n => th.g[n]
  | .w n => th.entryAt ((16 * th.wb + n.val) % th.depth)
  | .s n => (s.cohort t.coh).s[n]
  | .k n => special s t n

/-- The outstanding writes of a list with those to a cell no longer live: a later write has taken their place (R25). -/
def supersede (c : RegCell) (ps : List Pend) : List Pend :=
  ps.map fun p => { p with live := (p.cells.zip p.live).map fun x => x.2 && decide (x.1 ≠ c) }

/-- One cell of a thread written; an s-register is the cohort's. -/
def writeCell (th : Thread) (c : RegCell) (v : Word) : Thread :=
  match c with
  | .g n => { th with g := th.g.set n v, pends := supersede c th.pends }
  | .stk n => { th with stack := th.stack.set n v, pends := supersede c th.pends }
  | .s _ => th

/-- Cells of a thread written in order. -/
def writeCells (th : Thread) : List (RegCell × Word) → Thread
  | [] => th
  | (c, v) :: rest => writeCells (writeCell th c v) rest

/-- The cells of a position of n registers. -/
def cellsOf (th : Thread) (r : Reg) (n : Nat) : List RegCell := (r.span n).filterMap (cellOf th)

/-- A cohort's s-registers written in order (R23). -/
def Cohort.writeS (c : Cohort) : List (RegCell × Word) → Cohort
  | [] => c
  | (.s n, v) :: rest => { c with s := c.s.set n v, pends := supersede (.s n) c.pends }.writeS rest
  | _ :: rest => c.writeS rest

/-! ### Predicates -/

/-- The value last written to a predicate (R30); a save and restore clears that of a dead one (R455). -/
def Thread.pred (th : Thread) (p : Fin 8) : Bool := th.preds.getLsbD p.val

/-- What a read of a predicate gives (R30, R33): a live one's value; of a dead one the value last written or 0, left open (log
entry 5). -/
def Thread.reads (th : Thread) (p : Fin 8) : Bool :=
  th.pred p && (th.live.getLsbD p.val || Config.deadKept th.num th.left th.pc.toNat p.val)

/-- The eight predicates as they are read. -/
def Thread.seen (th : Thread) : BitVec 8 :=
  BitVec.ofNat 8 ((List.finRange 8).foldl (fun acc k => acc + if th.reads k then 2 ^ k.val else 0) 0)

/-- A predicate written: it is live again (R32, R455). -/
def setPred (th : Thread) (p : Fin 8) (v : Bool) : Thread :=
  let bit := 1#8 <<< p.val
  { th with preds := if v then th.preds ||| bit else th.preds &&& ~~~bit, live := th.live ||| bit }

/-- Predicates written in order. -/
def setPreds (th : Thread) : List (Fin 8 × Bool) → Thread
  | [] => th
  | (p, v) :: rest => setPreds (setPred th p v) rest

/-- The guard of a thread (R54). -/
def guardTrue (g : Guard) (th : Thread) : Bool :=
  g.tt.getLsbD (4 * (th.reads g.pa).toNat + 2 * (th.reads g.pb).toNat + (th.reads g.pc).toNat)

/-- Whether a thread executes an instruction: its guard is true (R54). -/
def State.executes (s : State) (t : Tid) (i : Instr) : Bool := (viewOf i).all fun v => guardTrue v.guard (s.thread t)

/-- The executing threads of the group in progress, ascending. -/
def State.execs (s : State) (g : Guard) : List Tid := s.group.filter fun t => guardTrue g (s.thread t)

/-! ### The program counter -/

/-- The first byte of a PC's line (R34). -/
def lineOf (pc : Pc) : Pc := pc &&& ~~~63#57

/-- The slot of a PC (R19). -/
def slotOf (pc : Pc) : Nat := pc.toNat % 64 / 12

/-- The next PC in sequence (R63). -/
def nextPc (pc : Pc) : Pc := if slotOf pc < 4 then pc + 12#57 else lineOf pc + 64#57

/-- A byte address in slot form (R19, R142). -/
def slotForm (n : Nat) : Bool := [0, 12, 24, 36, 48].contains (n % 64)

/-- The target of a B-form branch (R48). -/
def targetPc (pc : Pc) (t : Target) : Pc :=
  lineOf pc + 64#57 * t.off.signExtend 57 + BitVec.ofNat 57 (12 * t.slot.val)

/-- Leaving a line kills the predicates of its mask (R32, R455). -/
def leaveLine (dpm : BitVec 8) (th : Thread) : Thread := { th with live := th.live &&& ~~~dpm, left := th.left + 1 }

/-- A thread past an instruction without a taken transfer (R63); past slot 4 it leaves the line and enters the next. -/
def advance (is : Issue) (th : Thread) : Thread :=
  if slotOf is.pc < 4 then { th with pc := nextPc is.pc, entry := .free }
  else { leaveLine is.dpm th with pc := nextPc is.pc, entry := .line }

/-! ### Traps -/

/-- A trap condition: class, cause and information words (R431, R435). -/
structure Trap where
  cls : Nat
  cause : Nat := 0
  info0 : Word := 0#32
  info1 : Word := 0#32
  info2 : Word := 0#32
  deriving DecidableEq, Repr

/-- An illegal instruction of a cause (R435). -/
def illegal (c : Cause) : Trap := { cls := 1, cause := c.code }

/-- A trap whose information is a 64-bit value and a third word. -/
def trap64 (cls v : Nat) (info2 : Word) : Trap :=
  { cls := cls, info0 := BitVec.ofNat 32 v, info1 := BitVec.ofNat 32 (v / 2 ^ 32), info2 := info2 }

/-- The value a latch shows in a trap record; an outstanding one is filled in when its write completes. -/
def Latch.word : Latch → Word
  | .valid v => v
  | .invalid | .pend _ _ | .token _ _ => 0#32

/-- Validity of a latch. -/
def Latch.isValid : Latch → Bool
  | .invalid => false
  | .valid _ | .pend _ _ | .token _ _ => true

/-- The trap record (R434). -/
def trapRecord (is : Issue) (th : Thread) (tr : Trap) : Vector Word 16 :=
  let bit (b : Bool) (n : Nat) : Nat := if b then 2 ^ n else 0
  let l (n : Fin 4) := th.latches[n]
  let lv := bit (l 0).isValid 0 + bit (l 1).isValid 1 + bit (l 2).isValid 2 + bit (l 3).isValid 3
  #v[BitVec.ofNat 32 (bit th.hnd 17 + bit is.second 16 + tr.cause * 2 ^ 8 + tr.cls),
    is.pc.setWidth 32, (is.pc >>> 32).setWidth 32,
    is.word.setWidth 32, (is.word >>> 32).setWidth 32, (is.word >>> 64).setWidth 32,
    tr.info0, tr.info1, tr.info2,
    (l 0).word, (l 1).word, (l 2).word, (l 3).word,
    BitVec.ofNat 32 (th.seen.toNat * 2 ^ 8 + lv), BitVec.ofNat 32 (is.rsl % 32), 0#32]

/-- The resume PC of a class (R431). -/
def resumePc (is : Issue) (cls : Nat) : Pc := if cls = 14 ∨ cls = 15 then nextPc is.pc else is.pc

/-- The run that an unchanged return continues (R62): at the trap PC with the slots counted before it, at the slot after it
with one more where the template goes on, and none where it ended. -/
def keptRun (is : Issue) (th : Thread) (cls : Nat) : Option Kept :=
  if cls = 14 ∨ cls = 15 then
    (if is.tpl = 0 then none else some { latches := th.latches, rsl := is.rsl + 1 })
  else some { latches := th.latches, rsl := is.rsl }

/-- No latch is valid (R59). -/
def noLatches : Vector Latch 4 := Vector.replicate 4 .invalid

/-- Entry to the handler of a trap (R438). -/
def enterHandler (is : Issue) (hpc : Pc) (tr : Trap) (th : Thread) : Thread :=
  { th with trw := trapRecord is th tr, epc := resumePc is tr.cls, resume := resumePc is tr.cls, hnd := true, pc := hpc,
            record := keptRun is th tr.cls, latches := noLatches, kept := none, entry := .transfer, wait := none,
            owed := none, status := .arriving }

/-- The handler of a class in a launch's trap vector table (R436); pipeline error is never delivered (R431). -/
def handlerOf (s : State) (t : Tid) (cls : Nat) : Option Pc :=
  if cls = 16 then none else (s.launch t).bind fun l => tget l.tvt cls

/-- A trap of a thread (R438, R440): to the handler where the class has one and the thread is in none, else the thread stops
at its PC and the launch ends (R441). -/
def takeTrap (s : State) (is : Issue) (t : Tid) (tr : Trap) (th : Thread) : Thread :=
  match handlerOf s t tr.cls, th.hnd with
  | some hpc, false => enterHandler is hpc tr th
  | _, _ => { th with status := .waiting, wait := none, owed := none, latches := noLatches, kept := none }

/-- The report of a trap that is not delivered (R441); none where it is. -/
def trapReport (s : State) (is : Issue) (t : Tid) (tr : Trap) (th : Thread) : Option TrapReport :=
  match handlerOf s t tr.cls, th.hnd with
  | some _, false => none
  | _, _ => some { tid := t, core := is.part.core, part := is.part.part, record := trapRecord is th tr, latches := th.latches }

/-! ### Carrying an instruction out -/

/-- What an executing thread does once an instruction has had its effect on it. -/
inductive Act where
  /-- goes on in its run at the next slot -/
  | next
  /-- a taken transfer (R41, R63) -/
  | jump (pc : Pc)
  /-- ends its run and arrives at the next slot (R145) -/
  | yield
  /-- Blocked, its next PC the slot after (R183) -/
  | block (why : BlockWhy)
  /-- ends its run and waits, its next PC the slot after (R228) -/
  | sleep (why : WaitWhy)
  /-- stays in its run and waits at this slot for an answer that completes it (R189) -/
  | pend (why : WaitWhy)
  /-- takes no effect and stays in its run at this slot, awaiting what is named (R463, R467) -/
  | stay (why : Option WaitWhy)
  /-- arrives where the thread already stands (R154) -/
  | arrive
  /-- takes no effect and arrives at this slot again (R395) -/
  | again
  /-- Exited (R210) -/
  | exit
  deriving DecidableEq, Repr

/-- A thread after its act. -/
def applyAct (is : Issue) (a : Act) (th : Thread) : Thread :=
  match a with
  | .next => advance is th
  | .jump pc =>
    { leaveLine is.dpm th with pc := pc, entry := .transfer, status := .arriving, latches := noLatches, kept := none }
  | .yield => { advance is th with status := .arriving, latches := noLatches, kept := none }
  | .block w => { advance is th with status := .blocked w }
  | .sleep w => { advance is th with status := .waiting, wait := some w }
  | .pend w => { th with wait := some w }
  | .stay w => { th with wait := w }
  | .arrive => { th with status := .arriving, wait := none, latches := noLatches }
  | .again => { th with status := .arriving, latches := noLatches, kept := none, entry := .free }
  | .exit => { advance is th with status := .exited, latches := noLatches, kept := none, wait := none }

/-- The outcome of an instruction for one thread of its group: executing threads take its effect or its trap, guard-false
threads what R55, R56 leave them. -/
def threadStep (s : State) (is : Issue) (gd : Guard) (f : Tid → Thread → Except Trap (Thread × Act))
    (skip : Tid → Thread → Thread) (t : Tid) (th : Thread) : Thread :=
  if guardTrue gd th then
    match f t th with
    | .ok (th', a) => applyAct is a th'
    | .error tr => takeTrap s is t tr th
  else advance is (skip t th)

/-- The reports of the group's traps that are not delivered. -/
def groupReports (s : State) (is : Issue) (gd : Guard) (f : Tid → Thread → Except Trap (Thread × Act)) : List TrapReport :=
  is.tids.filterMap fun t =>
    let th := s.thread t
    if guardTrue gd th then
      match f t th with
      | .ok _ => none
      | .error tr => trapReport s is t tr th
    else none

/-- An instruction carried out thread by thread over its group (R55, R433); every thread reads the state as the instruction
found it (R196). -/
def runGroup (gd : Guard) (f : Tid → Thread → Except Trap (Thread × Act)) (skip : Tid → Thread → Thread) (s : State) : State :=
  match s.issue with
  | none => s
  | some is =>
    { s with
      threads := s.threads.map fun p => if p.1 ∈ is.tids then (p.1, threadStep s is gd f skip p.1 p.2) else p,
      traps := s.traps ++ groupReports s is gd f }

/-- A guard-false thread of an instruction without a result latch. -/
def skipPlain (_ : Tid) (th : Thread) : Thread := th

/-- The guard under which every thread executes. -/
def alwaysGuard : Guard := { tt := 255#8, pa := 0, pb := 0, pc := 0 }

/-- Every thread of the group raises a trap of its own. -/
def trapEach (tr : Tid → Trap) (s : State) : State := runGroup alwaysGuard (fun t _ => .error (tr t)) skipPlain s

/-- Every thread of the group raises one trap: a failing encoding (R57). -/
def trapGroup (tr : Trap) (s : State) : State := trapEach (fun _ => tr) s

end Sys2Proof.Machine
end

