-- ==== Sys2Proof/Machine/Operands.lean ====
section
/-!
DEFINITION. Operands: reading a source through its permute pattern (R49, R50, R196), pairs and groups (R24), the immediate of
IB = 1 (R125), addresses (R65), and writing a result with its latch (R23, R56, R58).
-/

namespace Sys2Proof.Machine

/-! ### Reading -/

/-- The lane a permute pattern names for lane i (R50). -/
def permLane (p : Perm) (i : Fin 32) : Fin 32 :=
  match p with
  | .same => i
  | .bfly n => Fin.ofNat 32 (i.val ^^^ 2 ^ n.val)
  | .rot n => Fin.ofNat 32 (i.val / 8 * 8 + (i.val + n.val + 1) % 8)
  | .rev => Fin.ofNat 32 (31 - i.val)
  | .repl l => l

/-- The thread a permuted read names: the one on that lane of the reader's own cohort (R196). -/
def permTid (p : Perm) (t : Tid) : Tid := { t with lane := permLane p t.lane }

/-- Stale latch (R59, R431). -/
def staleLatch (n : Fin 4) : Trap := { cls := 3, info2 := BitVec.ofNat 32 n.val }

/-- A latch read: 0 from a thread outside the issue group (R196), stale where the named latch is invalid (R59). The issue
check has waited for a captured register whose write is outstanding. -/
def readLatch (s : State) (t : Tid) (n : Fin 4) (p : Perm) : Except Trap Word :=
  let u := permTid p t
  if u ∈ s.group then
    match (s.thread u).latches[n] with
    | .valid v => .ok v
    | .pend _ _ | .token _ _ => .ok 0#32
    | .invalid => .error (staleLatch n)
  else .ok 0#32

/-- Read(src, t) of one register (R49, R50). -/
def readSrc (s : State) (t : Tid) (a : Src) : Except Trap Word :=
  match a with
  | .reg r p => .ok (readReg s (permTid p t) r)
  | .latch n p => readLatch s t n p

/-- The n registers of a pair or group position, lowest first (R24). -/
def readRegs (s : State) (t : Tid) (a : Src) (n : Nat) : Except Trap (List Word) :=
  match a with
  | .reg r p => .ok ((r.span n).map (readReg s (permTid p t)))
  | .latch k p => do
    let v ← readLatch s t k p
    .ok [v]

/-- The value of a position of n registers as one number (R24). -/
def readNat (s : State) (t : Tid) (a : Src) (n : Nat) : Except Trap Nat := do
  let ws ← readRegs s t a n
  .ok (wordsNat ws)

/-- The 64-bit value of a pair (R24). -/
def readPair (s : State) (t : Tid) (a : Src) : Except Trap DWord := do
  let v ← readNat s t a 2
  .ok (BitVec.ofNat 64 v)

/-- The srcB operand: a source, or the immediate sign-extended (R125, R126). -/
def readB (s : State) (t : Tid) (b : SrcB) : Except Trap Word :=
  match b with
  | .src a => readSrc s t a
  | .imm v => .ok (v.signExtend 32)

/-! ### Addresses -/

/-- A flat address: the base pair and the sign-extended offset modulo 2^64 (R65). -/
def flatAddr (s : State) (t : Tid) (a : Src) (off : BitVec 24) : Except Trap DWord := do
  let base ← readPair s t a
  .ok (base + off.signExtend 64)

/-- The canonical test of R65 and the alignment test of R66, in the order of their classes (R432). -/
def checkFlat (addr : DWord) (align : Nat) : Except Trap Unit :=
  if addr.toNat % align ≠ 0 then .error (trap64 9 addr.toNat 0#32)
  else if 2 ^ 57 ≤ addr.toNat then .error (trap64 10 addr.toNat 0#32)
  else .ok ()

/-! ### Results -/

/-- The execution whose completion token is the last claimed on a register (R353). -/
def State.claimOn (s : State) (t : Tid) (r : Reg) : Option (Fin 32 × Nat) :=
  match r with
  | .s n => ((s.cohort t.coh).claims.reverse.find? fun c => c.reg = n).map fun c => (n, c.exec)
  | .g _ | .w _ | .k _ => none

/-- The latch of a guard-false thread: the value its destination register holds, or will hold once the write outstanding to
it completes (R56), a completion token's among them (R353). DESIGN CHOICE (log entry 25): of an s-register that other lanes write in the
same execution, it is the value before that write. -/
def captureLatch (s : State) (t : Tid) (th : Thread) (r : Reg) : Latch :=
  let c := cellOf th r
  let ps := match r with
    | .s _ => (s.cohort t.coh).pends
    | _ => th.pends
  let hit := ps.findSome? fun p =>
    ((p.cells.zip p.live).findIdx? fun x => x.2 && decide (some x.1 = c)).map fun i => (p.id, i)
  match s.claimOn t r, hit with
  | some (n, e), _ => .token n e
  | none, some (id, i) => .pend id i
  | none, none => .valid (readReg s t r)

/-- A thread with its result latch set. -/
def setLatch (th : Thread) (n : Fin 4) (l : Latch) : Thread := { th with latches := th.latches.set n l }

/-- A guard-false thread of an instruction that writes a latch (R56). -/
def skipCapture (s : State) (d : Dest) (t : Tid) (th : Thread) : Thread := setLatch th d.rl (captureLatch s t th d.reg)

/-- Output flush of a launch (R85). -/
def oflOf (s : State) (t : Tid) : Bool := ((s.launch t).map fun l => l.desc.ofl).getD false

/-- Input flush of a launch (R85). -/
def iflOf (s : State) (t : Tid) : Bool := ((s.launch t).map fun l => l.desc.ifl).getD false

/-- Flag trap enables of a launch (R89). -/
def tenOf (s : State) (t : Tid) : BitVec 5 := ((s.launch t).map fun l => l.desc.ten).getD 0#5

/-- The arithmetic-flag trap (R89, R431). -/
def flagTrap (fl : FlagSet) : Trap := { cls := 14, info2 := fl.setWidth 32 }

/-- A computed result: the words of the destination, lowest first, and the flags. -/
structure Result where
  words : List Word
  flags : FlagSet := 0#5
  deriving DecidableEq, Repr

/-- The check of R89 on a result. -/
def checkFlags (s : State) (t : Tid) (r : Result) : Except Trap Result :=
  if r.flags &&& tenOf s t ≠ 0#5 then .error (flagTrap r.flags) else .ok r

/-- A thread with a result: its flags (R87), its latch (R58), and unless wbs = 1 its destination; an s-register is written
once for the cohort. -/
def putResult (th : Thread) (d : Dest) (n : Nat) (r : Result) : Thread :=
  let th1 := setLatch { th with flg := th.flg ||| r.flags } d.rl (.valid (r.words.headD 0#32))
  if d.wbs then th1 else writeCells th1 ((cellsOf th1 d.reg n).zip r.words)

/-- The value of each executing thread under a computation of words and flags. -/
def computed (s : State) (f : Tid → Except Trap Result) (t : Tid) : Except Trap Result := do
  let r ← f t
  checkFlags s t r

/-- The result that an s-register takes: that of the lowest executing lane that raises no trap (R23, R433). -/
def leadResult (s : State) (gd : Guard) (f : Tid → Except Trap Result) : Option (Tid × Result) :=
  (s.execs gd).findSome? fun t =>
    match computed s f t with
    | .ok r => some (t, r)
    | .error _ => none

/-- The cohorts after a result whose destination is an s-register (R23). -/
def putShared (s : State) (gd : Guard) (d : Dest) (n : Nat) (f : Tid → Except Trap Result) : Tbl CohId Cohort :=
  if d.wbs || !d.reg.isS then s.cohorts
  else
    match leadResult s gd f with
    | some (t, r) => tmod s.cohorts t.coh fun c => c.writeS ((cellsOf (s.thread t) d.reg n).zip r.words)
    | none => s.cohorts

/-- An instruction whose whole effect is a register result of n words (R126, R159). -/
def result (gd : Guard) (d : Dest) (n : Nat) (f : Tid → Except Trap Result) (s : State) : State :=
  runGroup gd (fun t th => (computed s f t).map fun r => (putResult th d n r, .next)) (skipCapture s d)
    { s with cohorts := putShared s gd d n f }

/-- An instruction whose whole effect is predicates of its executing threads. -/
def predResult (gd : Guard) (f : Tid → Thread → Except Trap (List (Fin 8 × Bool))) (s : State) : State :=
  runGroup gd (fun t th => (f t th).map fun ps => (setPreds th ps, .next)) skipPlain s

end Sys2Proof.Machine
end

