-- ==== Sys2Proof/Machine/Converge.lean ====
section
/-!
DEFINITION. The convergence stack (R199 to R205): lanes as masks, completion of the top entry and the release of the threads
blocked at it.
-/

namespace Sys2Proof.Machine

/-- The lanes of a list of threads as a mask. -/
def laneMask (l : List Tid) : BitVec 32 := l.foldl (fun acc t => acc ||| 1#32 <<< t.lane.val) 0#32

/-- Whether a lane is in a mask. -/
def inMask (m : BitVec 32) (l : Fin 32) : Bool := m.getLsbD l.val

/-- Whether an entry is complete: every thread left in its mask has arrived (R201). -/
def ConvEntry.complete (e : ConvEntry) : Bool := decide (e.mask &&& ~~~e.arrived = 0#32)

/-- Lanes removed from the masks of the top n entries, and entries whose mask becomes empty discarded (R203, R204). -/
def dropLanes (n : Nat) (m : BitVec 32) (st : List ConvEntry) : List ConvEntry :=
  let top := (st.take n).map fun e => { e with mask := e.mask &&& ~~~m, arrived := e.arrived &&& ~~~m }
  (top ++ st.drop n).filter fun e => e.mask ≠ 0#32

/-- The entries that complete one after another from the top, and the stack that is left. DESIGN CHOICE (log entry 65): an entry below
the top whose remaining threads have all arrived completes once it has become the top, since R201 speaks of the top entry. -/
def popComplete : List ConvEntry → List ConvEntry × List ConvEntry
  | [] => ([], [])
  | e :: rest => if e.complete then (e :: (popComplete rest).1, (popComplete rest).2) else ([], e :: rest)

/-- A thread released at a join: it arrives at the slot after it (R201). -/
def releaseAt (e : ConvEntry) (th : Thread) : Thread :=
  let pc := nextPc e.join
  { th with pc := pc, status := .arriving, wait := none, latches := noLatches, kept := none,
            entry := if th.pc = pc then th.entry else .line }

/-- The threads of a cohort after entries complete: those blocked at one are released. -/
def releaseConv (c : CohId) (es : List ConvEntry) (p : Tid × Thread) : Tid × Thread :=
  if p.1.coh = c ∧ p.2.status = .blocked .conv then
    match es.find? fun e => inMask e.arrived p.1.lane with
    | some e => (p.1, releaseAt e p.2)
    | none => p
  else p

/-- Completion of a cohort's top entries (R201, R203). -/
def settleConv (c : CohId) (s : State) : State :=
  let (done, rest) := popComplete (s.cohort c).conv
  { s with threads := s.threads.map (releaseConv c done), cohorts := tmod s.cohorts c fun x => { x with conv := rest } }

/-- The cohort a cohort-scoped instruction executes for: that of its lowest thread (R193). -/
def State.scopeCoh (s : State) : Option CohId := s.group.head?.map fun t => t.coh

/-- A cohort's convergence stack changed. -/
def State.modConv (s : State) (c : CohId) (f : List ConvEntry → List ConvEntry) : State :=
  s.modCohort c fun x => { x with conv := f x.conv }

end Sys2Proof.Machine
end

