-- ==== Sys2Proof/Machine/Integer.lean ====
section
/-!
DEFINITION. The integer group (opcodes 0x00 to 0x21, R124 to R133): pure operations on words, and one meaning for each
instruction over the shared shapes of one, two and three operands.
-/

namespace Sys2Proof.Machine

open Host (Outcome)

/-! ### Operations of R127 -/

/-- ADD and ADD.co. -/
def addOp (co : Bool) (a b : Word) : Word :=
  if co then boolWord (decide (2 ^ 32 ≤ a.toNat + b.toNat)) else a + b

/-- SUB and SUB.co. -/
def subOp (co : Bool) (a b : Word) : Word := if co then boolWord (decide (a.toNat < b.toNat)) else a - b

/-- ADDC and ADDC.co; the carry is c[0]. -/
def addcOp (co : Bool) (a b c : Word) : Word :=
  let n := a.toNat + b.toNat + c.toNat % 2
  if co then boolWord (decide (2 ^ 32 ≤ n)) else BitVec.ofNat 32 n

/-- SUBB and SUBB.co; the borrow is c[0]. -/
def subbOp (co : Bool) (a b c : Word) : Word :=
  let n : Int := (a.toNat : Int) - b.toNat - (c.toNat % 2 : Nat)
  if co then boolWord (decide (n < 0)) else BitVec.ofInt 32 n

/-- MULH.s. -/
def mulhsOp (a b : Word) : Word := BitVec.ofInt 32 ((a.toInt * b.toInt).fdiv (2 ^ 32))

/-- MULH.n. -/
def mulhnOp (a b : Word) : Word := BitVec.ofNat 32 (a.toNat * b.toNat / 2 ^ 32)

/-- MADW: a 64-bit product and sum. -/
def madwOp (sg : Bool) (a b : Word) (c : DWord) : DWord :=
  if sg then BitVec.ofInt 64 (a.toInt * b.toInt + c.toNat) else BitVec.ofNat 64 (a.toNat * b.toNat + c.toNat)

/-- DIV.s: toward zero; a zero divisor gives all ones, and the one overflow wraps. -/
def divsOp (a b : Word) : Word := if b = 0#32 then 0xFFFFFFFF#32 else BitVec.ofInt 32 (a.toInt.tdiv b.toInt)

/-- DIV.n. -/
def divnOp (a b : Word) : Word := if b = 0#32 then 0xFFFFFFFF#32 else BitVec.ofNat 32 (a.toNat / b.toNat)

/-- REM.s: the dividend for a zero divisor, else a - b x DIV.s. -/
def remsOp (a b : Word) : Word :=
  if b = 0#32 then a else BitVec.ofInt 32 (a.toInt - b.toInt * a.toInt.tdiv b.toInt)

/-- REM.n. -/
def remnOp (a b : Word) : Word := if b = 0#32 then a else BitVec.ofNat 32 (a.toNat % b.toNat)

/-- MIN.s. -/
def minsOp (a b : Word) : Word := if a.toInt ≤ b.toInt then a else b

/-- MIN.n. -/
def minnOp (a b : Word) : Word := if a.toNat ≤ b.toNat then a else b

/-- MAX.s. -/
def maxsOp (a b : Word) : Word := if b.toInt ≤ a.toInt then a else b

/-- MAX.n. -/
def maxnOp (a b : Word) : Word := if b.toNat ≤ a.toNat then a else b

/-- ABS; the most negative word stays. -/
def absOp (a : Word) : Word := BitVec.ofNat 32 a.toInt.natAbs

/-- LOGT: bit j of the result from bit j of each operand. -/
def logtOp (lut : BitVec 8) (a b c : Word) : Word :=
  BitVec.ofNat 32 ((List.range 32).foldl (fun acc j =>
    acc + (lut.getLsbD (4 * (a.getLsbD j).toNat + 2 * (b.getLsbD j).toNat + (c.getLsbD j).toNat)).toNat * 2 ^ j) 0)

/-- SHL by the whole word b. -/
def shlOp (a b : Word) : Word := if 32 ≤ b.toNat then 0#32 else a <<< b.toNat

/-- SHR.n by the whole word b. -/
def shrnOp (a b : Word) : Word := if 32 ≤ b.toNat then 0#32 else a >>> b.toNat

/-- SHR.s by min(b, 31). -/
def shrsOp (a b : Word) : Word := a.sshiftRight (min b.toNat 31)

/-- ROT: left by b mod 32. -/
def rotOp (a b : Word) : Word := a.rotateLeft (b.toNat % 32)

/-- FSHL: the high word of a:b shifted left by c mod 32. -/
def fshlOp (a b c : Word) : Word := BitVec.ofNat 32 ((a.toNat * 2 ^ 32 + b.toNat) * 2 ^ (c.toNat % 32) / 2 ^ 32)

/-- Position of a bit field (R128). -/
def fieldPos (b : Word) : Nat := b.toNat % 32

/-- Length of a bit field (R128). -/
def fieldLen (b : Word) : Nat := min (b.toNat / 32 % 64) 32

/-- BFX (R128). -/
def bfxOp (sx : Bool) (a b : Word) : Word :=
  let pos := fieldPos b
  let len := fieldLen b
  if len = 0 then 0#32
  else if sx then
    let f := ((a.toInt.fdiv (2 ^ pos)) % 2 ^ len).toNat
    BitVec.ofInt 32 (if 2 ^ (len - 1) ≤ f then (f : Int) - 2 ^ len else f)
  else BitVec.ofNat 32 (a.toNat / 2 ^ pos % 2 ^ len)

/-- BFI (R128): the low bits of a at pos in c, what passes bit 31 dropped. -/
def bfiOp (a b c : Word) : Word :=
  let pos := fieldPos b
  let len := fieldLen b
  let mask := (2 ^ len - 1) * 2 ^ pos
  let m := BitVec.ofNat 32 mask
  (c &&& ~~~m) ||| (BitVec.ofNat 32 (a.toNat * 2 ^ pos) &&& m)

/-- POPC. -/
def popcOp (a : Word) : Word := BitVec.ofNat 32 ((List.range 32).countP a.getLsbD)

/-- CLZ. -/
def clzOp (a : Word) : Word := BitVec.ofNat 32 (if a = 0#32 then 32 else 31 - a.toNat.log2)

/-- BREV. -/
def brevOp (a : Word) : Word := a.reverse

/-! ### Shapes -/

/-- One source. -/
def alu1 (gd : Guard) (d : Dest) (a : Src) (f : Word → Word) (s : State) : Outcome State Fault Refusal :=
  .next (result gd d 1 (fun t => do
    let x ← readSrc s t a
    .ok { words := [f x] }) s)

/-- Two sources, the second in the srcB position of R125. -/
def alu2 (gd : Guard) (d : Dest) (a : Src) (b : SrcB) (f : Word → Word → Word) (s : State) : Outcome State Fault Refusal :=
  .next (result gd d 1 (fun t => do
    let x ← readSrc s t a
    let y ← readB s t b
    .ok { words := [f x y] }) s)

/-- Three sources. -/
def alu3 (gd : Guard) (d : Dest) (a : Src) (b : SrcB) (c : Src) (f : Word → Word → Word → Word) (s : State) :
    Outcome State Fault Refusal :=
  .next (result gd d 1 (fun t => do
    let x ← readSrc s t a
    let y ← readB s t b
    let z ← readSrc s t c
    .ok { words := [f x y z] }) s)

/-! ### Meanings -/

/-- ADD (R127). -/
def execAdd (gd : Guard) (d : Dest) (a : Src) (b : SrcB) (co : Bool) (s : State) : Outcome State Fault Refusal :=
  alu2 gd d a b (addOp co) s

/-- SUB (R127). -/
def execSub (gd : Guard) (d : Dest) (a : Src) (b : SrcB) (co : Bool) (s : State) : Outcome State Fault Refusal :=
  alu2 gd d a b (subOp co) s

/-- ADDC (R127). -/
def execAddc (gd : Guard) (d : Dest) (a : Src) (b : SrcB) (c : Src) (co : Bool) (s : State) :
    Outcome State Fault Refusal :=
  alu3 gd d a b c (addcOp co) s

/-- SUBB (R127). -/
def execSubb (gd : Guard) (d : Dest) (a : Src) (b : SrcB) (c : Src) (co : Bool) (s : State) :
    Outcome State Fault Refusal :=
  alu3 gd d a b c (subbOp co) s

/-- MUL (R127). -/
def execMul (gd : Guard) (d : Dest) (a : Src) (b : SrcB) (s : State) : Outcome State Fault Refusal :=
  alu2 gd d a b (fun x y => x * y) s

/-- MULH.s (R127). -/
def execMulhS (gd : Guard) (d : Dest) (a : Src) (b : SrcB) (s : State) : Outcome State Fault Refusal :=
  alu2 gd d a b mulhsOp s

/-- MULH.n (R127). -/
def execMulhN (gd : Guard) (d : Dest) (a : Src) (b : SrcB) (s : State) : Outcome State Fault Refusal :=
  alu2 gd d a b mulhnOp s

/-- MAD (R127). -/
def execMad (gd : Guard) (d : Dest) (a : Src) (b : SrcB) (c : Src) (s : State) : Outcome State Fault Refusal :=
  alu3 gd d a b c (fun x y z => x * y + z) s

/-- MADW (R127, R130). -/
def execMadw (gd : Guard) (d : Dest) (a : Src) (b : SrcB) (c : Src) (sg : Bool) (s : State) :
    Outcome State Fault Refusal :=
  .next (result gd d 2 (fun t => do
    let x ← readSrc s t a
    let y ← readB s t b
    let z ← readPair s t c
    let v := madwOp sg x y z
    .ok { words := [loWord v, hiWord v] }) s)

/-- DIV.s (R127). -/
def execDivS (gd : Guard) (d : Dest) (a : Src) (b : SrcB) (s : State) : Outcome State Fault Refusal :=
  alu2 gd d a b divsOp s

/-- DIV.n (R127). -/
def execDivN (gd : Guard) (d : Dest) (a : Src) (b : SrcB) (s : State) : Outcome State Fault Refusal :=
  alu2 gd d a b divnOp s

/-- REM.s (R127). -/
def execRemS (gd : Guard) (d : Dest) (a : Src) (b : SrcB) (s : State) : Outcome State Fault Refusal :=
  alu2 gd d a b remsOp s

/-- REM.n (R127). -/
def execRemN (gd : Guard) (d : Dest) (a : Src) (b : SrcB) (s : State) : Outcome State Fault Refusal :=
  alu2 gd d a b remnOp s

/-- MIN.s (R127). -/
def execMinS (gd : Guard) (d : Dest) (a : Src) (b : SrcB) (s : State) : Outcome State Fault Refusal :=
  alu2 gd d a b minsOp s

/-- MIN.n (R127). -/
def execMinN (gd : Guard) (d : Dest) (a : Src) (b : SrcB) (s : State) : Outcome State Fault Refusal :=
  alu2 gd d a b minnOp s

/-- MAX.s (R127). -/
def execMaxS (gd : Guard) (d : Dest) (a : Src) (b : SrcB) (s : State) : Outcome State Fault Refusal :=
  alu2 gd d a b maxsOp s

/-- MAX.n (R127). -/
def execMaxN (gd : Guard) (d : Dest) (a : Src) (b : SrcB) (s : State) : Outcome State Fault Refusal :=
  alu2 gd d a b maxnOp s

/-- ABS (R127). -/
def execAbs (gd : Guard) (d : Dest) (a : Src) (s : State) : Outcome State Fault Refusal := alu1 gd d a absOp s

/-- NEG (R127). -/
def execNeg (gd : Guard) (d : Dest) (a : Src) (s : State) : Outcome State Fault Refusal := alu1 gd d a (fun x => -x) s

/-- LOGT (R127). -/
def execLogt (gd : Guard) (d : Dest) (a : Src) (b : SrcB) (c : Src) (lut : BitVec 8) (s : State) :
    Outcome State Fault Refusal :=
  alu3 gd d a b c (logtOp lut) s

/-- SHL (R127). -/
def execShl (gd : Guard) (d : Dest) (a : Src) (b : SrcB) (s : State) : Outcome State Fault Refusal :=
  alu2 gd d a b shlOp s

/-- SHR.n (R127). -/
def execShrN (gd : Guard) (d : Dest) (a : Src) (b : SrcB) (s : State) : Outcome State Fault Refusal :=
  alu2 gd d a b shrnOp s

/-- SHR.s (R127). -/
def execShrS (gd : Guard) (d : Dest) (a : Src) (b : SrcB) (s : State) : Outcome State Fault Refusal :=
  alu2 gd d a b shrsOp s

/-- ROT (R127). -/
def execRot (gd : Guard) (d : Dest) (a : Src) (b : SrcB) (s : State) : Outcome State Fault Refusal :=
  alu2 gd d a b rotOp s

/-- FSHL (R127). -/
def execFshl (gd : Guard) (d : Dest) (a : Src) (b : SrcB) (c : Src) (s : State) : Outcome State Fault Refusal :=
  alu3 gd d a b c fshlOp s

/-- BFX (R128). -/
def execBfx (gd : Guard) (d : Dest) (a : Src) (b : SrcB) (sx : Bool) (s : State) : Outcome State Fault Refusal :=
  alu2 gd d a b (bfxOp sx) s

/-- BFI (R128). -/
def execBfi (gd : Guard) (d : Dest) (a : Src) (b : SrcB) (c : Src) (s : State) : Outcome State Fault Refusal :=
  alu3 gd d a b c bfiOp s

/-- POPC (R127). -/
def execPopc (gd : Guard) (d : Dest) (a : Src) (s : State) : Outcome State Fault Refusal := alu1 gd d a popcOp s

/-- CLZ (R127). -/
def execClz (gd : Guard) (d : Dest) (a : Src) (s : State) : Outcome State Fault Refusal := alu1 gd d a clzOp s

/-- BREV (R127). -/
def execBrev (gd : Guard) (d : Dest) (a : Src) (s : State) : Outcome State Fault Refusal := alu1 gd d a brevOp s

/-- PSEL (R127, R129). -/
def execPsel (gd : Guard) (d : Dest) (a : Src) (b : SrcB) (k : Fin 8) (inv : Bool) (s : State) :
    Outcome State Fault Refusal :=
  .next (result gd d 1 (fun t => do
    let x ← readSrc s t a
    let y ← readB s t b
    .ok { words := [if (s.thread t).reads k != inv then x else y] }) s)

/-- MOV (R127). -/
def execMov (gd : Guard) (d : Dest) (a : Src) (s : State) : Outcome State Fault Refusal := alu1 gd d a id s

/-- MOVI (R131). -/
def execMovi (gd : Guard) (d : Dest) (imm : Word) (s : State) : Outcome State Fault Refusal :=
  .next (result gd d 1 (fun _ => .ok { words := [imm] }) s)

/-- LEA (R132): the address sum, without any check. -/
def execLea (gd : Guard) (d : Dest) (a : Src) (off : BitVec 24) (s : State) : Outcome State Fault Refusal :=
  .next (result gd d 2 (fun t => do
    let v ← flatAddr s t a off
    .ok { words := [loWord v, hiWord v] }) s)

end Sys2Proof.Machine
end

