-- ==== Sys2Proof/Machine/Control.lean ====
section
/-!
DEFINITION. The control group (opcodes 0x70 to 0x7D): per-thread transfers and the register window (R27, R140 to R145),
uniform branches and convergence (R212 to R215).
-/

namespace Sys2Proof.Machine

open Host (Outcome)

/-! ### Transfers -/

/-- Illegal branch target of a register target P (R142). -/
def badTarget (p : DWord) : Trap := trap64 2 p.toNat 0#32

/-- A register target checked (R142). -/
def checkTarget (p : DWord) : Except Trap Pc :=
  if 2 ^ 57 ≤ p.toNat || !slotForm p.toNat then .error (badTarget p) else .ok (p.setWidth 57)

/-- The window a taken CALL slides to, and the frame a spill trap names (R27). -/
def callWindow (th : Thread) : Except Trap Thread :=
  if th.wres = th.frames - 2 then
    .error { cls := 7, info2 := BitVec.ofNat 32 ((th.wb + th.frames - th.wres % th.frames) % th.frames) }
  else .ok { th with wb := (th.wb + 1) % th.frames, wres := th.wres + 1, wdep := th.wdep + 1 }

/-- The window a taken RET slides back to, and the frame a fill trap names (R27). -/
def retWindow (th : Thread) : Except Trap Thread :=
  if th.wres = 0 then .error { cls := 8, info2 := BitVec.ofNat 32 ((th.wb + th.frames - 1) % th.frames) }
  else .ok { th with wb := (th.wb + th.frames - 1) % th.frames, wres := th.wres - 1, wdep := th.wdep - 1 }

/-- The link of a CALL: w14 and w15 of the callee (R143). -/
def writeLink (th : Thread) (link : Pc) : Thread :=
  writeCells th ((cellsOf th (.w 14) 2).zip [link.setWidth 32, (link >>> 32).setWidth 32])

/-- The depth limit of a CALL (R27). -/
def checkDepth (th : Thread) : Except Trap Unit :=
  if th.wdep = 65535 then .error (illegal .depthLimit) else .ok ()

/-- A transfer of the executing threads. -/
def transfer (gd : Guard) (f : Tid → Thread → Except Trap (Thread × Pc)) (s : State) : Outcome State Fault Refusal :=
  .next (runGroup gd (fun t th => (f t th).map fun x => (x.1, .jump x.2)) skipPlain s)

/-- The PC of the instruction in progress. -/
def State.issuePc (s : State) : Pc := (s.issue.map fun i => i.pc).getD 0#57

/-- BRA (R141). -/
def execBra (gd : Guard) (tgt : Target) (s : State) : Outcome State Fault Refusal :=
  transfer gd (fun _ th => .ok (th, targetPc s.issuePc tgt)) s

/-- BRX (R141, R142). -/
def execBrx (gd : Guard) (a : Src) (s : State) : Outcome State Fault Refusal :=
  transfer gd (fun t th => do
    let p ← readPair s t a
    let pc ← checkTarget p
    .ok (th, pc)) s

/-- CALL (R141, R143, R144). -/
def execCall (gd : Guard) (tgt : Target) (s : State) : Outcome State Fault Refusal :=
  transfer gd (fun _ th => do
    checkDepth th
    let th1 ← callWindow th
    .ok (writeLink th1 (nextPc s.issuePc), targetPc s.issuePc tgt)) s

/-- CALLX (R141 to R144). -/
def execCallx (gd : Guard) (a : Src) (s : State) : Outcome State Fault Refusal :=
  transfer gd (fun t th => do
    checkDepth th
    let p ← readPair s t a
    let pc ← checkTarget p
    let th1 ← callWindow th
    .ok (writeLink th1 (nextPc s.issuePc), pc)) s

/-- RET (R141, R142, R144). -/
def execRet (gd : Guard) (a : Src) (s : State) : Outcome State Fault Refusal :=
  transfer gd (fun t th => do
    if th.wdep = 0 then .error (illegal .returnAtBase) else
    let p ← readPair s t a
    let pc ← checkTarget p
    let th1 ← retWindow th
    .ok (th1, pc)) s

/-- LOOPC (R141): the counter less one; taken while it is not 0. -/
def execLoopc (gd : Guard) (d : Dest) (tgt : Target) (s : State) : Outcome State Fault Refusal :=
  let f (t : Tid) : Except Trap Result := .ok { words := [readReg s t d.reg - 1#32] }
  .next (runGroup gd (fun t th =>
      (f t).map fun r =>
        (putResult th d 1 r, if readReg s t d.reg - 1#32 = 0#32 then .next else .jump (targetPc s.issuePc tgt)))
    (skipCapture s d) { s with cohorts := putShared s gd d 1 f })

/-- NOP (R145). -/
def execNop (gd : Guard) (s : State) : Outcome State Fault Refusal :=
  .next (runGroup gd (fun _ th => .ok (th, .next)) skipPlain s)

/-- YIELD (R145). -/
def execYieldRun (gd : Guard) (s : State) : Outcome State Fault Refusal :=
  .next (runGroup gd (fun _ th => .ok (th, .yield)) skipPlain s)

/-! ### Uniform branches -/

/-- A uniform branch: every participating thread jumps, or none (R198, R212). -/
def uniformBranch (gd : Guard) (tgt : Target) (take : Bool) (s : State) : Outcome State Fault Refusal :=
  .next (runGroup gd (fun _ th => .ok (th, if take then .jump (targetPc s.issuePc tgt) else .next)) skipPlain s)

/-- Participating threads with a predicate set (R212). -/
def predCount (s : State) (gd : Guard) (k : Fin 8) : Nat := (s.execs gd).countP fun t => (s.thread t).reads k

/-- BRANY (R212). -/
def execBrany (gd : Guard) (k : Fin 8) (tgt : Target) (s : State) : Outcome State Fault Refusal :=
  uniformBranch gd tgt (decide (1 ≤ predCount s gd k)) s

/-- BRALL (R212). -/
def execBrall (gd : Guard) (k : Fin 8) (tgt : Target) (s : State) : Outcome State Fault Refusal :=
  uniformBranch gd tgt (decide (1 ≤ (s.execs gd).length ∧ predCount s gd k = (s.execs gd).length)) s

/-- BRNONE (R212). -/
def execBrnone (gd : Guard) (k : Fin 8) (tgt : Target) (s : State) : Outcome State Fault Refusal :=
  uniformBranch gd tgt (decide (1 ≤ (s.execs gd).length ∧ predCount s gd k = 0)) s

/-! ### Convergence -/

/-- Illegal join at a stack depth (R431). -/
def illegalJoin (depth : Nat) : Trap := { cls := 6, info2 := BitVec.ofNat 32 depth }

/-- The executing threads of a cohort-scoped instruction with their cohort; none where no thread executes. -/
def forCohort (gd : Guard) (f : CohId → List Tid → State → State) (s : State) : Outcome State Fault Refusal :=
  match s.execs gd with
  | [] => .next (runGroup gd (fun _ th => .ok (th, .next)) skipPlain s)
  | t :: rest => .next (f t.coh (t :: rest) s)

/-- SPLIT (R200, R213). -/
def execSplit (gd : Guard) (tgt : Target) (s : State) : Outcome State Fault Refusal :=
  forCohort gd (fun c ts s =>
    if 16 ≤ (s.cohort c).conv.length then runGroup gd (fun _ _ => .error { cls := 5 }) skipPlain s
    else
      runGroup gd (fun _ th => .ok (th, .next)) skipPlain
        (s.modConv c fun st =>
          ({ join := targetPc s.issuePc tgt, mask := laneMask ts, arrived := 0#32 } : ConvEntry) :: st)) s

/-- JOIN (R201, R202, R214). -/
def execJoin (gd : Guard) (s : State) : Outcome State Fault Refusal :=
  forCohort gd (fun c ts s =>
    match (s.cohort c).conv with
    | [] => runGroup gd (fun _ _ => .error (illegalJoin 0)) skipPlain s
    | e :: rest =>
      if e.join ≠ s.issuePc then runGroup gd (fun _ _ => .error (illegalJoin (rest.length + 1))) skipPlain s
      else
        let s1 := runGroup gd (fun t th => .ok (th, if inMask e.mask t.lane then .block .conv else .next)) skipPlain s
        settleConv c (s1.modConv c fun _ => ({ e with arrived := e.arrived ||| (laneMask ts &&& e.mask) } : ConvEntry) :: rest)) s

/-- BREAK (R203, R215): n is one more than the field. -/
def execBreakOut (gd : Guard) (n : Fin 16) (tgt : Target) (s : State) : Outcome State Fault Refusal :=
  forCohort gd (fun c ts s =>
    let depth := (s.cohort c).conv.length
    if depth < n.val + 1 then runGroup gd (fun _ _ => .error (illegalJoin depth)) skipPlain s
    else
      let s1 := runGroup gd (fun _ th => .ok (th, .jump (targetPc s.issuePc tgt))) skipPlain s
      settleConv c (s1.modConv c fun st => dropLanes (n.val + 1) (laneMask ts) st)) s

end Sys2Proof.Machine
end

