-- ==== Sys2Proof/Machine/Levels.lean ====
section
/-!
DEFINITION. The levels of memory below the L1s (09, 20): DRAM sectors with their sideband, parity and health (R292, R293, R487 to
R497), base dies with their memory-side caches (R289, R290), home L2 slices (R283, R284), L1 sectors (R276), and subscriptions
with their directory and notifications (R277 to R282).
-/

namespace Sys2Proof.Machine

/-! ### DRAM -/

/-- The first physical address that names no DRAM byte (R292). -/
def dramLimit : Nat := 1785599950848

/-- Where a line stands in DRAM (R292). -/
structure DramPlace where
  stack : Nat
  group : Nat
  urow : Nat
  row : Nat
  col : Nat
  parity : Nat
  deriving DecidableEq, Repr

/-- The placement of R292. -/
def placeOf (pa : Nat) : DramPlace :=
  let n := pa / 128
  let m := n / 24
  let g := m % 32
  let u := m / 32
  { stack := 8 * (n / 8 % 3) + n % 8, group := g, urow := u, row := u / 32, col := u % 32, parity := 5 * g + u / 32 % 5 }

/-- The channel of data position k of a stripe row: the k-th lowest of the group other than the parity channel (R292). -/
def dataChannel (g parity k : Nat) : Nat := (((List.range 5).map fun i => 5 * g + i).filter fun c => c ≠ parity).getD k 0

/-- The placement of R496 for sector k of the line at stripe row u of a retired group: channel, row and column. -/
def placeRetired (r : Retired) (u k : Nat) : Nat × Nat × Nat :=
  let t := 4 * u + k
  if t < 56250000 then
    let v := t / 3
    let h := ((List.range 5).map fun i => 5 * r.group + i).filter fun c => c ≠ r.channel
    let hp := h.getD (v / 32 % 4) 0
    ((h.filter fun c => c ≠ hp).getD (t % 3) 0, v / 32, v % 32)
  else
    let x := (t - 56250000) / 4
    let d := r.donors.getD (x / 585938) 0
    let v := 18164062 + x % 585938
    (dataChannel d (5 * d + v / 32 % 5) ((t - 56250000) % 4), v / 32, v % 32)

/-- A retired group of a stack whose layout R496 has replaced for a stripe row (R497). -/
def Reliability.retiredAt (r : Reliability) (stack group urow : Nat) : Option Retired :=
  r.retired.find? fun x => x.stack = stack ∧ x.group = group ∧ (x.done ∨ urow < x.boundary)

/-- The channel that holds a physical sector, and its row (R292, R496, R497). -/
def State.channelOf (s : State) (sec : Nat) : Nat × Nat :=
  let p := placeOf (32 * sec)
  match s.rel.retiredAt p.stack p.group p.urow with
  | some r => let x := placeRetired r p.urow (sec % 4); (x.1, x.2.1)
  | none => (dataChannel p.group p.parity (sec % 4), p.row)

/-- LOC of a stack and channel (R502). -/
def locChannel (stack channel : Nat) : Nat := stack * 2 ^ 27 + channel * 2 ^ 19

/-- LOC of a core (R502). -/
def locCore (c : CoreId) : Nat := c.die * 2 ^ 30 + c.core * 2 ^ 24

/-- An event counted once by a counter (R557): none in the cycle of a CLR. -/
def EvCounter.tick (cycle : Nat) (c : EvCounter) : EvCounter :=
  if c.cleared = some cycle then c
  else { c with count := c.count + 1#48, ctl := if c.count = 0xFFFFFFFFFFFF#48 then c.ctl ||| 0x40000000#32 else c.ctl }

/-- An event of a source counted by the enabled counters of a place (R557). -/
def State.bump (s : State) (place : CtrPlace) (src : Nat) : State :=
  let on (p : (CtrPlace × Nat) × EvCounter) : Bool :=
    decide (p.1.1 = place) && p.2.ctl.getLsbD 31 && decide (p.2.ctl.toNat % 256 = src)
  { s with module := { s.module with counters := s.module.counters.map fun p => if on p then (p.1, p.2.tick s.cycle) else p } }

/-- An error record for the host's queue of 4,096 (R502). -/
def State.report (s : State) (kind pa loc : Nat) : State :=
  let r := s.rel
  if 4096 ≤ r.reports.length then { s with rel := { r with dropped := r.dropped + 1 } }
  else
    let e : ErrRec := { kind := kind, pa := pa, ptc := s.ptc.toNat % 2 ^ 48, loc := loc, drop := r.dropped }
    { s with rel := { r with reports := r.reports ++ [e], dropped := 0 } }

/-- What a sector's read met, reported and counted by its die (R489, R502, R557). -/
def State.reportSector (s : State) (kind pa stack loc : Nat) : State := (s.report kind pa loc).bump (.die (stack / 6)) kind

/-! ### Retirement -/

/-- The donors of a group's retirement (R496). -/
def Reliability.donorsFor (r : Reliability) (stack g : Nat) : List Nat :=
  let taken := (r.retired.filter fun x => x.stack = stack).flatMap fun x => x.group :: x.donors
  (((List.range 31).map fun i => (g + i + 1) % 32).filter fun d => d ∉ taken).take 7

/-- Whether a channel is out of service already: degraded, or retired (R495). -/
def State.channelOut (s : State) (stack channel : Nat) : Bool :=
  s.rel.degraded.contains (stack, channel) || s.rel.retired.any fun r => r.stack = stack ∧ r.channel = channel

/-- Retirement of a channel (R495): refused into degraded service, or begun. -/
def State.retireChannel (s : State) (stack channel : Nat) : State :=
  let g := channel / 5
  let r := s.rel
  let taken := (r.retired.filter fun x => x.stack = stack).flatMap fun x => x.group :: x.donors
  let ds := r.donorsFor stack g
  if g ∈ taken ∨ ds.length < 7 then
    State.report { s with rel := { r with degraded := (stack, channel) :: r.degraded.filter fun c => c ≠ (stack, channel) } } 10 0
      (locChannel stack channel)
  else
    let e : Retired := { stack := stack, group := g, channel := channel, donors := ds, boundary := 0, done := false }
    State.report { s with rel := { r with retired := r.retired ++ [e] } } 8 0 (locChannel stack channel)

/-- A Poisoned or Rebuilt outcome counted to a channel, which retires at eight within one pass (R495). -/
def State.countBad (s : State) (stack channel : Nat) : State :=
  let k := (stack, channel)
  let n := (tget s.rel.bad k).getD 0 + 1
  let s1 := { s with rel := { s.rel with bad := tput s.rel.bad k n } }
  if n = 8 ∧ s.channelOut stack channel = false then s1.retireChannel stack channel else s1

/-- A channel that fails its interface training retires, unless it is out of service (R495). -/
def State.trainingFails (s : State) (stack channel : Nat) : State :=
  if s.channelOut stack channel ∨ 24 ≤ stack ∨ 160 ≤ channel then s else s.retireChannel stack channel

/-! ### Stripes -/

/-- Sector k of the line at a stripe row of a group (R292). -/
def sectorAt (stack group urow k : Nat) : Nat := 4 * (24 * (32 * urow + group) + stack) + k

/-- The first sectors of a retired group that R496 places on its own channels, and the sectors of a group. -/
def ownSectors : Nat := 56250000

/-- Sectors of a group: four for each of its stripe rows (R293). -/
def groupSectors : Nat := 72656248

/-- Reserve stripe rows that R496 takes of one donor. -/
def donorRows : Nat := 585938

/-- The stripe that holds a data sector (R292, R496). -/
def State.stripeOf (s : State) (sec : Nat) : Stripe :=
  let p := placeOf (32 * sec)
  match s.rel.retiredAt p.stack p.group p.urow with
  | none => { stack := p.stack, group := p.group, row := p.urow, moved := false }
  | some r =>
    let t := 4 * p.urow + sec % 4
    if t < ownSectors then { stack := p.stack, group := p.group, row := t / 3, moved := true }
    else
      let x := (t - ownSectors) / 4
      { stack := p.stack, group := r.donors.getD (x / donorRows) 0, row := 18164062 + x % donorRows, moved := true }

/-- Sectors of a retired group by their number t of R496, those that stand in the new layout. -/
def Retired.sectors (r : Retired) (first n : Nat) : List Nat :=
  (((List.range n).map fun i => first + i).filter fun t => t < groupSectors ∧ (r.done ∨ t / 4 < r.boundary)).map fun t =>
    sectorAt r.stack r.group (t / 4) (t % 4)

/-- The data sectors of a stripe (R293, R496). -/
def State.membersOf (s : State) (x : Stripe) : List Nat :=
  if x.moved = false then (List.range 4).map (sectorAt x.stack x.group x.row)
  else if x.row < 18164062 ∨ s.rel.retired.any (fun r => r.stack = x.stack ∧ r.group = x.group) then
    ((s.rel.retired.find? fun r => r.stack = x.stack ∧ r.group = x.group).map fun r => r.sectors (3 * x.row) 3).getD []
  else
    ((s.rel.retired.find? fun r => r.stack = x.stack ∧ r.donors.contains x.group).map fun r =>
      r.sectors (ownSectors + 4 * (r.donors.idxOf x.group * donorRows + (x.row - 18164062))) 4).getD []

/-- The channel that holds a stripe's parity sector (R292, R496). -/
def State.parityChannel (s : State) (x : Stripe) : Nat :=
  let normal := 5 * x.group + x.row / 32 % 5
  if x.moved = false then normal
  else
    match s.rel.retired.find? fun r => r.stack = x.stack ∧ r.group = x.group with
    | some r => (((List.range 5).map fun i => 5 * x.group + i).filter fun c => c ≠ r.channel).getD (x.row / 32 % 4) 0
    | none => normal

/-! ### Sidebands -/

/-- PSN of a sideband (R487). -/
def sidePsn (w : DWord) : Bool := w.getLsbD 58

/-- KV of a sideband (R487). -/
def sideKv (w : DWord) : Nat := (w >>> 56).toNat % 4

/-- Bits [58:16] of a sideband as six bytes (R488). -/
def sideBytes (w : DWord) : List Byte := leBytes 6 ((w >>> 16).toNat % 2 ^ 43)

/-- A sideband with the check symbols of a sector's 38 byte symbols (R487, R488). -/
def withEcc (c : List Byte) (w : DWord) : DWord := (w >>> 16 <<< 16) ||| (Config.sectorEcc (c ++ sideBytes w)).setWidth 64

/-- The sideband of a sector from its poison, key version and tag (R487); the spare bits are 0. -/
def sideOf (psn : Bool) (kv : Nat) (tag : BitVec 40) (c : List Byte) : DWord :=
  withEcc c ((if psn then 1#64 <<< 58 else 0#64) ||| (BitVec.ofNat 64 (kv % 4) <<< 56) ||| (tag.setWidth 64 <<< 16))

/-- The sideband of a sector (R487). DESIGN CHOICE (log entry 12): KV, TAG and ECC of one that nothing has written since power-up are 0. -/
def State.sideband (s : State) (sec : Nat) : DWord := (tget s.rel.side sec).getD 0#64

/-- A sector is poisoned in DRAM (R489). -/
def State.psn (s : State) (sec : Nat) : Bool := sidePsn (s.sideband sec)

/-- The key version of a sector (R487). -/
def State.kvOf (s : State) (sec : Nat) : Nat := sideKv (s.sideband sec)

/-- The generation of the keys of a version (R493). -/
def Reliability.keyOf (r : Reliability) (kv : Nat) : Nat := (r.keys[kv % 4]'(Nat.mod_lt _ (by decide))).getD 0

/-- The ciphertext of a sector's bytes under the keys of a version (R488). -/
def Reliability.encrypt (r : Reliability) (kv sec : Nat) (bs : List Byte) : List Byte :=
  (List.range 32).map fun i => Config.cipherByte (r.keyOf kv) sec i bs

/-- The bytes of a sector as the array holds them. -/
def State.dramSector (s : State) (sec : Nat) : List Byte := cellGetAll 0#8 (32 * sec) 32 s.mem.dram

/-- DRAM bytes written without the sideband. -/
def State.dramPut (s : State) (a : Nat) (bs : List Byte) : State :=
  { s with mem := { s.mem with dram := cellPutAll 0#8 a bs s.mem.dram } }

/-- Thirty-two zero bytes. -/
def zeroSector : List Byte := List.replicate 32 0#8

/-- Bytes combined by exclusive OR. -/
def xorBytes (a b : List Byte) : List Byte := (a.zip b).map fun x => x.1 ^^^ x.2

/-- The parity sector of a stripe and its sideband (R293, R488): the exclusive OR of the stored ciphertext of its data sectors, and of
bits [58:16] of their sidebands, with check symbols of its own. A sector that nothing has written since power-up adds 0 (log entry
12). -/
def State.parityOf (s : State) (x : Stripe) : List Byte × DWord :=
  let each := (s.membersOf x).filterMap fun sec => (tget s.rel.side sec).map fun w => (s.rel.encrypt (sideKv w) sec (s.dramSector sec), w)
  let c := each.foldl (fun acc e => xorBytes acc e.1) zeroSector
  let w := each.foldl (fun (acc : DWord) e => acc ^^^ e.2) 0#64
  (c, withEcc c (w &&& 0x07FFFFFFFFFF0000#64))

/-- The parity of a sector's stripe updated (R293). -/
def State.putParity (s : State) (sec : Nat) : State :=
  let x := s.stripeOf sec
  { s with rel := { s.rel with parity := tput s.rel.parity x (s.parityOf x) } }

/-- Whether a sector's reads are served by rebuild and its writes update parity only: its channel is in degraded service (R495), or is
being retired and the line has not moved (R497). -/
def State.byRebuild (s : State) (sec : Nat) : Bool :=
  let p := placeOf (32 * sec)
  let c := (s.channelOf sec).1
  s.rel.degraded.contains (p.stack, c) ||
    s.rel.retired.any fun r => decide (r.stack = p.stack ∧ r.group = p.group ∧ r.channel = c) && !(r.done || decide (p.urow < r.boundary))

/-- Whether a stripe's parity sector stands in a channel that serves nothing: in degraded service (R495), or being retired (R497). -/
def State.parityOut (s : State) (x : Stripe) : Bool :=
  let c := s.parityChannel x
  s.rel.degraded.contains (x.stack, c) ||
    (!x.moved && s.rel.retired.any fun r => decide (r.stack = x.stack ∧ r.group = x.group ∧ r.channel = c))

/-- Whether a sector rebuilt from the rest of its stripe passes (R489). DESIGN CHOICE (log entry 12): it does where nothing of the rest
is broken or in a channel that serves nothing. -/
def State.rebuildable (s : State) (sec : Nat) : Bool :=
  let x := s.stripeOf sec
  let good (y : Nat) : Bool := decide (tget s.rel.sick y ≠ some .broken) && !s.byRebuild y
  decide (tget s.rel.sickParity x ≠ some .broken) && !s.parityOut x && (s.membersOf x).all fun y => y = sec || good y

/-! ### Sectors -/

/-- A sector written whole under the write version, with its poison (R488); the memory-side copy goes with it, and the array's own
sector is as good as written. -/
def State.sectorPut (s : State) (sec : Nat) (bs : List Byte) (psn : Bool) : State :=
  let r := s.rel
  let c := r.encrypt r.vw sec bs
  let w := sideOf psn r.vw (Config.sectorTag (r.keyOf r.vw) sec r.vw c) c
  let sick := if s.byRebuild sec then r.sick else terase r.sick sec
  State.putParity { State.dramPut s (32 * sec) bs with rel := { r with side := tput r.side sec w, sick := sick } } sec

/-! ### Bank engines beside the channels -/

/-- A bank engine that has seen nothing. -/
def BankEng.idle : BankEng :=
  { queue := [], st := .idle, mpc := 0, row := 0, acc := Vector.replicate 8 zeroSector, susp := 0, quiet := 0 }

/-- A bank engine. -/
def State.bank (s : State) (b : BankId) : BankEng := (tget s.eng.banks b).getD BankEng.idle

/-- A bank engine set. -/
def State.setBank (s : State) (b : BankId) (e : BankEng) : State := { s with eng := { s.eng with banks := tput s.eng.banks b e } }

/-- An engine that an ordinary request finds running suspends (R386). -/
def BankEng.suspend (e : BankEng) : BankEng := if e.st = .running then { e with st := .suspended, susp := e.susp + 1 } else e

/-- An ordinary request served on a bank engine's channels (R386). -/
def State.ordinary (s : State) (b : BankId) : State := s.setBank b { (s.bank b).suspend with quiet := s.ptc.toNat }

/-- The bank engine that serves the channel of a DRAM sector (R382). -/
def State.bankOf (s : State) (sec : Nat) : BankId := { stack := (placeOf (32 * sec)).stack, eng := (s.channelOf sec).1 / 2 }

/-- The bank engine that serves the channel of a DRAM sector's parity sector. -/
def State.parityBank (s : State) (sec : Nat) : BankId :=
  { stack := (placeOf (32 * sec)).stack, eng := s.parityChannel (s.stripeOf sec) / 2 }

/-! ### Reads and writes of DRAM -/

/-- The memory-side cache's clean copy of a sector gone. -/
def State.dropHeld (s : State) (sec : Nat) : State := { s with mem := { s.mem with held := terase s.mem.held sec } }

/-- What a read of a DRAM sector meets (R489). -/
inductive ReadOutcome where | clean | corrected | rebuilt | lost | poison
  deriving DecidableEq, Repr

/-- The outcome of R489 for a sector. -/
def State.readOutcome (s : State) (sec : Nat) : ReadOutcome :=
  if s.psn sec then .poison
  else if s.byRebuild sec || decide (tget s.rel.sick sec = some .broken) then (if s.rebuildable sec then .rebuilt else .lost)
  else if tget s.rel.sick sec = some .oneSymbol then .corrected
  else .clean

/-- A read of a DRAM sector (R489): its bytes and whether it is poisoned. -/
def sectorRead (s : State) (sec : Nat) : (List Byte × Bool) × State :=
  let bs := s.dramSector sec
  let stk := (placeOf (32 * sec)).stack
  let ch := (s.channelOf sec).1
  let told (kind : Nat) (st : State) : State := st.reportSector kind (32 * sec) stk (locChannel stk ch)
  match s.readOutcome sec with
  | .clean => ((bs, false), s)
  | .poison => ((bs, true), s)
  | .corrected => ((bs, false), told 1 (s.sectorPut sec bs false))
  | .rebuilt => ((bs, false), (told 2 (s.sectorPut sec bs false)).countBad stk ch)
  | .lost => ((zeroSector, true), (told 3 (s.sectorPut sec zeroSector true)).countBad stk ch)

/-- Bytes of a sector replaced from a place in it. -/
def patch (data : List Byte) (at' : Nat) (bs : List Byte) : List Byte := data.take at' ++ bs ++ data.drop (at' + bs.length)

/-- A whole sector written with its poison (R490), and with it its parity sector: ordinary requests of both channels (R386). -/
def sectorStore (s : State) (sec : Nat) (bs : List Byte) (poison : Bool) : State :=
  ((s.ordinary (s.bankOf sec)).ordinary (s.parityBank sec)).dropHeld sec |>.sectorPut sec bs poison

/-- A write of bytes within one DRAM sector (R488, R490): one of the whole sector clears its poison, a smaller one merges and keeps it. -/
def sectorWrite (s : State) (a : Nat) (bs : List Byte) : State :=
  if bs.length = 32 then sectorStore s (a / 32) bs false
  else
    let ((old, poison), s1) := sectorRead s (a / 32)
    sectorStore s1 (a / 32) (patch old (a % 32) bs) poison

/-! ### Weight stores -/

/-- A weight-store byte of a die (R273, R288): undefined until loaded. -/
def State.weight (s : State) (die o : Nat) : Byte :=
  (((tget s.mem.weights die).bind fun l => tget l o)).getD (Config.weightByte die o)

/-- Bytes of the weight store. -/
def State.weightBytes (s : State) (die o n : Nat) : List Byte := (List.range n).map fun i => s.weight die (o + i)

/-- The check symbols of a granule (R491): the ECC of R487 over its bytes, with no tag and nothing encrypted. -/
def State.granuleEcc (s : State) (die granule : Nat) : BitVec 16 := Config.sectorEcc (s.weightBytes die (32 * granule) 32 ++ List.replicate 6 0#8)

/-- Whether the granule of a weight-store byte is one that its ECC cannot correct, and so is poisoned (R491). -/
def State.granuleLost (s : State) (die o : Nat) : Bool := decide (tget s.rel.weightSick (die, o / 32) = some .broken)

/-! ### Memory-side caches -/

/-- Lines of a stack that a memory-side cache holds. -/
def State.sideLines (s : State) (stack : Nat) : List Nat :=
  ((s.mem.counted.map fun (p : Nat × Counted) => p.1) ++ (s.mem.held.map fun (p : Nat × List Byte) => p.1 / 4)).eraseDups.filter fun n =>
    n % 24 = stack

/-- A line leaves its memory-side cache: what has been written of a counted one is written back, and its count is lost (R290). -/
def evictSide (line : Nat) (s : State) : State :=
  let back := ((tget s.mem.counted line).map fun c => c.sectors).getD []
  let s1 := { s with mem := { s.mem with counted := terase s.mem.counted line, held := s.mem.held.filter fun p => p.1 / 4 ≠ line } }
  back.foldl (fun st x => sectorStore st x.1 x.2.1 x.2.2) s1

/-- Lines that fit in a memory-side cache: 32 MiB (R254). -/
def sideCapacity : Nat := 262144

/-- Room for a line in its stack's memory-side cache (R254, R290). -/
def State.sideRoom (s : State) (line : Nat) : State :=
  if s.mem.counted.length + s.mem.held.length < sideCapacity then s
  else
    let ls := s.sideLines (line % 24)
    if ls.contains line ∨ ls.length < sideCapacity then s
    else evictSide (ls.getD (Config.victim s.free % ls.length) 0) { s with free := s.free + 1 }

/-- A sector as the memory-side cache holds it (R289, R290): one written in a counted line, or a clean copy. -/
def State.sideCopy (s : State) (sec : Nat) : Option (List Byte × Bool) :=
  match (tget s.mem.counted (sec / 4)).bind fun c => tget c.sectors sec with
  | some x => some x
  | none => (tget s.mem.held sec).map fun bs => (bs, false)

/-- A sector read at its base die: from the memory-side cache, or from DRAM, which fills it (R289, R490). -/
def sideRead (s : State) (sec : Nat) : (List Byte × Bool) × State :=
  match s.sideCopy sec with
  | some x => (x, s)
  | none =>
    let ((bs, poison), s1) := sectorRead (s.ordinary (s.bankOf sec)) sec
    if poison then ((bs, true), s1)
    else
      let s2 := s1.sideRoom (sec / 4)
      ((bs, false), { s2 with mem := { s2.mem with held := tput s2.mem.held sec bs } })

/-- A read at the base die of bytes within one sector (R289). -/
def baseRead (s : State) (pa n : Nat) : (List Byte × Bool) × State :=
  let ((bs, poison), s1) := sideRead s (pa / 32)
  (((bs.drop (pa % 32)).take n, poison), s1)

/-- A whole sector stored at its base die with its poison: a counted line takes it and keeps its count (R290); otherwise it goes
through to DRAM, and a copy that the memory-side cache holds is updated (R276; log entry 15). -/
def baseStore (s : State) (sec : Nat) (bs : List Byte) (poison : Bool) : State :=
  match tget s.mem.counted (sec / 4) with
  | some c =>
    { s with mem := { s.mem with counted := tput s.mem.counted (sec / 4) { c with sectors := tput c.sectors sec (bs, poison) },
                                 held := terase s.mem.held sec } }
  | none =>
    let had := (tget s.mem.held sec).isSome && !poison
    let s1 := sectorStore s sec bs poison
    if had then { s1 with mem := { s1.mem with held := tput s1.mem.held sec bs } } else s1

/-- An access as a write leaves what it saw (log entry 20). -/
def Access.seeWrite (a : Access) (pa : Nat) (bs : List Byte) : Access :=
  { a with seen := a.seen.zipIdx.map fun x => if pa ≤ a.pa + x.2 ∧ a.pa + x.2 < pa + bs.length then bs.getD (a.pa + x.2 - pa) 0#8 else x.1 }

/-- A write seen by the accesses on their way. -/
def State.seeWrite (s : State) (pa : Nat) (bs : List Byte) : State :=
  { s with mem := { s.mem with accesses := s.mem.accesses.map fun a => a.seeWrite pa bs } }

/-- A sector at its base die without filling the memory-side cache. -/
def sidePeek (s : State) (sec : Nat) : (List Byte × Bool) × State :=
  match s.sideCopy sec with
  | some x => (x, s)
  | none => sectorRead (s.ordinary (s.bankOf sec)) sec

/-- A write at the base die of bytes within one sector (R289, R490): it updates the memory-side cache where that holds the sector, and
fills nothing (R276). -/
def baseWrite (s : State) (pa : Nat) (bs : List Byte) : State :=
  State.seeWrite (if bs.length = 32 then baseStore s (pa / 32) bs false
  else
    let ((old, poison), s1) := sidePeek s (pa / 32)
    baseStore s1 (pa / 32) (patch old (pa % 32) bs) poison) pa bs

/-! ### Home L2 slices -/

/-- The die of a physical line's stack, whose home L2 slice holds it (R283). -/
def dieOfLine (line : Nat) : Nat := line % 24 / 6

/-- The newest write-back of a sector that its base die has not accepted. -/
def State.pendingBack (s : State) (sec : Nat) : Option WriteBackMsg := s.mem.writeBacks.reverse.find? fun w => w.sector = sec

/-- A byte as its home holds it, looked at without a read. -/
def State.homeByte (s : State) (a : Nat) : Byte :=
  match tget s.mem.l2 (a / 32) with
  | some l => l.data.getD (a % 32) 0#8
  | none =>
    match s.pendingBack (a / 32) with
    | some w => w.data.getD (a % 32) 0#8
    | none =>
      match s.sideCopy (a / 32) with
      | some x => x.1.getD (a % 32) 0#8
      | none => cellGet 0#8 a s.mem.dram

/-- n bytes as their homes hold them. -/
def State.homeBytes (s : State) (a n : Nat) : List Byte := (List.range n).map fun i => s.homeByte (a + i)

/-- Whether a read of a sector would meet poison (R490): at its base die, or at its home first. -/
def State.poisoned (s : State) (memside : Bool) (sec : Nat) : Bool :=
  let deep :=
    match s.sideCopy sec with
    | some x => x.2
    | none => s.readOutcome sec = .poison || s.readOutcome sec = .lost
  if memside then deep
  else match tget s.mem.l2 sec, s.pendingBack sec with
    | some l, _ => l.poison
    | none, some w => w.poison
    | none, none => deep

/-! ### Subscriptions -/

/-- The tile of a physical address. -/
def tileOf (pa : Nat) : Nat := pa / 4096 * 4096

/-- The comparison encoding of an element at a format (R92). -/
def subEnc (f : SubFmt) (v : Nat) : Nat := cmpEncode .f32 f v

/-- A core's subscription to a tile. -/
def State.subOf (s : State) (core : CoreId) (pa : Nat) : Option Subscription :=
  s.mem.subs.find? fun x => x.core = core ∧ x.pa = tileOf pa

/-- The directory entry of a tile. -/
def State.dirOf (s : State) (pa : Nat) : Option DirTile := s.mem.dir.find? fun d => d.pa = tileOf pa

/-- Every sharer's copy of some sectors of a tile invalidated through the directory (R332). -/
def State.dropCopies (s : State) (pa : Nat) (secs : List Nat) : State :=
  let drop (x : Subscription) : Subscription :=
    if x.pa = tileOf pa then { x with sectors := x.sectors.filter fun p => p.1 ∉ secs } else x
  { s with mem := { s.mem with subs := s.mem.subs.map drop } }

/-- The subscribed copies of a line's tile invalidated, and its directory entry with them (R280). -/
def State.dropTile (s : State) (pa : Nat) : State :=
  match s.dirOf pa with
  | none => s
  | some d =>
    let s1 := s.dropCopies pa (List.range 128)
    { s1 with mem := { s1.mem with dir := s1.mem.dir.filter fun x => x.pa ≠ d.pa } }

/-- Whether a core holds a member of a domain instance (R270): beyond the die, every core of the module (R278). -/
def State.inAudience (s : State) (a : Audience) (c : CoreId) : Bool :=
  let here (f : TeamId × Team → Bool) : Bool :=
    s.teams.any fun p => decide (s.gateLid p.1.lid = s.gateLid a.lid ∧ p.2.core = c) && f p
  match a.dom with
  | .team => here fun p => decide (p.1.k3 = a.inst)
  | .clus => here fun p => decide (p.2.k4 = a.inst)
  | .die => decide (c.die = a.inst)
  | .pkg | .fab => true

/-- The sharers that a write to a tile is compared for (R278): the recorded ones, or in broadcast mode every subscribed core
of the domain instance. -/
def State.sharersOf (s : State) (d : DirTile) : List (CoreId × SubFmt) :=
  if d.broadcast then
    (s.mem.subs.filter fun x => x.pa = d.pa && s.inAudience d.audience x.core).map fun x => (x.core, x.fmt)
  else d.sharers

/-- A core registered as a sharer (R278): a ninth turns the entry to broadcast. -/
def State.registerSharer (s : State) (core : CoreId) (pa : Nat) (f : SubFmt) (a : Audience) : State :=
  let tile := tileOf pa
  let d := (s.dirOf pa).getD { pa := tile, sharers := [], broadcast := false, audience := a }
  let others := d.sharers.filter fun x => decide (x.1 ≠ core)
  let d' : DirTile :=
    if d.broadcast then d
    else if others.length < 8 then { d with sharers := others ++ [(core, f)] }
    else { d with sharers := [], broadcast := true }
  { s with mem := { s.mem with dir := d' :: s.mem.dir.filter fun x => x.pa ≠ tile } }

/-- An element of a tile that a write touches: its address, and its value before and after. -/
structure Touched where
  pa : Nat
  before : Nat
  after : Nat
  deriving DecidableEq, Repr

/-- Elements of a tile that a write touches. -/
def touchedElems (pa : Nat) (before after : List Byte) : List Touched :=
  (List.range (before.length / 4)).map fun i =>
    { pa := pa + 4 * i, before := leNat ((before.drop (4 * i)).take 4), after := leNat ((after.drop (4 * i)).take 4) }

/-- Whether a notice about some sectors of a tile is on its way to a core. -/
def State.noticeDue (s : State) (core : CoreId) (pa : Nat) (secs : List Nat) : Bool :=
  s.mem.notices.any fun n => decide (n.core = core ∧ n.pa = pa) && n.sectors.any secs.contains

/-- Notifications of a write to a tile's sharers (R279), by the elements that it touches; large says that the write covers more than
32 bytes. A sharer with no changed element has none; but where an older one about the write's sectors is still on its way to it, the
write waits behind that: the notice that stands for this names no element and no sector (R303, R318; log entry 71). -/
def State.notifyTile (s : State) (access : Nat) (tid : Option Tid) (tile : Nat) (es : List Touched) (large : Bool) : State :=
  match s.dirOf tile with
  | none => s
  | some d =>
    let mk (x : CoreId × SubFmt) (st : State) : State :=
      let ch := es.filter fun e => subEnc x.2 e.before ≠ subEnc x.2 e.after
      let secs := (es.map fun e => e.pa % 4096 / 32).eraseDups
      if ch.isEmpty && !st.noticeDue x.1 d.pa secs then st
      else
        let (id, st1) := st.fresh
        let nt : Notice := { id := id, core := x.1, pa := d.pa, update := !large, elems := ch.map fun e => (e.pa % 4096 / 4, e.after),
                             sectors := if ch.isEmpty then [] else secs, access := access, tid := tid }
        { st1 with mem := { st1.mem with notices := st1.mem.notices ++ [nt] } }
    (s.sharersOf d).foldl (fun st x => mk x st) s

/-- Notifications of a write, tile by tile. -/
def State.notify (s : State) (access : Nat) (tid : Option Tid) (es : List Touched) (large : Bool) : State :=
  (es.map fun e => tileOf e.pa).eraseDups.foldl (fun st tile => st.notifyTile access tid tile (es.filter fun e => tileOf e.pa = tile) large) s

/-! ### Reads and writes at the homes -/

/-- A sector leaves its home slice; a dirty one is written back (R284, R490). -/
def evictSector (s : State) (sec : Nat) : State :=
  match tget s.mem.l2 sec with
  | none => s
  | some l =>
    let s1 := { s with mem := { s.mem with l2 := terase s.mem.l2 sec } }
    if l.dirty then
      baseStore { s1 with mem := { s1.mem with writeBacks := s1.mem.writeBacks.filter fun w => w.sector ≠ sec } } sec l.data l.poison
    else s1

/-- Sectors of a physical line. -/
def lineSectors (line : Nat) : List Nat := (List.range 4).map fun k => 4 * line + k

/-- A line leaves its home slice, and every copy of its tile with it (R280, R284). -/
def evictLine (line : Nat) (s : State) : State := ((lineSectors line).foldl evictSector s).dropTile (128 * line)

/-- Lines that fit in a die's L2: 192 MiB (R254). -/
def l2Capacity : Nat := 1572864

/-- Room for a line in its home slice's L2 (R254). -/
def State.l2Room (s : State) (line : Nat) : State :=
  if s.mem.l2.length < l2Capacity then s
  else
    let ls := (s.mem.l2.map fun p => p.1 / 4).eraseDups.filter fun n => dieOfLine n = dieOfLine line
    if ls.contains line ∨ ls.length < l2Capacity then s
    else evictLine (ls.getD (Config.victim s.free % ls.length) 0) { s with free := s.free + 1 }

/-- A sector put into its home slice. -/
def State.putL2 (s : State) (sec : Nat) (l : L2Sector) : State :=
  let s1 := s.l2Room (sec / 4)
  { s1 with mem := { s1.mem with l2 := tput s1.mem.l2 sec l } }

/-- A sector of a home slice, read in where it is not valid (R284). -/
def homeFill (s : State) (sec : Nat) : L2Sector × State :=
  match tget s.mem.l2 sec with
  | some l => (l, s)
  | none =>
    match s.pendingBack sec with
    | some w =>
      let l : L2Sector := { data := w.data, dirty := false, poison := w.poison }
      (l, s.putL2 sec l)
    | none =>
      let ((bs, poison), s1) := sideRead s sec
      let l : L2Sector := { data := bs, dirty := false, poison := poison }
      (l, s1.putL2 sec l)

/-- A read at the home of bytes within one sector. -/
def homeRead (s : State) (pa n : Nat) : (List Byte × Bool) × State :=
  let (l, s1) := homeFill s (pa / 32)
  (((l.data.drop (pa % 32)).take n, l.poison), s1)

/-- A write at the home of bytes within one sector (R284): it allocates, but for STNA, which writes through where the home
does not hold the sector (R276). -/
def homeWrite (s : State) (pa : Nat) (bs : List Byte) (alloc : Bool) : State :=
  let sec := pa / 32
  let put (l : L2Sector) (s1 : State) : State :=
    s1.putL2 sec { data := patch l.data (pa % 32) bs, dirty := true, poison := l.poison && decide (bs.length < 32) }
  match tget s.mem.l2 sec with
  | some l => (put l s).seeWrite pa bs
  | none =>
    if alloc then
      (let (l, s1) := homeFill s sec
       (put l s1).seeWrite pa bs)
    else baseWrite s pa bs

/-- The whole words that some bytes touch, as their homes hold them: where they start, and their bytes. -/
def State.wordsAround (s : State) (pa n : Nat) : Nat × List Byte :=
  let lo := pa / 4 * 4
  (lo, s.homeBytes lo ((pa + n + 3) / 4 * 4 - lo))

/-- Bytes written at their home within one sector, with the elements touched. -/
def homeTouch (s : State) (pa : Nat) (bs : List Byte) (alloc : Bool) : List Touched × State :=
  let w := s.wordsAround pa bs.length
  let s1 := homeWrite s pa bs alloc
  (touchedElems w.1 w.2 (s1.wordsAround pa bs.length).2, s1)

/-- A write of bytes within one sector at its home with its notifications. -/
def homeStore (s : State) (access : Nat) (tid : Option Tid) (pa : Nat) (bs : List Byte) (alloc large : Bool) : State :=
  let (es, s1) := homeTouch s pa bs alloc
  s1.notify access tid es large

/-! ### L1 sectors -/

/-- L1 sectors kept where a test holds. -/
def State.keepL1 (s : State) (keep : L1Key → Nat → Bool) : State :=
  { s with mem := { s.mem with l1 := s.mem.l1.filter fun p => keep p.1 p.2.1 } }

/-- A core's copies of a physical sector invalidated. -/
def State.dropL1 (s : State) (core : CoreId) (sec : Nat) : State :=
  s.keepL1 fun k p => decide (k.core ≠ core ∨ p ≠ sec)

/-- A core's copies of a physical sector updated (R276). -/
def State.updateL1 (s : State) (core : CoreId) (pa : Nat) (bs : List Byte) : State :=
  { s with mem := { s.mem with l1 := s.mem.l1.map fun p =>
      if p.1.core = core ∧ p.2.1 = pa / 32 then (p.1, (p.2.1, patch p.2.2 (pa % 32) bs)) else p } }

/-- Lines of an L1 that a subscribed tile takes (R277). -/
def subLines : SubFmt → Nat
  | .f32 | .native => 32
  | .f16 | .bf16 => 16
  | .e4m3 | .e5m2 => 8

/-- Lines that fit in a core's L1 beside its subscribed tiles: 512 KiB in all (R254, R277). -/
def State.l1Capacity (s : State) (core : CoreId) : Nat :=
  4096 - ((s.mem.subs.filter fun x => x.core = core).map fun x => subLines x.fmt).sum

/-- The line of an L1 sector. -/
def L1Key.line (k : L1Key) : CoreId × Nat × Nat := (k.core, k.asid, k.sector / 4)

/-- Lines of a core's L1 replaced until some more fit (R254); fuel bounds their number. -/
def State.l1Room (fuel : Nat) (core : CoreId) (more : Nat) (s : State) : State :=
  match fuel with
  | 0 => s
  | n + 1 =>
    if s.mem.l1.length + more ≤ s.l1Capacity core then s
    else
      let ls := ((s.mem.l1.map fun p => p.1.line).filter fun x => x.1 = core).eraseDups
      match ls[Config.victim s.free % ls.length]? with
      | some x =>
        if ls.length + more ≤ s.l1Capacity core then s
        else State.l1Room n core more (({ s with free := s.free + 1 } : State).keepL1 fun k _ => decide (k.line ≠ x))
      | none => s

/-- A sector put into an L1. -/
def State.putL1 (s : State) (k : L1Key) (sec : Nat) (bs : List Byte) : State :=
  let s1 := if s.mem.l1.any fun p => p.1.line = k.line then s else s.l1Room 1 k.core 1
  { s1 with mem := { s1.mem with l1 := tput s1.mem.l1 k (sec, bs) } }

end Sys2Proof.Machine
end

