-- ==== Sys2Proof/Machine/MemOps.lean ====
section
/-!
DEFINITION. Accesses to memory below the scratchpad: regions (R268 to R274), translation (R457 to R465), the checks of a group's
accesses and their requests (R295 to R297, R463), elementary accesses on their way to their homes (R298 to R303) and the values
they return (R25).
-/

namespace Sys2Proof.Machine

/-! ### Regions -/

/-- Where a thread's core stands. -/
def State.coreOf (s : State) (t : Tid) : CoreId := (s.cohort t.coh).part.core

/-- The entry that covers an address (R271). -/
def Launch.entryAt (l : Launch) (va : Nat) : Option Region := l.regions.find? fun r => r.base ≤ va ∧ va < r.limit

/-- The region of an address covered by no entry (R271). -/
def bareRegion (die : Nat) : Region :=
  { base := 0, limit := 2 ^ 57, kind := .plain, dom := .die, inst := die, gate := 0, nonIdem := false, untagged := false }

/-- The region of an address for a thread. -/
def State.regionAt (s : State) (t : Tid) (va : Nat) : Region :=
  ((s.launch t).bind fun l => l.entryAt va).getD (bareRegion (s.coreOf t).die)

/-- A thread's instance in a domain (R305). -/
def State.instanceOf (s : State) (t : Tid) (d : Dom) : Nat :=
  match d with
  | .team => t.coh.team.k3
  | .clus => ((s.team t.coh.team).map fun m => m.k4).getD 0
  | .die => (s.coreOf t).die
  | .pkg | .fab => 0

/-- Code of a domain (R270). -/
def domCode : Dom → Nat
  | .team => 0
  | .clus => 1
  | .die => 2
  | .pkg => 3
  | .fab => 4

/-! ### Translation -/

/-- A bit of a PTE. -/
def pteBit (e n : Nat) : Bool := decide (e / 2 ^ n % 2 = 1)

/-- FRAME as the physical address it names (R459). -/
def pteFrame (e : Nat) : Nat := e / 2 ^ 16 % 2 ^ 36 * 2 ^ 16

/-- What a walk finds: a leaf by its address, value and size, or why there is none. -/
inductive WalkRes where
  | leaf (a pte : Nat) (big : Bool)
  | unmapped
  | malformed
  deriving DecidableEq, Repr

/-- A PTE read through its home L2 slice (R458). -/
def State.pte (s : State) (a : Nat) : Nat × State :=
  let ((bs, _), s1) := homeRead s a 8
  (leNat bs, s1)

/-- An entry at levels 3 to 1 where it is a table pointer: the table it points to. -/
def tablePointer (e : Nat) : Except WalkRes Nat :=
  if pteBit e 0 = false then .error .unmapped
  else if e ≠ pteFrame e + 1 then .error .malformed
  else .ok (pteFrame e)

/-- A leaf checked for its form (R459), the states of R465's second row before it. -/
def leafCheck (a e : Nat) (big : Bool) : WalkRes :=
  if pteBit e 0 = false ∧ pteBit e 1 = false then .unmapped
  else if (pteBit e 2 = true ∧ pteBit e 3 = false) ∨ (big = true ∧ (pteFrame e % 2 ^ 28 ≠ 0 ∨ pteBit e 1 = true))
      ∨ (pteBit e 0 = false ∧ pteBit e 1 = true ∧ pteFrame e ≠ 0) then .malformed
  else .leaf a e big

/-- An entry at level 3 or 2: the table it points to (R458). -/
def upperPointer (e : Nat) : Except WalkRes Nat :=
  if pteBit e 8 then (if pteBit e 0 = false ∧ pteBit e 1 = false then .error .unmapped else .error .malformed) else tablePointer e

/-- The walk of R458, each entry read through its home. DESIGN CHOICE (log entry 16): a table pointer beyond DRAM (R292) finds entries
of zeros there. -/
def State.walk (s : State) (root va : Nat) : WalkRes × State :=
  let (e3, s1) := s.pte (root + 8 * (va / 2 ^ 52 % 32))
  match upperPointer e3 with
  | .error r => (r, s1)
  | .ok t2 =>
    let (e2, s2) := s1.pte (t2 + 8 * (va / 2 ^ 40 % 4096))
    match upperPointer e2 with
    | .error r => (r, s2)
    | .ok t1 =>
      let a1 := t1 + 8 * (va / 2 ^ 28 % 4096)
      let (e1, s3) := s2.pte a1
      if pteBit e1 8 then (leafCheck a1 e1 true, s3)
      else
        match tablePointer e1 with
        | .error r => (r, s3)
        | .ok t0 =>
          let a0 := t0 + 8 * (va / 2 ^ 16 % 4096)
          let (e0, s4) := s3.pte a0
          (if pteBit e0 8 = false then (if pteBit e0 0 = false then .unmapped else .malformed) else leafCheck a0 e0 false, s4)

/-- The physical address of a virtual one in a leaf (R458). -/
def leafPa (pte : Nat) (big : Bool) (va : Nat) : Nat :=
  if big then pteFrame pte / 2 ^ 28 * 2 ^ 28 + va % 2 ^ 28 else pteFrame pte + va % 2 ^ 16

/-- A translation fault's outcome (R465), or the leaf that serves the access. -/
inductive TrRes where
  | ok (pa pte : Nat)
  | remote (own : Bool)
  | declined (reason : Nat)
  deriving DecidableEq, Repr

/-- The outcome of R465 for a leaf. -/
def leafOutcome (k : AccKind) (pte : Nat) (pa : Nat) : TrRes :=
  if k = .fetch ∧ pteBit pte 4 = false then .declined 2
  else if k = .write ∧ pteBit pte 3 = false then .declined 2
  else if pteBit pte 0 = false then .remote false
  else if k = .write ∧ pteBit pte 2 = false then (if pteBit pte 1 then .remote true else .declined 2)
  else .ok pa pte

/-- Whether a cached leaf serves an access as it stands (R462). -/
def tlbServes (k : AccKind) (pte : Nat) : Bool :=
  pteBit pte 5 && (k ≠ .write || (pteBit pte 6 && pteBit pte 2)) && (k ≠ .fetch || pteBit pte 4)

/-- A TLB's leaf for an address. -/
def tlbFind (l : List TlbEntry) (asid va : Nat) : Option TlbEntry :=
  l.find? fun e => e.asid = asid ∧ e.vpn ≤ va / 65536 ∧ va / 65536 < e.vpn + e.pages

/-- A leaf put first in a TLB of a capacity. -/
def tlbPut (cap : Nat) (e : TlbEntry) (l : List TlbEntry) : List TlbEntry :=
  (e :: l.filter fun x => x.asid ≠ e.asid ∨ x.vpn ≠ e.vpn).take cap

/-- A leaf cached by a core and its die (R462). -/
def State.tlbFill (s : State) (core : CoreId) (e : TlbEntry) : State :=
  let m := s.mem
  { s with mem := { m with coreTlb := tput m.coreTlb core (tlbPut 512 e ((tget m.coreTlb core).getD [])),
                           dieTlb := tput m.dieTlb core.die (tlbPut 32768 e ((tget m.dieTlb core.die).getD [])) } }

/-- A PTE changed at its home L2 slice. -/
def State.setPte (s : State) (a e : Nat) : State := homeWrite s a (leBytes 8 e) true

/-- The leaf with A, and D for a write, set (R460). -/
def accessedPte (k : AccKind) (pte : Nat) : Nat :=
  let e := if pteBit pte 5 then pte else pte + 32
  if k = .write ∧ pteBit e 6 = false then e + 64 else e

/-- The leaf that a core's TLB, or its die's, holds and that serves an access (R462). -/
def State.tlbHit (s : State) (core : CoreId) (asid va : Nat) (k : AccKind) : Option TlbEntry :=
  let hit := (tlbFind ((tget s.mem.coreTlb core).getD []) asid va).or (tlbFind ((tget s.mem.dieTlb core.die).getD []) asid va)
  hit.filter fun e => tlbServes k e.pte

/-- What a walk gives an access of a core (R458 to R465): A and D are set in its leaf, and the leaf is cached. -/
def walked (s : State) (fill : TlbEntry → State → State) (asid va : Nat) (k : AccKind) (w : WalkRes) : TrRes × State :=
  match w with
  | .unmapped => (.declined 1, s)
  | .malformed => (.declined 3, s)
  | .leaf a pte big =>
    match leafOutcome k pte (leafPa pte big va) with
    | .ok pa _ =>
      let pte' := accessedPte k pte
      let s1 := if pte' = pte then s else s.setPte a pte'
      let vpn := if big then va / 2 ^ 28 * 4096 else va / 65536
      (.ok pa pte', fill { asid := asid, vpn := vpn, pages := if big then 4096 else 1, pte := pte' } s1)
    | r => (r, s)

/-- Translation of an access of a core (R457 to R465): a TLB, or a walk that fills the TLBs. -/
def translate (s : State) (core : CoreId) (asid : Nat) (root : Option Nat) (va : Nat) (k : AccKind) : TrRes × State :=
  match root with
  | none => (.declined 1, s)
  | some rt =>
    match s.tlbHit core asid va k with
    | some e => (.ok (leafPa e.pte (decide (1 < e.pages)) va) e.pte, s)
    | none =>
      let (w, s1) := s.walk rt va
      walked s1 (fun e st => st.tlbFill core e) asid va k w

/-- A leaf cached by a die (R462). -/
def State.dieFill (s : State) (die : Nat) (e : TlbEntry) : State :=
  { s with mem := { s.mem with dieTlb := tput s.mem.dieTlb die (tlbPut 32768 e ((tget s.mem.dieTlb die).getD [])) } }

/-- Translation of a walker's access, through the TLB of the die that issued its command (R387). -/
def dieTranslate (s : State) (die asid : Nat) (root : Option Nat) (va : Nat) (k : AccKind) : TrRes × State :=
  match root with
  | none => (.declined 1, s)
  | some rt =>
    match (tlbFind ((tget s.mem.dieTlb die).getD []) asid va).filter fun e => tlbServes k e.pte with
    | some e => (.ok (leafPa e.pte (decide (1 < e.pages)) va) e.pte, s)
    | none =>
      let (w, s1) := s.walk rt va
      walked s1 (fun e st => st.dieFill die e) asid va k w

/-- The address space of a thread: ASID and root of its launch. -/
def State.spaceOf (s : State) (t : Tid) : Nat × Option Nat := ((s.launch t).map fun l => (l.asid, l.root)).getD (0, none)

/-! ### What a thread has on its way -/

/-- Whether two byte ranges share a line. -/
def sameLine (a b : Nat) : Bool := decide (a / 128 = b / 128)

/-- Whether a maintenance instruction covers a physical sector. -/
def Maint.covers (m : Maint) (sec : Nat) : Bool := m.ranges.any fun r => r.2.1 ≤ 32 * sec ∧ 32 * sec < r.2.1 + r.2.2

/-- Whether an access is one that a team made before it was last placed or restored: its later ones come after it (R302, context
edge). -/
def State.beforeEdge (s : State) (t : TeamId) (u : Tid) (id : Nat) : Bool :=
  decide (u.coh.team = t) && (match s.team t with | some m => decide (id < m.edge) | none => false)

/-- Whether a team's accesses from before its last placement or restore have not all performed (R302). -/
def State.edgeOpen (s : State) (t : TeamId) : Bool :=
  (s.mem.accesses.any fun b => s.beforeEdge t b.tid b.id) || (s.mem.maints.any fun m => s.beforeEdge t m.tid m.id) ||
    s.mem.notices.any fun n => n.tid.any fun u => s.beforeEdge t u n.access

/-- Whether a thread has an access or maintenance on its way to a line (R300), or its team one from before its restore (R302). -/
def State.busyLine (s : State) (t : Tid) (pa : Nat) : Bool :=
  (s.mem.accesses.any fun a => a.tid = t && sameLine a.pa pa) || (s.mem.maints.any fun m => m.tid = t && m.covers (pa / 32)) ||
    s.edgeOpen t.coh.team

/-- A thread's L1 sector for an address that it may read at once: none of its own accesses is on the way to the line
(R276, R300). -/
def State.l1Hit (s : State) (t : Tid) (va pa : Nat) : Option (List Byte) :=
  if s.busyLine t pa then none
  else
    (tget s.mem.l1 { core := s.coreOf t, asid := (s.spaceOf t).1, sector := va / 32 }).bind fun x =>
      if x.1 = pa / 32 then some x.2 else none

/-! ### Judging a group's accesses -/

/-- What the checks of R296 give for one thread's access; the region is the one that covers it, with the 16-byte grain only where the
page has it too (R274). -/
inductive Judged where
  | trap (tr : Trap)
  | fault (va : Nat) (reason : Option Nat)
  | ok (va pa : Nat) (r : Region)
  deriving DecidableEq, Repr

/-- Access violation of a cause (R431). -/
def accessViolation (a cause : Nat) : Trap := trap64 10 a (BitVec.ofNat 32 cause)

/-- Poison consumed at a physical address (R431). -/
def poisonTrap (pa : Nat) : Trap := trap64 12 pa 0#32

/-- What a flat access asks for: how it is aligned and how long it is, what it does, which regions take it, whether it reads, and
whether a copy in the thread's core serves the sector of a virtual and a physical address (R320, R269, R490). -/
structure Asked where
  align : Nat
  size : Nat
  kind : AccKind
  allow : RegKind → Bool
  reads : Bool
  near : State → Tid → Nat → Nat → Bool := fun _ _ _ _ => false

/-- A load finds its sector in the L1 (R276). -/
def nearL1 (s : State) (t : Tid) (va pa : Nat) : Bool := (s.l1Hit t va pa).isSome

/-- A poisoned sector read, as R489 has it, before the trap that it raises. -/
def readPoison (s : State) (memside : Bool) (sec : Nat) : State := if memside then (sideRead s sec).2 else (homeFill s sec).2

/-- The first poisoned sector that a thread's access would read outside its core (R490). -/
def poisonAt (s : State) (q : Asked) (t : Tid) (va pa : Nat) (memside : Bool) : Option Nat :=
  if q.reads then
    (((List.range ((pa + q.size - 1) / 32 + 1 - pa / 32)).map fun i => pa / 32 + i).filter fun sec =>
      !q.near s t (32 * (va / 32 + (sec - pa / 32))) (32 * sec)).find? (s.poisoned memside)
  else none

/-- One thread's flat access checked in the order of R320. -/
def judge (s : State) (q : Asked) (t : Tid) (addr : Except Trap DWord) : Judged × State :=
  let checked : Except Trap Nat := do
    let a ← addr
    checkFlat a q.align
    .ok a.toNat
  match checked with
  | .error tr => (.trap tr, s)
  | .ok va =>
    let r := s.regionAt t va
    if r.kind = .weight then
      let o := r.inst * 65536 + (va - r.base)
      if q.allow .weight = false then (.trap (accessViolation va 3), s)
      else if q.reads && s.granuleLost (s.coreOf t).die o then (.trap (poisonTrap o), s.report 4 0 (locCore (s.coreOf t)))
      else (.ok va o r, s)
    else
      let sp := s.spaceOf t
      if (sp.1, va / 65536) ∈ (s.thread t).replayTrap then (.trap (accessViolation va 5), s)
      else
        let (res, s1) := translate s (s.coreOf t) sp.1 sp.2 va q.kind
        match res with
        | .remote _ => (.fault va none, s1)
        | .declined n => (.fault va (some n), s1)
        | .ok pa pte =>
          if q.allow r.kind = false then (.trap (accessViolation va 3), s1)
          else if dramLimit < pa + q.size then (.trap (accessViolation va 4), s1)
          else
            match poisonAt s1 q t va pa (r.kind = .memside) with
            | some sec =>
              (.trap (poisonTrap (if pa / 32 = sec then pa else 32 * sec)),
                (readPoison s1 (r.kind = .memside) sec).report 4 (32 * sec) (locCore (s.coreOf t)))
            | none => (.ok va pa { r with untagged := r.untagged && !pteBit pte 7 }, s1)

/-- The executing threads judged in ascending lane order. -/
def judgeAll (q : Asked) (addr : Tid → Except Trap DWord) : List Tid → State → List (Tid × Judged) × State
  | [], s => ([], s)
  | t :: rest, s =>
    let (j, s1) := judge s q t (addr t)
    let (js, s2) := judgeAll q addr rest s1
    ((t, j) :: js, s2)

/-- A judgement that is a trap. -/
def Judged.isTrap : Judged → Bool
  | .trap _ => true
  | .fault _ _ | .ok _ _ _ => false

/-- A judgement that is a translation fault. -/
def Judged.isFault : Judged → Bool
  | .fault _ _ => true
  | .trap _ | .ok _ _ _ => false

/-! ### Parking -/

/-- A fault of a group: page, address, declined reason and the threads that touch it. -/
structure PageFault where
  key : PageKey
  va : Nat
  reason : Option Nat
  touch : List Tid
  deriving DecidableEq, Repr

/-- The faults of a group by page, in the order met (R467). -/
def gatherFaults (s : State) (js : List (Tid × Judged)) : List PageFault :=
  js.foldl (fun acc p =>
    match p.2 with
    | .fault va reason =>
      let key : PageKey := { asid := (s.spaceOf p.1).1, vpn := va / 65536 }
      if acc.any (fun f => f.key = key) then
        acc.map fun f => if f.key = key then { f with touch := f.touch ++ [p.1] } else f
      else acc ++ [{ key := key, va := va, reason := reason, touch := [p.1] }]
    | .trap _ | .ok _ _ _ => acc) []

/-- The lowest free records of a die's RFQ (R467). -/
def State.rfqFree (s : State) (die n : Nat) : List Nat :=
  let used := (s.vnp.rfq.filter fun r => r.die = die).map fun r => r.idx
  ((List.range (used.length + n)).filter fun i => i ∉ used ∧ i < 8192).take n

/-- The declined faults that the host's queue has room for go to it, in arrival order (R485). -/
def forwardDeclined (v : Vnp) : Vnp :=
  let step (v : Vnp) (r : ParkRec) : Vnp :=
    match r.st with
    | .declined n =>
      if r.asked.isSome ∨ 1024 ≤ v.declined.length then v
      else
        let d : Declined := { id := r.order, va := r.va, asid := r.key.asid, rfqi := r.idx, die := r.die, kind := r.kind, reason := n,
                              lid := r.lid, tids := r.tids, pc := r.pc }
        { v with declined := v.declined ++ [d],
                 rfq := v.rfq.map fun x => if x.order = r.order then { x with asked := some r.order } else x }
    | _ => v
  v.rfq.foldl step v

/-- The frame that holds a page. -/
def Vnp.frameOf (v : Vnp) (key : PageKey) : Option Frame := v.frames.find? fun f => f.key = key

/-- A remote record's state at arrival (R469): resolved at once where the page is here with the rights it needs. -/
def arrivalState (v : Vnp) (key : PageKey) (k : AccKind) (reason : Option Nat) : ParkState :=
  match reason with
  | some n => .declined n
  | none =>
    match v.frameOf key with
    | some f => if k ≠ .write ∨ f.owned then .installed else .waiting
    | none => .waiting

/-- A chain for the key of a record of a launch, by its queue and root table, where it has none (R469). -/
def Vnp.startChain (v : Vnp) (r : ParkRec) (space : Nat × Option Nat) : Vnp :=
  if (v.chains.any fun c => c.key = r.key) then v
  else { v with chains := v.chains ++ [{ key := r.key, first := r.order, queue := space.1, root := space.2, st := .arrived, seq := 0,
                                         sent := r.tarr, retries := 0, since := r.tarr, frameWait := none }] }

/-- The queue and the root table of a launch. -/
def State.queueOf (s : State) (lid : Nat) : Nat × Option Nat := ((s.launchOf lid).map fun l => (l.desc.queue, l.root)).getD (0, none)

/-- What a replay checks at its slot (R38): the line, where the fetch of it has not been checked, and no branch target. -/
def EntryKind.replayed (k : EntryKind) : EntryKind := if k = .transfer then .line else k

/-- A core's partition. -/
def State.partition (s : State) (p : PartId) : Part :=
  (tget s.parts p).getD { entries := [], queue := [], runs := [], replays := [], admissions := [], retry := none }

/-- A partition changed. -/
def State.setPart (s : State) (p : PartId) (q : Part) : State := { s with parts := tput s.parts p q }

/-- A group that waits for admission in its partition (R191). -/
def State.addReplay (s : State) (p : PartId) (r : Replay) : State :=
  s.setPart p { s.partition p with replays := (s.partition p).replays ++ [r] }

/-- Groups all of whose records are resolved leave the RFQ (R477): their threads arrive at their instruction (R185), where each group
waits for admission in wake order (R191). -/
def wakeGroups (s : State) : State :=
  let resolved (r : ParkRec) : Bool := r.st = .installed || r.st = .answered
  let done := (s.vnp.rfq.map fun r => r.group).eraseDups.filter fun g =>
    (s.vnp.rfq.filter fun r => r.group = g).all resolved
  let wake (s : State) (g : Nat) : State :=
    match s.vnp.rfq.find? fun r => r.group = g with
    | none => s
    | some r =>
      State.addReplay { s with
        vnp := { s.vnp with rfq := s.vnp.rfq.filter fun x => x.group ≠ g },
        threads := s.threads.map fun p => if p.1 ∈ r.tids then (p.1, { p.2 with status := .arriving, wait := none, entry := p.2.entry.replayed }) else p }
        r.part { tids := r.tids, pc := r.pc, admitted := none }
  done.foldl wake s

/-- A core's threads taken out of the entries, runs, queue and replays of a partition. -/
def Part.without (p : Part) (gone : Tid → Bool) : Part :=
  { p with entries := (p.entries.map fun e => { e with tids := e.tids.filter fun t => !gone t }).filter fun e => !e.tids.isEmpty,
           queue := p.queue.filter fun x => !gone x.1,
           runs := (p.runs.map fun r => { r with tids := r.tids.filter fun t => !gone t }).filter fun r => !r.tids.isEmpty,
           replays := (p.replays.map fun r => { r with tids := r.tids.filter fun t => !gone t }).filter fun r => !r.tids.isEmpty }

/-- Threads taken out of every partition and every waiting slot. -/
def State.unseat (s : State) (gone : Tid → Bool) : State :=
  { s with parts := s.parts.map fun p => (p.1, p.2.without gone), late := s.late.filter fun l => !gone l.tid }

/-- Park(group, pages) of the group in progress (R467): a record for each page, every thread Parked with its run kept; or a
wait for records where too few are free. -/
def parkGroup (k : AccKind) (fs : List PageFault) (s : State) : State :=
  match s.issue with
  | none => s
  | some is =>
    let die := is.part.core.die
    let free := s.rfqFree die fs.length
    if free.length < fs.length then runGroup alwaysGuard (fun _ th => .ok (th, .stay (some (.rfq die)))) skipPlain s
    else
      let now := s.ptc.toNat
      let group := s.nextId
      let lid := (is.tids.head?.map fun t => t.coh.team.lid).getD 0
      let mk (i : Nat) (f : PageFault) (idx : Nat) : ParkRec :=
        { die := die, idx := idx, key := f.key, va := f.va, lid := lid, tids := is.tids, touch := f.touch, pc := is.pc, kind := k,
          part := is.part, tarr := now, order := s.nextId + i, group := group,
          st := arrivalState s.vnp f.key k f.reason, asked := none }
      let recs := (fs.zip free).zipIdx.map fun x => mk x.2 x.1.1 x.1.2
      let v := { s.vnp with rfq := s.vnp.rfq ++ recs }
      let v1 := recs.foldl (fun v r => if r.st = .waiting then v.startChain r (s.queueOf lid) else v) v
      let park (p : Tid × Thread) : Tid × Thread :=
        if p.1 ∈ is.tids then
          (p.1, { p.2 with status := .parked, wait := none, kept := some { latches := p.2.latches, rsl := is.rsl } })
        else p
      let s1 := { s with vnp := forwardDeclined v1, nextId := s.nextId + fs.length, threads := s.threads.map park }
      let s2 := recs.foldl (fun st r => match r.st with | .declined _ => st.bump .vnp 2 | _ => st) (s1.bump (.core is.part.core) 3)
      wakeGroups (s2.unseat fun t => decide (t ∈ is.tids))

/-! ### Elementary accesses -/

/-- The bytes of a value as the registers take them (R146). -/
def extWords (ext : LdSize) (bs : List Byte) : List Word :=
  let v := leNat bs
  match ext with
  | .n8 | .n16 => [BitVec.ofNat 32 v]
  | .s8 => [(BitVec.ofNat 8 v).signExtend 32]
  | .s16 => [(BitVec.ofNat 16 v).signExtend 32]
  | .w32 | .d64 | .q128 => leWords bs

/-- An outstanding write of some cells made, earlier ones to the same cells superseded (R25). -/
def addPend (id : Nat) (cells : List RegCell) (ps : List Pend) : List Pend :=
  (cells.foldl (fun acc c => supersede c acc) ps) ++ [{ id := id, cells := cells, live := cells.map fun _ => true }]

/-- A value sent back to the registers of a thread. -/
def State.arrive (s : State) (t : Tid) (pend : Nat) (ws : List Word) (bank : Option (Nat × Nat)) (page : Option PageKey := none) : State :=
  { s with mem := { s.mem with arrivals := s.mem.arrivals ++ [{ pend := pend, tid := t, words := ws, bank := bank, page := page }] } }

/-- The page of a virtual address of a thread. -/
def State.pageOf (s : State) (t : Tid) (va : Nat) : PageKey := { asid := (s.spaceOf t).1, vpn := va / 65536 }

/-- The page that an access was translated in. -/
def Access.page (a : Access) : PageKey := { asid := a.asid, vpn := a.va / 65536 }

/-- An outstanding write of an instruction's result (R25): shared cells are the cohort's where the thread leads (R23). -/
def State.expect (s : State) (t : Tid) (cells : List RegCell) (shared : Bool) : Nat × State :=
  let (id, s1) := s.fresh
  if shared then
    (id, (s1.modCohort t.coh fun c => { c with pends := addPend id cells c.pends }).modThread t fun th =>
      { th with pends := addPend id [] th.pends })
  else (id, s1.modThread t fun th => { th with pends := addPend id cells th.pends })

/-- The cells a thread's result goes to: none where it is suppressed or another thread leads (R23, R58). -/
def resultCells (th : Thread) (d : Dest) (n : Nat) (lead : Bool) : List RegCell :=
  if d.wbs || (d.reg.isS && !lead) then [] else cellsOf th d.reg n

/-- Words written into the live cells of an outstanding write. -/
def liveCells (p : Pend) (ws : List Word) : List (RegCell × Word) :=
  ((p.cells.zip p.live).zip ws).filterMap fun x => if x.1.2 then some (x.1.1, x.2) else none

/-- What has come of the value that a latch awaits. -/
abbrev Came := Latch → Option Word

/-- The words of an outstanding write, for the latches that captured it (R56). -/
def pendCame (id : Nat) (ws : List Word) : Came
  | .pend i k => if i = id then some (ws.getD k 0#32) else none
  | .invalid | .valid _ | .token _ _ => none

/-- An execution's completion token, for the latches that captured it (R56, R353). -/
def tokenCame (exec : Nat) (w : Word) : Came
  | .token _ e => if e = exec then some w else none
  | .invalid | .valid _ | .pend _ _ => none

/-- A latch whose outstanding value may have come. -/
def Latch.fill (f : Came) (l : Latch) : Latch :=
  match f l with
  | some w => .valid w
  | none => l

/-- A run kept, its latches filled. -/
def Kept.fill (f : Came) (k : Kept) : Kept := { k with latches := k.latches.map (Latch.fill f) }

/-- A trap record with the latches whose values have come (R434). -/
def fillRecord (f : Came) (ls : Vector Latch 4) (record : Vector Word 16) : Vector Word 16 :=
  (List.finRange 4).foldl (fun (v : Vector Word 16) (n : Fin 4) =>
    match f ls[n] with
    | some w => v.set (9 + n.val) w (by omega)
    | none => v) record

/-- A thread whose latches have received an outstanding value. -/
def Thread.fill (f : Came) (th : Thread) : Thread :=
  { th with latches := th.latches.map (Latch.fill f), kept := th.kept.map (Kept.fill f),
            trw := (th.record.map fun k => fillRecord f k.latches th.trw).getD th.trw, record := th.record.map (Kept.fill f) }

/-- A report of an undelivered trap with the latches whose values have come (R434, R441). -/
def TrapReport.fill (f : Came) (r : TrapReport) : TrapReport :=
  { r with record := fillRecord f r.latches r.record, latches := r.latches.map (Latch.fill f) }

/-- The same of a report that the host holds, where it names a thread of a cohort. -/
def HostReport.fill (c : CohId) (f : Came) : HostReport → HostReport
  | .trap lid tid core record latches others =>
    if tid.coh = c then .trap lid tid core (fillRecord f latches record) (latches.map (Latch.fill f)) others
    else .trap lid tid core record latches others
  | r => r

/-- A value that has come, given to every latch of a cohort that awaits it: in its threads, in runs they keep, and in trap records
(R56, R61, R434). -/
def State.fillLatches (s : State) (c : CohId) (f : Came) : State :=
  { s with threads := s.threads.map fun p => if p.1.coh = c then (p.1, p.2.fill f) else p,
           traps := s.traps.map fun r => if r.tid.coh = c then r.fill f else r,
           cp := { s.cp with reports := s.cp.reports.map (HostReport.fill c f) } }

/-- A register write completes (R25): live cells take their words, latches that captured it theirs (R56, R61). -/
def completePend (s : State) (t : Tid) (id : Nat) (ws : List Word) : State :=
  let own (th : Thread) : Thread :=
    let cells := (th.pends.filter fun p => p.id = id).flatMap fun p => liveCells p ws
    let th1 := { th with pends := th.pends.filter fun p => p.id ≠ id, syncReads := th.syncReads.filter fun i => i ≠ id }
    writeCells th1 cells
  let co (c : Cohort) : Cohort :=
    let cells := (c.pends.filter fun p => p.id = id).flatMap fun p => liveCells p ws
    Cohort.writeS { c with pends := c.pends.filter fun p => p.id ≠ id } cells
  ((s.modThread t own).modCohort t.coh co).fillLatches t.coh (pendCame id ws)

/-- The least that is requested for some bytes of a region (R295): the aligned half of their sector that they lie in where the 16-byte
grain is permitted, else the sector. -/
def grain (pa : Nat) (r : Region) : Nat × Nat := if r.untagged then (pa / 16 * 16, 16) else (pa / 32 * 32, 32)

/-- Bytes of a sector as a base die holds them, looked at without a read. -/
def State.sideBytes (s : State) (pa n : Nat) : List Byte :=
  ((((s.sideCopy (pa / 32)).map fun x => x.1).getD (s.dramSector (pa / 32))).drop (pa % 32)).take n

/-- Whether an operation reads. -/
def AccOp.reads : AccOp → Bool
  | .load | .loadSub _ _ | .loadCount | .atomic _ _ => true
  | .store _ _ | .storeCount _ _ => false

/-- What a reading access finds at its home when it is checked (log entry 20). -/
def State.seenBytes (s : State) (op : AccOp) (memside : Bool) (pa size : Nat) : List Byte :=
  if op.reads = false then [] else if memside then s.sideBytes pa size else s.homeBytes pa size

/-- An access sent to its home. -/
def State.send (s : State) (t : Tid) (va pa size : Nat) (op : AccOp) (r : Region) (ret : Option RetTo) (after : List Nat) :
    State :=
  let (id, s1) := s.fresh
  let a : Access := { id := id, tid := t, core := s.coreOf t, asid := (s.spaceOf t).1, va := va, pa := pa, size := size, op := op,
                      memside := decide (r.kind = .memside), gate := r.gate, dom := r.dom, ret := ret, after := after,
                      seen := s.seenBytes op (decide (r.kind = .memside)) pa size, exec := id, req := grain pa r, whole := false, miss := none }
  { s1 with mem := { s1.mem with accesses := s1.mem.accesses ++ [a] } }

/-- The pieces of an access of at most 8 bytes each: offset and size (R298). -/
def piecesOf (size : Nat) : List (Nat × Nat) := if size = 16 then [(0, 8), (8, 8)] else [(0, size)]

/-- Whether the launch of an access must have its page copied first (R499). -/
def State.snapshotBlocks (s : State) (lid pa : Nat) : Bool :=
  match s.launchOf lid with
  | some l => l.replayable && !(l.snapshot.any fun x => x.page = pa / 65536)
  | none => false

/-- Whether an operation stores bytes of its own. -/
def AccOp.stores : AccOp → Bool
  | .load | .loadSub _ _ | .loadCount => false
  | .store _ _ | .atomic _ _ | .storeCount _ _ => true

/-- Whether an operation stores bytes and reads none. -/
def AccOp.plainStore : AccOp → Bool
  | .store _ _ | .storeCount _ _ => true
  | .load | .loadSub _ _ | .loadCount | .atomic _ _ => false

/-- Whether an access writes at its turn (R301): it stores, or it is an LDRC that drops its line. -/
def State.writesNow (s : State) (a : Access) : Bool :=
  a.op.stores || (decide (a.op = .loadCount) && (tget s.mem.counted (a.pa / 128)).any fun c => decide (c.count ≤ 1))

/-- Whether an operation is a store that allocates nowhere (R276). -/
def AccOp.throughOnly : AccOp → Bool
  | .store _ alloc => !alloc
  | .load | .loadSub _ _ | .loadCount | .atomic _ _ | .storeCount _ _ => false

/-- Whether a write of a number has not performed: the access itself, its notifications, a discard, or the passes of a scratch
instruction (R301, R307, R311). -/
def State.unperformed (s : State) (id : Nat) : Bool :=
  (s.mem.accesses.any fun a => a.id = id) || (s.mem.notices.any fun n => n.access = id) || (s.mem.maints.any fun m => m.id = id) ||
    s.mem.passes.any fun p => p.exec = id

/-- Whether two accesses of a thread keep program order (R300): they share a byte, or a line of a base die, whose count and whose
drop at 0 bear on all of it (R290, R301). -/
def Access.meets (a b : Access) : Bool :=
  (a.memside && sameLine b.pa a.pa) || decide (b.pa < a.pa + a.size ∧ a.pa < b.pa + b.size)

/-- Whether two accesses go to one home L2 slice, or to one base die (R283, R289). -/
def Access.sameHome (a b : Access) : Bool :=
  decide (a.memside = b.memside) &&
    (if a.memside then decide ((placeOf a.pa).stack = (placeOf b.pa).stack) else decide (dieOfLine (a.pa / 128) = dieOfLine (b.pa / 128)))

/-- Whether an access has been sent: nothing holds it back in its core (R310). -/
def State.isSent (s : State) (a : Access) : Bool := a.after.all fun i => !s.unperformed i

/-- Whether an access may perform: what is ordered before it has performed, its thread's earlier accesses that it meets and
maintenance of its sector too (R300, R310), those of its thread that were sent to the same home before it (R509), and its team's from
before its restore (R302); the snapshot holds its page (R499); and one that writes through meets no write-back of its sector on the way
(R276). -/
def State.mayPerform (s : State) (a : Access) : Bool :=
  s.isSent a &&
  !(s.mem.accesses.any fun b => b.id < a.id && decide (b.tid = a.tid) && (a.meets b || (a.sameHome b && s.isSent b))) &&
  !(s.mem.maints.any fun m => m.id < a.id && decide (m.tid = a.tid) && m.covers (a.pa / 32)) &&
  (s.beforeEdge a.tid.coh.team a.tid a.id || !s.edgeOpen a.tid.coh.team) &&
  !(s.writesNow a && s.snapshotBlocks a.tid.coh.team.lid a.pa) &&
  !(a.op.throughOnly && !a.memside && (tget s.mem.l2 (a.pa / 32)).isNone && (s.pendingBack (a.pa / 32)).isSome)

/-- A read of an access's bytes at its home. -/
def accessRead (s : State) (a : Access) : (List Byte × Bool) × State :=
  if a.memside then baseRead s a.pa a.size else homeRead s a.pa a.size

/-- Whether an access is the last of those by which one execution stores a whole sector, and the sector is poisoned still (R490). -/
def State.clears (s : State) (a : Access) : Bool :=
  a.whole && !(s.mem.accesses.any fun b => b.whole && decide (b.exec = a.exec ∧ b.pa / 32 = a.pa / 32 ∧ b.id ≠ a.id)) &&
    s.poisoned a.memside (a.pa / 32)

/-- Where an access writes and what: the bytes that it stores, or the whole sector, where its execution has covered that (R295, R490). -/
def State.writeOf (s : State) (a : Access) (bs : List Byte) : Nat × List Byte :=
  if s.clears a then
    (let base := a.pa / 32 * 32
     (base, patch (if a.memside then s.sideBytes base 32 else s.homeBytes base 32) (a.pa % 32) bs))
  else (a.pa, bs)

/-- A write of an access's bytes at its home. -/
def accessWrite (s : State) (a : Access) (bs : List Byte) (alloc : Bool) : State :=
  let w := s.writeOf a bs
  if a.memside then baseWrite s w.1 w.2
  else (homeStore s a.id (some a.tid) w.1 w.2 alloc false)

/-- One of the values that come together has come; with the last of them their outstanding write's value is on its way (R148, R152,
R258). -/
def State.gatherPart (s : State) (id k : Nat) (bs : List Byte) : State :=
  let put (g : Gather) : Gather := if g.id = id then { g with parts := g.parts.set k (some bs) } else g
  let gs := s.mem.gathers.map put
  match gs.reverse.find? fun g => g.id = id with
  | none => s
  | some g =>
    if g.parts.all Option.isSome then
      State.arrive { s with mem := { s.mem with gathers := gs.filter fun x => x.id ≠ id } } g.tid id
        (extWords g.ext (g.parts.flatMap fun p => p.getD [])) none g.page
    else { s with mem := { s.mem with gathers := gs } }

/-- Words returned to the registers an access names. -/
def giveWords (s : State) (a : Access) (ws : List Word) : State :=
  match a.ret with
  | some r => s.arrive a.tid r.pend ws none (some a.page)
  | none => s

/-- Bytes returned to the registers an access names (R146), or to the value they are part of. -/
def giveBytes (s : State) (a : Access) (bs : List Byte) : State :=
  match a.ret with
  | some r =>
    match r.part with
    | some k => s.gatherPart r.pend k bs
    | none => s.arrive a.tid r.pend (extWords r.ext bs) none (some a.page)
  | none => s

/-- The L1 sector of a load filled (R276). -/
def fillL1 (s : State) (a : Access) : State :=
  if a.memside then s
  else s.putL1 { core := a.core, asid := a.asid, sector := a.va / 32 } (a.pa / 32) (s.homeBytes (a.pa / 32 * 32) 32)

/-- The copies that a thread's write changes: in the core that issued it, and in the one where the thread now is (R276, R300). -/
def State.ownL1 (s : State) (a : Access) (f : CoreId → State → State) : State :=
  let c := s.coreOf a.tid
  if c = a.core then f c s else f c (f a.core s)

/-- The encodings of a tile's sector at a format. -/
def State.encodeSector (s : State) (f : SubFmt) (sec : Nat) : List Nat :=
  (List.range 8).map fun i => subEnc f (leNat (s.homeBytes (32 * sec + 4 * i) 4))

/-- A sector of a core's copy of a tile filled from the home: what notifications on their way say of it is older (R277, R280). -/
def State.fillCopy (s : State) (core : CoreId) (tile : Nat) (f : SubFmt) (sec : Nat) : State :=
  let k := sec % 128
  let upd (y : Subscription) : Subscription :=
    if y.core = core ∧ y.pa = tile then { y with sectors := tput y.sectors k (s.encodeSector f sec) } else y
  let stale (n : Notice) : Notice :=
    if n.core = core ∧ n.pa = tile then
      { n with elems := n.elems.filter fun e => e.1 / 8 ≠ k, sectors := n.sectors.filter fun j => j ≠ k }
    else n
  { s with mem := { s.mem with subs := s.mem.subs.map upd, notices := s.mem.notices.map stale } }

/-- A core's copy of a sector brought up to the home where it holds the sector: what the core has read there, or written, shows in it
(R300, R318). -/
def State.refreshCopy (s : State) (core : CoreId) (pa : Nat) : State :=
  match s.subOf core pa with
  | some x => if (tget x.sectors (pa % 4096 / 32)).isSome then s.fillCopy core x.pa x.fmt (pa / 32) else s
  | none => s

/-- A core's subscribed sector refilled from the home and registered again (R280). -/
def refillSub (s : State) (a : Access) (f : SubFmt) : State :=
  match s.subOf a.core a.pa with
  | none => s
  | some x =>
    if x.fmt ≠ f then s
    else
      (s.fillCopy a.core x.pa f (a.pa / 32)).registerSharer a.core a.pa f x.audience

/-- The value of R338 at a width in bits. -/
def atomNew (op : AtomOp) (w old b : Nat) : Nat :=
  let m : Nat := 2 ^ w
  let sgn (x : Nat) : Int := if x < 2 ^ (w - 1) then (x : Int) else (x : Int) - (m : Int)
  let addf (f : Fmt) (x y : Nat) : Nat :=
    (roundFloat f (.mode .rne) false (addX .rne (decodeFloat f x) (decodeFloat f y)).val).bits
  match op with
  | .add => (old + b) % m
  | .min sg => if (if sg then decide (sgn old ≤ sgn b) else decide (old ≤ b)) then old else b
  | .max sg => if (if sg then decide (sgn b ≤ sgn old) else decide (b ≤ old)) then old else b
  | .logic .and => old &&& b
  | .logic .or => old ||| b
  | .logic .xor => old ^^^ b
  | .xch => b
  | .cas new => if old = b then new else old
  | .fadd .f32 => addf .f32 old b
  | .fadd .h2 => addf .f16 (old % 65536) (b % 65536) + 65536 * addf .f16 (old / 65536) (b / 65536)
  | .fadd .bf2 => addf .bf16 (old % 65536) (b % 65536) + 65536 * addf .bf16 (old / 65536) (b / 65536)
  | .inc => if b ≤ old then 0 else old + 1
  | .dec => if old = 0 ∨ b < old then b else old - 1

/-- A counted line after one decrement (R290): dropped at 0. -/
def countDown (s : State) (line : Nat) : State :=
  match tget s.mem.counted line with
  | none => s
  | some c =>
    if c.count ≤ 1 then { s with mem := { s.mem with counted := terase s.mem.counted line } }
    else { s with mem := { s.mem with counted := tput s.mem.counted line { c with count := c.count - 1 } } }

/-- STRC at its base die (R290): the line counts, with room made for it. -/
def countStore (s : State) (a : Access) (bs : List Byte) (k : Nat) : State :=
  let line := a.pa / 128
  let s1 := s.sideRoom line
  let old := ((tget s1.mem.counted line).map fun c => c.sectors).getD []
  let s2 := { s1 with mem := { s1.mem with counted := tput s1.mem.counted line { count := k, sectors := old } } }
  let w := s2.writeOf a bs
  baseWrite s2 w.1 w.2

/-- An access takes effect at its home (R284, R289). Poison raises its trap when the access is checked (R64, R490); a sector that has
become poisoned since gives what the check found there, and what has been written over it (log entry 20). -/
def performAccess (s : State) (a : Access) : State :=
  let s0 := { s with mem := { s.mem with accesses := s.mem.accesses.filter fun b => b.id ≠ a.id } }
  match a.op with
  | .load =>
    let ((bs, poison), s1) := accessRead s0 a
    if poison then giveBytes s1 a a.seen
    else giveBytes (if a.memside then s1 else (fillL1 s1 a).refreshCopy a.core a.pa) a bs
  | .loadSub f reg =>
    let ((bs, poison), s1) := accessRead s0 a
    giveWords ((if reg && !poison then refillSub s1 a f else s1).dropL1 a.core (a.pa / 32)) a
      [BitVec.ofNat 32 (subEnc f (leNat (if poison then a.seen else bs)))]
  | .store bs alloc => (accessWrite s0 a bs alloc).ownL1 a fun c st => (st.updateL1 c a.pa bs).refreshCopy c a.pa
  | .atomic op v =>
    let ((bs, poison), s1) := accessRead s0 a
    let old := if poison then a.seen else bs
    let new := leBytes a.size (atomNew op (8 * a.size) (leNat old) v)
    giveWords ((accessWrite s1 a new true).ownL1 a fun c st => (st.dropL1 c (a.pa / 32)).refreshCopy c a.pa) a (leWords old)
  | .loadCount =>
    let ((bs, poison), s1) := accessRead s0 a
    giveBytes (countDown s1 (a.pa / 128)) a (if poison then a.seen else bs)
  | .storeCount bs k => countStore s0 a bs k

/-! ### Requests -/

/-- The block that the coalescer requests for some of the bytes that an instruction touches (R295): of the least parts touched of a
line, adjacent sectors that form an aligned half or the whole of it go together. DESIGN CHOICE (log entry 66): a sector of which only a
half is to be requested joins no other. -/
def blockOf (parts : List (Nat × Nat)) (u : Nat × Nat) : Nat × Nat :=
  let half (sec : Nat) : Bool :=
    let here := parts.filter fun x => x.1 / 32 = sec
    here.all fun x => x.2 = 16 ∧ some x.1 = here.head?.map fun y => y.1
  let whole (sec : Nat) : Bool := (parts.any fun x => x.1 / 32 = sec) && !half sec
  let sec := u.1 / 32
  let line := sec / 4 * 4
  let two := sec / 2 * 2
  if !whole sec then u
  else if whole line && whole (line + 1) && whole (line + 2) && whole (line + 3) then (32 * line, 128)
  else if whole two && whole (two + 1) then (32 * two, 64)
  else (32 * sec, 32)

/-- Whether the stores of one execution cover a sector of an access whole (R295, R490). -/
def coversSector (mine : List Access) (a : Access) : Bool :=
  a.op.plainStore && (List.range 32).all fun i =>
    let x := a.pa / 32 * 32 + i
    mine.any fun b => b.op.plainStore && decide (b.memside = a.memside ∧ b.pa ≤ x ∧ x < b.pa + b.size)

/-- The accesses of an instruction, those behind the ones that were on their way, with the blocks requested for them (R295) and the
pages whose translations its core missed (R463). asked is the machine whose accesses those are, and before as the instruction found
it. -/
def State.coalesce (s asked : State) (k : AccKind) (before : State) : State :=
  let n := asked.mem.accesses.length
  let mine := s.mem.accesses.drop n
  let put (a : Access) : Access :=
    { a with exec := asked.nextId, req := blockOf (mine.map fun a => a.req) a.req, whole := coversSector mine a,
             miss := if (before.tlbHit a.core a.asid a.va k).isSome then none else some (a.va / 65536) }
  { s with mem := { s.mem with accesses := s.mem.accesses.take n ++ mine.map put } }

/-- Requests outstanding of a core (R463). -/
def State.requests (s : State) (core : CoreId) : Nat :=
  ((s.mem.accesses.filter fun a => a.core = core).map fun a => (a.exec, a.req)).eraseDups.length

/-- Pages of a core whose translation misses are outstanding (R463). -/
def State.missedPages (s : State) (core : CoreId) : Nat :=
  ((s.mem.accesses.filter fun a => a.core = core).filterMap fun a => a.miss.map fun p => (a.asid, p)).eraseDups.length

/-- Whether a core's miss table and its table of translation misses hold what is outstanding, and some more (R463). -/
def State.missRoom (s : State) (core : CoreId) (more : Nat) : Bool :=
  decide (s.requests core + more ≤ 4096 ∧ s.missedPages core + more ≤ 1024)

/-! ### Carrying a flat access out over a group -/

/-- The judgement of a thread. -/
def judgedOf (js : List (Tid × Judged)) (t : Tid) : Option Judged := tget js t

/-- The effects of the threads that passed, in ascending lane order (R296); the first of them leads (R23). -/
def flatEffects (js : List (Tid × Judged)) (eff : Bool → Tid → Nat → Nat → Region → State → State) (s : State) : State :=
  let oks := js.filter fun p => !p.2.isTrap
  let lead := oks.head?.map fun p => p.1
  oks.foldl (fun st p =>
    match p.2 with
    | .ok va pa r => eff (lead = some p.1) p.1 va pa r st
    | .trap _ | .fault _ _ => st) s

/-- A flat access of the group in progress (R296, R297, R433): traps are raised, each by its thread, and where another thread
then meets a remote fault the rest wait to issue again; remote faults alone park the group; otherwise every thread that
passed has its effect and then acts, and the group waits whole, as if it had not issued, where its requests find no room (R463). -/
def flatGroup (gd : Guard) (q : Asked) (addr : Tid → Except Trap DWord) (act : Thread → Act) (skip : Tid → Thread → Thread)
    (eff : Bool → Tid → Nat → Nat → Region → State → State) (s : State) : State :=
  let (js, s1) := judgeAll q addr (s.execs gd) s
  let faults := js.any fun p => p.2.isFault
  let traps := js.any fun p => p.2.isTrap
  let core := (s.issue.map fun i => i.part.core).getD { die := 0, core := 0 }
  if faults && traps then
    runGroup alwaysGuard (fun t th =>
      match judgedOf js t with
      | some (.trap tr) => .error tr
      | _ => .ok (th, .stay none)) skipPlain s1
  else if faults then parkGroup q.kind (gatherFaults s js) s1
  else
    let s2 := (flatEffects js eff s1).coalesce s1 q.kind s
    if s2.missRoom core 0 = false then runGroup alwaysGuard (fun _ th => .ok (th, .stay (some .missTable))) skipPlain s
    else
      runGroup gd (fun t th =>
        match judgedOf js t with
        | some (.trap tr) => .error tr
        | _ => .ok (th, act th)) skip s2

/-- The threads of a flat access go on. -/
def goOn (_ : Thread) : Act := .next

/-- Pieces of a load sent for its outstanding write, or taken from the L1 (R276): where there are several, their values come
together. -/
def sendPieces (id : Nat) (ext : LdSize) (op : AccOp) (l1 : Bool) (after : List Nat) (t : Tid) (va pa : Nat) (r : Region)
    (pieces : List (Nat × Nat)) (s : State) : State :=
  let several := decide (1 < pieces.length)
  let s0 := if several then
      { s with mem := { s.mem with gathers := s.mem.gathers ++
        [{ id := id, tid := t, ext := ext, parts := pieces.map fun _ => none, page := some (s.pageOf t va) }] } }
    else s
  pieces.zipIdx.foldl (fun st x =>
    let off := x.1.1
    match (if l1 then s.l1Hit t (va + off) (pa + off) else none) with
    | some bs =>
      let b := (bs.drop ((pa + off) % 32)).take x.1.2
      if several then st.gatherPart id x.2 b else st.arrive t id (extWords ext b) none (some (s.pageOf t va))
    | none => st.send t (va + off) (pa + off) x.1.2 op r (some { pend := id, ext := ext, part := if several then some x.2 else none }) after) s0

/-- A load's outstanding write and its latch (R147): an access of 16 bytes has two halves (R148). -/
def startLoad (d : Dest) (n size : Nat) (ext : LdSize) (op : AccOp) (l1 : Bool) (after : List Nat) (lead : Bool) (t : Tid)
    (va pa : Nat) (r : Region) (s : State) : State :=
  let (id, s1) := s.expect t (resultCells (s.thread t) d n lead) d.reg.isS
  sendPieces id ext op l1 after t va pa r (piecesOf size) (s1.modThread t fun th => setLatch th d.rl (.pend id 0))

end Sys2Proof.Machine
end

