-- ==== Sys2Proof/Machine/Scratch.lean ====
section
/-!
DEFINITION. The scratchpad (R256 to R262): bytes, full/empty words and their waiters (R323, R324), peer windows (R263 to
R266, R560), and the completion of a thread that waits inside its slot (R189).
-/

namespace Sys2Proof.Machine

/-! ### Bytes -/

/-- Bytes of a team's allocation (SCR). -/
def State.scrOf (s : State) (t : TeamId) : Nat := ((s.launchOf t.lid).map fun l => l.desc.scr).getD 0

/-- Bytes of a team's scratch. -/
def Team.scratchGet (m : Team) (o n : Nat) : List Byte := cellGetAll 0#8 o n m.scratch

/-- Bytes written to a team's scratch. -/
def Team.scratchPut (m : Team) (o : Nat) (bs : List Byte) : Team := { m with scratch := cellPutAll 0#8 o bs m.scratch }

/-- The bytes a team holds at an offset. -/
def State.scratchGet (s : State) (t : TeamId) (o n : Nat) : List Byte := ((s.team t).map fun m => m.scratchGet o n).getD []

/-- A scratch or window offset: the n32 base and the sign-extended offset, exact (R320). -/
def offsetOf (s : State) (t : Tid) (a : Src) (off : BitVec 24) : Except Trap Int := do
  let base ← readSrc s t a
  .ok ((base.toNat : Int) + off.toInt)

/-- A trap about an offset. -/
def offsetTrap (cls : Nat) (o : Int) (info2 : Nat) : Trap := trap64 cls (BitVec.ofInt 64 o).toNat (BitVec.ofNat 32 info2)

/-- The checks of a scratch access: alignment, then range (R66, R256, R432). -/
def scratchAddr (s : State) (t : Tid) (a : Src) (off : BitVec 24) (size : Nat) : Except Trap Nat := do
  let o ← offsetOf s t a off
  if o % (size : Int) ≠ 0 then .error (offsetTrap 9 o 1)
  else if o < 0 ∨ (s.scrOf t.coh.team : Int) < o + size then .error (offsetTrap 10 o 1)
  else .ok o.toNat

/-! ### Instructions that act lane by lane or once -/

/-- An instruction whose executing threads act in ascending lane order on what the instruction found. -/
def laneGroup (gd : Guard) (f : Tid → Except Trap (State → State)) (s : State) : State :=
  let s1 := (s.execs gd).foldl (fun st t =>
    match f t with
    | .ok g => g st
    | .error _ => st) s
  runGroup gd (fun t th => (f t).map fun _ => (th, .next)) skipPlain s1

/-- An instruction that acts once, with the values of its lowest executing lane; its trap is every executing thread's (R433). -/
def onceGroup (gd : Guard) (f : Tid → Except Trap (State → State)) (s : State) : State :=
  match s.execs gd with
  | [] => runGroup gd (fun _ th => .ok (th, .next)) skipPlain s
  | t :: _ =>
    match f t with
    | .error tr => runGroup gd (fun _ _ => .error tr) skipPlain s
    | .ok g => runGroup gd (fun _ th => .ok (th, .next)) skipPlain (g s)

/-- A result given to one thread at once: its latch, and its register unless suppressed or led by another (R23, R58). -/
def giveResult (d : Dest) (n : Nat) (lead : Bool) (t : Tid) (ws : List Word) (s : State) : State :=
  let cells := (resultCells (s.thread t) d n lead).zip ws
  let s1 := s.modThread t fun th => writeCells (setLatch th d.rl (.valid (ws.headD 0#32))) cells
  if d.reg.isS then s1.modCohort t.coh fun c => c.writeS cells else s1

/-! ### Idempotent regions and replay -/

/-- A closing instruction of a thread (R122, R446). -/
def State.closeTeam (s : State) (t : Tid) : State :=
  s.modTeam t.coh.team fun m => { m with restartable := false, closed := some s.cycle }

/-- A launch that can no longer be replayed (R498). -/
def State.endReplay (s : State) (lid : Nat) : State := s.modLaunch lid fun l => { l with replayable := false }

/-- A store's closing (R123, R498): where a byte lies in a NONIDEM region. -/
def State.closeStore (s : State) (t : Tid) (r : Region) : State :=
  if r.nonIdem then (s.closeTeam t).endReplay t.coh.team.lid else s

/-! ### Waiting inside a slot -/

/-- A thread's wait has ended with its effect (R189): the step that follows moves it past its slot. -/
def State.endWait (s : State) (t : Tid) : State := s.modThread t fun th => { th with wait := none }

/-- A thread's wait ends with a trap of the instruction it waits in. -/
def State.failWait (s : State) (t : Tid) (tr : Trap) : State :=
  match s.late.find? fun l => l.tid = t with
  | none => s
  | some l =>
    let th := s.thread t
    let s1 := s.unseat fun u => decide (u = t)
    { s1.modThread t (takeTrap s l.issue t tr) with traps := s1.traps ++ (trapReport s l.issue t tr th).toList }

/-! ### Full/empty words -/

/-- Whether a word is full. -/
def Team.isFull (m : Team) (o : Nat) : Bool := m.full.contains o

/-- A word made full or empty. -/
def Team.setFull (m : Team) (o : Nat) (v : Bool) : Team :=
  let rest := m.full.filter fun x => x ≠ o
  { m with full := if v then o :: rest else rest }

/-- A word's value. -/
def Team.wordAt (m : Team) (o : Nat) : Word := BitVec.ofNat 32 (leNat (m.scratchGet o 4))

/-- The words that a store of some bytes writes in full (R266). -/
def wholeWords (o n : Nat) : List Nat :=
  ((List.range (n / 4 + 1)).map fun i => (o + 3) / 4 * 4 + 4 * i).filter fun w => o ≤ w ∧ w + 4 ≤ o + n

/-- A peer store's bytes written and its whole words made full. -/
def Team.fillBytes (m : Team) (o : Nat) (bs : List Byte) : Team :=
  (wholeWords o bs.length).foldl (fun m w => m.setFull w true) (m.scratchPut o bs)

/-- An answer recorded for a peer access. -/
def State.answer (s : State) (id : Nat) (r : WinAnswer) : State :=
  { s with mem := { s.mem with windows := s.mem.windows.map fun w => if w.id = id then { w with answer := some r } else w } }

/-- A waiting access of a team's allocation served where the present state meets its need (R324): none where it does not. A peer store
waits until every word that it writes in full is empty (log entry 32). -/
def serveOne (s : State) (team : TeamId) (m : Team) (x : Nat × WordWaiter) : Option State :=
  let without (m : Team) : Team := { m with waiters := m.waiters.filter fun y => y ≠ x }
  match x.2 with
  | .take t keep d lead =>
    if m.isFull x.1 then
      let s1 := s.modTeam team fun m => if keep then without m else (without m).setFull x.1 false
      some ((giveResult d 1 lead t [m.wordAt x.1] s1).endWait t)
    else none
  | .fill t v =>
    if m.isFull x.1 then none
    else
      let s1 := s.modTeam team fun m => ((without m).scratchPut x.1 (leBytes 4 v.toNat)).setFull x.1 true
      some (s1.endWait t)
  | .peer id =>
    match (s.mem.windows.find? fun w => w.id = id).bind fun w => w.place.bind fun o => w.store.map fun b => (o, b.1) with
    | none => some (s.modTeam team without)
    | some (o, bs) =>
      if (wholeWords o bs.length).any m.isFull then none
      else some ((s.modTeam team fun m => (without m).fillBytes o bs).answer id .stored)

/-- Waiters of a team's allocation served, the oldest whose need is met first, until none is (R324); fuel bounds their number. -/
def serveWaiters (fuel : Nat) (team : TeamId) (s : State) : State :=
  match fuel with
  | 0 => s
  | n + 1 =>
    match (s.team team).bind fun m => m.waiters.findSome? (serveOne s team m) with
    | some s1 => serveWaiters n team s1
    | none => s

/-- What follows a change of a team's full/empty words (R324). -/
def State.serve (s : State) (team : TeamId) : State := serveWaiters (((s.team team).map fun m => m.waiters.length).getD 0) team s

/-- Full/empty wait (R431): store, window and rank in INFO2. -/
def waitTrap (o : Int) (store window : Bool) (rank : Nat) : Trap :=
  offsetTrap 13 o ((if store then 1 else 0) + (if window then 2 else 0) + 4 * rank)

/-- What a thread's full/empty access comes to. -/
inductive FeResult where
  | done
  | waits (o : Nat)
  | trap (tr : Trap)
  deriving DecidableEq, Repr

/-- A full/empty access at its bank (R260, R323): it meets the state it needs, waits in the word's list, or traps. Other accesses come
to nothing here. -/
def feOne (t : Tid) (o : Nat) (op : PassOp) (s : State) : FeResult × State :=
  let mod := s.modTeam t.coh.team
  match s.team t.coh.team with
  | none => (.done, s)
  | some m =>
    match op with
    | .take keep trap d lead =>
      if m.isFull o then (.done, giveResult d 1 lead t [m.wordAt o] (if keep then s else mod fun m => m.setFull o false))
      else if trap then (.trap (waitTrap o false false 0), s)
      else (.waits o, mod fun m => { m with waiters := m.waiters ++ [(o, .take t keep d lead)] })
    | .fill v mode =>
      let full := m.isFull o
      (match mode with
       | .trap => if full then (.trap (waitTrap o true false 0), s) else (.done, mod fun m => (m.scratchPut o (leBytes 4 v.toNat)).setFull o true)
       | .wait =>
         if full then (.waits o, mod fun m => { m with waiters := m.waiters ++ [(o, .fill t v)] })
         else (.done, mod fun m => (m.scratchPut o (leBytes 4 v.toNat)).setFull o true)
       | .ovw => (.done, mod fun m => (m.scratchPut o (leBytes 4 v.toNat)).setFull o true))
    | .read _ _ | .write _ => (.done, s)

/-- Whether a thread waits in a word's list of its team (R324). -/
def State.atWord (s : State) (t : Tid) : Bool :=
  (s.team t.coh.team).any fun m => m.waiters.any fun x =>
    match x.2 with
    | .take u _ _ _ | .fill u _ => decide (u = t)
    | .peer _ => false

/-! ### Banks and passes -/

/-- The words that an access of some bytes uses (R257). -/
def wordsUsed (o n : Nat) : List Nat := if n ≤ 4 then [o / 4 * 4] else (List.range (n / 4)).map fun i => o + 4 * i

/-- The bank of a word (R257). -/
def scratchBank (o : Nat) : Nat := o / 4 % 32

/-- The pass that serves a word, of those that the lanes of an instruction request in ascending order (R258): each bank serves one word
in a pass, in the order of the lowest lanes that request them. -/
def passOf (requested : List Nat) (w : Nat) : Nat :=
  ((requested.filter fun x => scratchBank x = scratchBank w).eraseDups).idxOf w

/-- The cycle of an instruction's first pass: the present one, or the one after the last pass that its core's scratchpad has before
it. DESIGN CHOICE (log entry 69): R258 does not say how the passes of two instructions of one core interleave; here those of the later
begin when those of the earlier have ended. -/
def State.firstPass (s : State) (core : CoreId) : Nat :=
  (s.mem.passes.filter fun p => s.coreOf p.tid = core).foldl (fun n p => max n (p.due + 1)) s.cycle

/-- Insertion of a lane's part behind those of the same and of earlier passes. -/
def insertPass (p : ScratchPass) : List ScratchPass → List ScratchPass
  | [] => [p]
  | q :: rest => if p.due < q.due then p :: q :: rest else q :: insertPass p rest

/-- The lanes' parts of an instruction in the order in which its passes serve them: by pass, then by lane. -/
def passOrder (ps : List ScratchPass) : List ScratchPass := ps.foldl (fun acc p => insertPass p acc) []

/-- One lane's words of a scratch access: a part for each word that a pass serves, with the bytes of the access that lie in it. -/
structure LanePart where
  tid : Tid
  off : Nat
  word : Nat
  op : PassOp
  deriving DecidableEq, Repr

/-- The passes of an instruction, from the parts that its lanes request in ascending order. -/
def State.passesFor (s : State) (exec : Nat) (parts : List LanePart) : List ScratchPass :=
  match parts with
  | [] => []
  | p :: _ =>
    let start := s.firstPass (s.coreOf p.tid)
    let ws := parts.map fun x => x.word
    passOrder (parts.map fun x => { due := start + passOf ws x.word, exec := exec, tid := x.tid, off := x.off, op := x.op })

/-- Whether an instruction whose lanes request some words is served in one pass, at once (R258). -/
def State.onePass (s : State) (core : CoreId) (ws : List Nat) : Bool :=
  decide (s.firstPass core = s.cycle) && ws.all fun w => decide (passOf ws w = 0)

/-- A lane's read or write in its pass. -/
def servePart (p : ScratchPass) (s : State) : State :=
  match p.op with
  | .read n ret =>
    let bs := s.scratchGet p.tid.coh.team p.off n
    (match ret.part with
     | some k => s.gatherPart ret.pend k bs
     | none => s.arrive p.tid ret.pend (extWords ret.ext bs) none)
  | .write bs => s.modTeam p.tid.coh.team fun m => m.scratchPut p.off bs
  | .take _ _ _ _ | .fill _ _ => s

/-- Whether a part is a full/empty access. -/
def PassOp.isFe : PassOp → Bool
  | .take _ _ _ _ | .fill _ _ => true
  | .read _ _ | .write _ => false

/-- Whether a full/empty load leads for an s-register (R23). -/
def PassOp.leads : PassOp → Bool
  | .take _ _ _ lead => lead
  | .read _ _ | .write _ | .fill _ _ => false

/-- A full/empty load that leads. -/
def PassOp.withLead : PassOp → PassOp
  | .take keep trap d _ => .take keep trap d true
  | op => op

/-- The lead of a full/empty instruction that has trapped goes to the next lane of it that a pass serves (R23, R433). -/
def State.handLead (s : State) (exec : Nat) : State :=
  match s.mem.passes.find? fun p => p.exec = exec with
  | none => s
  | some x => { s with mem := { s.mem with passes := s.mem.passes.map fun p => if p = x then { p with op := p.op.withLead } else p } }

/-- A part of a pass that has come due, after its instruction has issued: a full/empty access that meets its need ends its thread's wait,
and one that traps ends it so. -/
def runPart (p : ScratchPass) (s : State) : State :=
  if p.op.isFe then
    match feOne p.tid p.off p.op s with
    | (.done, s1) => s1.endWait p.tid
    | (.waits _, s1) => s1
    | (.trap tr, s1) => (if p.op.leads then s1.handLead p.exec else s1).failWait p.tid tr
  else servePart p s

/-- The passes of one cycle: their lanes in order, then the accesses that waited for what they changed (R261, R324). -/
def State.runCycle (s : State) (c : Nat) : State :=
  let due := s.mem.passes.filter fun p => p.due ≤ c
  let s1 := due.foldl (fun st p => runPart p st) { s with mem := { s.mem with passes := s.mem.passes.filter fun p => c < p.due } }
  ((due.filter fun p => p.op.isFe).map fun p => p.tid.coh.team).eraseDups.foldl State.serve s1

/-- The passes whose cycle has come, cycle by cycle (R324); fuel bounds the cycles. -/
def runDue (fuel : Nat) (s : State) : State :=
  match fuel with
  | 0 => s
  | n + 1 =>
    match ((s.mem.passes.map fun p => p.due).filter fun c => c ≤ s.cycle).min? with
    | none => s
    | some c => runDue n (s.runCycle c)

/-- The passes whose cycle has come. -/
def State.runPasses (s : State) : State := runDue s.mem.passes.length s

/-- The bytes of an access that lie in one of its words: where they start, and how many. -/
def inWord (o n w : Nat) : Nat × Nat := if n ≤ 4 then (o, n) else (w, 4)

/-- A scratch load of some lanes served in several passes: each lane's value is an outstanding write, which comes in its last pass
(R25, R258). -/
def loadPasses (d : Dest) (sz : LdSize) (lanes : List (Tid × Nat)) (s : State) : State :=
  let (exec, s1) := s.fresh
  let lead := lanes.head?.map fun x => x.1
  let one (acc : List LanePart × State) (x : Tid × Nat) : List LanePart × State :=
    let ws := wordsUsed x.2 sz.bytes
    let (id, st) := acc.2.expect x.1 (resultCells (acc.2.thread x.1) d sz.regs (lead = some x.1)) d.reg.isS
    let st1 := st.modThread x.1 fun th => setLatch th d.rl (.pend id 0)
    let several := decide (1 < ws.length)
    let st2 := if several then
        { st1 with mem := { st1.mem with gathers := st1.mem.gathers ++ [{ id := id, tid := x.1, ext := sz, parts := ws.map fun _ => none }] } }
      else st1
    let parts := ws.zipIdx.map fun w =>
      ({ tid := x.1, off := (inWord x.2 sz.bytes w.1).1, word := w.1,
         op := .read (inWord x.2 sz.bytes w.1).2 { pend := id, ext := sz, part := if several then some w.2 else none } } : LanePart)
    (acc.1 ++ parts, st2)
  let (parts, s2) := lanes.foldl one ([], s1)
  State.runPasses { s2 with mem := { s2.mem with passes := s2.mem.passes ++ s2.passesFor exec parts } }

/-- A scratch store of some lanes, pass by pass (R258, R259). -/
def storePasses (lanes : List (Tid × Nat × List Byte)) (s : State) : State :=
  let (exec, s1) := s.fresh
  let parts := lanes.flatMap fun x => (wordsUsed x.2.1 x.2.2.length).map fun w =>
    let b := inWord x.2.1 x.2.2.length w
    ({ tid := x.1, off := b.1, word := w, op := .write ((x.2.2.drop (b.1 - x.2.1)).take b.2) } : LanePart)
  State.runPasses { s1 with mem := { s1.mem with passes := s1.mem.passes ++ s1.passesFor exec parts } }

/-- The lanes of a scratch instruction that pass their checks. -/
def goodLanes {α : Type} (ts : List Tid) (f : Tid → Except Trap α) : List (Tid × α) :=
  ts.filterMap fun t => match f t with | .ok x => some (t, x) | .error _ => none

/-- A full/empty instruction (R261, R323): the lanes that its first pass serves act at once, each seeing what the lower ones left, and
then those that waited for what they changed; the others wait in their slot for their pass. -/
def feGroup (gd : Guard) (f : Tid → Except Trap (Nat × (Bool → PassOp))) (skip : Tid → Thread → Thread) (s : State) : State :=
  let lanes := goodLanes (s.execs gd) f
  let (exec, s1) := s.fresh
  let lead := lanes.head?.map fun x => x.1
  let parts := lanes.map fun x => ({ tid := x.1, off := x.2.1, word := x.2.1, op := x.2.2 (lead = some x.1) } : LanePart)
  let ps := s1.passesFor exec parts
  let one (acc : (List (Tid × FeResult) × Bool) × State) (p : ScratchPass) : (List (Tid × FeResult) × Bool) × State :=
    let op := if acc.1.2 then p.op.withLead else p.op
    let (r, st) := feOne p.tid p.off op acc.2
    let give := if op.leads then (match r with | .trap _ => true | .done | .waits _ => false) else acc.1.2
    ((acc.1.1 ++ [(p.tid, r)], give), st)
  let ((rs, give), s2) := (ps.filter fun p => p.due ≤ s.cycle).foldl one (([], false), s1)
  let s3 := { s2 with mem := { s2.mem with passes := s2.mem.passes ++ ps.filter fun p => s.cycle < p.due } }
  let s4 := if give then s3.handLead exec else s3
  let s5 := ((lanes.map fun x => x.1.coh.team).eraseDups).foldl State.serve s4
  runGroup gd (fun t th => do
    let (o, _) ← f t
    match tget rs t with
    | some (.trap tr) => .error tr
    | some .done => .ok (th, .next)
    | some (.waits _) => .ok (th, if s5.atWord t then .pend (.word o) else .next)
    | none => .ok (th, .pend (.word o))) skip s5

/-! ### Peer windows -/

/-- The team of a rank of a thread's cluster (R263, R326): none where RANK is at or above TPC. -/
def State.peerOf (s : State) (t : Tid) (rank : Fin 8) : Option TeamId :=
  let k4 := ((s.team t.coh.team).map fun m => m.k4).getD 0
  (s.launch t).bind fun l => if rank.val < l.desc.tpc then some { lid := t.coh.team.lid, k3 := k4 * l.desc.tpc + rank.val } else none

/-- A peer access on its way to the owner (R560), one of an execution's. -/
def State.sendWindow (s : State) (exec : Nat) (t : Tid) (rank : Fin 8) (win : Fin 16) (o : Int) (size : Nat)
    (store : Option (List Byte × FillMode)) (dest : Option (Dest × LdSize × Bool)) : Nat × State :=
  let (id, s1) := s.fresh
  let owner := s.peerOf t rank
  let a : WinAccess := { id := id, tid := t, owner := owner.getD t.coh.team, rank := rank, win := win, off := o, size := size,
                         store := store, dest := dest, exec := exec, arrived := owner.isNone, place := none,
                         answer := if owner.isNone then some .refused else none }
  (id, { s1 with mem := { s1.mem with windows := s1.mem.windows ++ [a] } })

/-- The scratch offset that a peer access names in its owner as it arrives. -/
def WinAccess.target (m : Team) (a : WinAccess) : Nat := 128 * m.windows[a.win].off.toNat + a.off.toNat

/-- Whether the owner refuses a peer access (R264, R326). -/
def WinAccess.refused (a : WinAccess) (scr : Nat) (writer : Fin 8) (m : Team) : Bool :=
  let w := m.windows[a.win]
  !w.opened || (a.store.isSome && (match w.writer with | some r => decide (r ≠ writer) | none => false)) ||
    decide (a.off < 0) || decide (128 < a.off + a.size) || decide (scr < a.target m + a.size)

/-- Whether a team has left its core and is to come back (R251, R450): a rank of a placed cluster that is gone but not over, or of one
that waits to be placed again. -/
def State.isAway (s : State) (t : TeamId) : Bool :=
  let back (x : Fin 8 × SavedTeam) : Bool :=
    match x.2 with
    | .restart k3 _ _ | .image k3 _ _ _ _ _ _ => decide (k3 = t.k3)
    | .done _ => false
  s.launches.any fun l => l.stages.any fun g =>
    decide (g.lid = t.lid) && ((g.placed.any fun c => c.gone.any back) || g.saved.any fun c => c.teams.any back)

/-- A peer access marked as arrived, at a place of its owner's allocation where it is accepted. -/
def State.markArrived (s : State) (id : Nat) (place : Option Nat) : State :=
  { s with mem := { s.mem with windows := s.mem.windows.map fun w => if w.id = id then { w with arrived := true, place := place } else w } }

/-- A peer access judged at its arrival (R265, R560, R324). While its owner is off its core it does not arrive; an owner that has ended
has no window open. -/
def arriveWindow (s : State) (a : WinAccess) : State :=
  match s.team a.owner with
  | none => if s.isAway a.owner then s else (s.markArrived a.id none).answer a.id .refused
  | some m =>
    let writer := ((s.team a.tid.coh.team).map fun x => x.k2).getD 0
    if a.refused (s.scrOf a.owner) writer m then (s.markArrived a.id none).answer a.id .refused
    else
      let o := a.target m
      let s1 := s.markArrived a.id (some o)
      match a.store with
      | none => s1.answer a.id (.data (m.scratchGet o a.size))
      | some (bs, mode) =>
        match mode, (wholeWords o bs.length).find? m.isFull with
        | .trap, some _ => s1.answer a.id .wouldWait
        | .wait, some w => s1.modTeam a.owner fun m => { m with waiters := m.waiters ++ [(w, .peer a.id)] }
        | _, _ => ((s1.modTeam a.owner fun m => m.fillBytes o bs).answer a.id .stored).serve a.owner

/-- Whether an answer's thread waits for a lower lane's of the same instruction: where they share an s-register (R23). -/
def State.behindLane (s : State) (a : WinAccess) : Bool :=
  (a.dest.any fun d => d.1.reg.isS) && s.mem.windows.any fun b => decide (b.exec = a.exec ∧ b.id < a.id)

/-- An owner's answer reaches its thread (R264). The first lane whose data comes leads for an s-register (R23, R433). -/
def finishWindow (s : State) (a : WinAccess) (r : WinAnswer) : State :=
  let s1 := { s with mem := { s.mem with windows := s.mem.windows.filter fun w => w.id ≠ a.id } }
  match r with
  | .refused => s1.failWait a.tid (offsetTrap 10 a.off 2)
  | .wouldWait => s1.failWait a.tid (waitTrap a.off true true a.rank.val)
  | .stored => s1.endWait a.tid
  | .data bs =>
    match a.dest with
    | some (d, sz, lead) =>
      let follow (w : WinAccess) : WinAccess :=
        if w.exec = a.exec then { w with dest := w.dest.map fun x => (x.1, x.2.1, false) } else w
      ((giveResult d sz.regs lead a.tid (extWords sz bs) { s1 with mem := { s1.mem with windows := s1.mem.windows.map follow } }).endWait a.tid)
    | none => s1.endWait a.tid

end Sys2Proof.Machine
end

