-- ==== Sys2Proof/Machine/Memory.lean ====
section
/-!
DEFINITION. The memory group (opcodes 0x80 to 0x99): flat loads and stores (R146 to R148), scratch and windows (R322 to R326),
subscriptions (R327 to R329), gates and fences (R330, R331), cache maintenance (R332), memory-side and weight-store accesses
(R333 to R336).
-/

namespace Sys2Proof.Machine

open Host (Outcome)

/-! ### Flat loads and stores -/

/-- Kinds of region that a cached load or store reaches. -/
def cachedKind : RegKind → Bool
  | .plain | .subscribed | .discard => true
  | .memside | .weight => false

/-- Kinds of region that a plain load, store or atomic reaches (R269). -/
def flatKind : RegKind → Bool
  | .plain | .subscribed | .discard | .memside => true
  | .weight => false

/-- A load's request (R66, R269). -/
def loadAsk (sz : LdSize) (allow : RegKind → Bool) : Asked :=
  { align := sz.bytes, size := sz.bytes, kind := .read, allow := allow, reads := true, near := nearL1 }

/-- A store's request. -/
def storeAsk (sz : StSize) (allow : RegKind → Bool) : Asked :=
  { align := sz.bytes, size := sz.bytes, kind := .write, allow := allow, reads := false }

/-- The bytes a store takes from its data position (R146). -/
def storeBytes (s : State) (t : Tid) (b : Src) (sz : StSize) : Except Trap (List Byte) := do
  let v ← readNat s t b sz.regs
  .ok (leBytes sz.bytes v)

/-- The flat address of a store whose data can be read. -/
def storeAddr (s : State) (a b : Src) (off : BitVec 24) (sz : StSize) (t : Tid) : Except Trap DWord := do
  let addr ← flatAddr s t a off
  let _ ← storeBytes s t b sz
  .ok addr

/-- The bytes of a store that has been checked. -/
def bytesOf (s : State) (b : Src) (sz : StSize) (t : Tid) : List Byte :=
  match storeBytes s t b sz with
  | .ok bs => bs
  | .error _ => []

/-- A store's accesses sent to their homes, its region closed where it must be (R123). -/
def startStore (bs : List Byte) (op : List Byte → AccOp) (t : Tid) (va pa : Nat) (r : Region) (after : List Nat) (s : State) : State :=
  (piecesOf bs.length).foldl (fun st p =>
    st.send t (va + p.1) (pa + p.1) p.2 (op ((bs.drop p.1).take p.2)) r none after) (s.closeStore t r)

/-- LD (R147, R276, R289). -/
def execLd (gd : Guard) (d : Dest) (a : Src) (off : BitVec 24) (sz : LdSize) (s : State) : Outcome State Fault Refusal :=
  .next (flatGroup gd (loadAsk sz flatKind) (fun t => flatAddr s t a off) goOn (skipCapture s d)
    (fun lead t va pa r st => startLoad d sz.regs sz.bytes sz .load (cachedKind r.kind) [] lead t va pa r st) s)

/-- ST (R147). -/
def execSt (gd : Guard) (a : Src) (b : Src) (off : BitVec 24) (sz : StSize) (s : State) : Outcome State Fault Refusal :=
  .next (flatGroup gd (storeAsk sz flatKind) (storeAddr s a b off sz) goOn skipPlain
    (fun _ t va pa r st => startStore (bytesOf s b sz t) (fun bs => .store bs true) t va pa r [] st) s)

/-- STNA: a store that allocates nowhere (R147, R276). -/
def execStna (gd : Guard) (a : Src) (b : Src) (off : BitVec 24) (sz : StSize) (s : State) : Outcome State Fault Refusal :=
  .next (flatGroup gd (storeAsk sz flatKind) (storeAddr s a b off sz) goOn skipPlain
    (fun _ t va pa r st => startStore (bytesOf s b sz t) (fun bs => .store bs false) t va pa r [] st) s)

/-! ### Scratch -/

/-- The core of the issue in progress. -/
def State.issueCore (s : State) : CoreId := (s.issue.map fun i => i.part.core).getD { die := 0, core := 0 }

/-- LDS (R322): at once where one pass serves every lane, else pass by pass (R258). -/
def execLds (gd : Guard) (d : Dest) (a : Src) (off : BitVec 24) (sz : LdSize) (s : State) : Outcome State Fault Refusal :=
  let addr (t : Tid) : Except Trap Nat := scratchAddr s t a off sz.bytes
  let lanes := goodLanes (s.execs gd) addr
  if s.onePass s.issueCore (lanes.flatMap fun x => wordsUsed x.2 sz.bytes) then
    .next (result gd d sz.regs (fun t => do
      let o ← addr t
      .ok { words := extWords sz (s.scratchGet t.coh.team o sz.bytes) }) s)
  else
    .next (runGroup gd (fun t th => (addr t).map fun _ => (th, .next)) (skipCapture s d) (loadPasses d sz lanes s))

/-- STS (R322, R259): at once where one pass serves every lane, else pass by pass (R258). -/
def execSts (gd : Guard) (a : Src) (b : Src) (off : BitVec 24) (sz : StSize) (s : State) : Outcome State Fault Refusal :=
  let one (t : Tid) : Except Trap (Nat × List Byte) := do
    let bs ← storeBytes s t b sz
    let o ← scratchAddr s t a off sz.bytes
    .ok (o, bs)
  let lanes := goodLanes (s.execs gd) one
  if s.onePass s.issueCore (lanes.flatMap fun x => wordsUsed x.2.1 sz.bytes) then
    .next (laneGroup gd (fun t => (one t).map fun x => fun st => st.modTeam t.coh.team fun m => m.scratchPut x.1 x.2) s)
  else .next (runGroup gd (fun t th => (one t).map fun _ => (th, .next)) skipPlain (storePasses lanes s))

/-- LDSFE (R323). -/
def execLdsfe (gd : Guard) (d : Dest) (a : Src) (off : BitVec 24) (keep trap : Bool) (s : State) : Outcome State Fault Refusal :=
  .next (feGroup gd (fun t => do
    let o ← scratchAddr s t a off 4
    .ok (o, fun lead => .take keep trap d lead)) (skipCapture s d) s)

/-- STSFE (R323). -/
def execStsfe (gd : Guard) (a : Src) (b : Src) (off : BitVec 24) (fem : FillMode) (s : State) : Outcome State Fault Refusal :=
  .next (feGroup gd (fun t => do
    let v ← readSrc s t b
    let o ← scratchAddr s t a off 4
    .ok (o, fun _ => .fill v fem)) skipPlain s)

/-! ### Windows -/

/-- The offset of a window access, checked for alignment before it is sent (R320, R66). -/
def windowAddr (s : State) (t : Tid) (a : Src) (off : BitVec 24) (size : Nat) : Except Trap Int := do
  let o ← offsetOf s t a off
  if o % (size : Int) ≠ 0 then .error (offsetTrap 9 o 2) else .ok o

/-- Peer accesses sent in lane order, each thread Waiting for the owner's answer (R560). -/
def windowGroup (gd : Guard) (f : Tid → Except Trap (Nat → State → Nat × State)) (skip : Tid → Thread → Thread) (s : State) : State :=
  let (ids, s1) := (s.execs gd).foldl (fun (acc : List (Tid × Nat) × State) t =>
    match f t with
    | .error _ => acc
    | .ok g =>
      let (id, st) := g s.nextId acc.2
      (acc.1 ++ [(t, id)], st)) ([], s)
  runGroup gd (fun t th => do
    let _ ← f t
    .ok (th, .pend (.window ((tget ids t).getD 0)))) skip s1

/-- LDW (R326). -/
def execLdw (gd : Guard) (d : Dest) (a : Src) (off : BitVec 24) (win : Fin 16) (rank : Fin 8) (sz : LdSize) (s : State) :
    Outcome State Fault Refusal :=
  .next (windowGroup gd (fun t => do
    let o ← windowAddr s t a off sz.bytes
    .ok fun exec st => st.sendWindow exec t rank win o sz.bytes none (some (d, sz, true))) (skipCapture s d) s)

/-- STW (R326, R266). -/
def execStw (gd : Guard) (a : Src) (b : Src) (off : BitVec 24) (win : Fin 16) (rank : Fin 8) (fem : FillMode) (sz : StSize)
    (s : State) : Outcome State Fault Refusal :=
  .next (windowGroup gd (fun t => do
    let bs ← storeBytes s t b sz
    let o ← windowAddr s t a off sz.bytes
    .ok fun exec st => st.sendWindow exec t rank win o sz.bytes (some (bs, fem)) none) skipPlain s)

/-- WOPEN (R325, R263). -/
def execWopen (gd : Guard) (a : Src) (win : Fin 16) (writer : Option (Fin 8)) (s : State) : Outcome State Fault Refusal :=
  .next (onceGroup gd (fun t => do
    let v ← readSrc s t a
    let o := v.toNat
    if o % 128 ≠ 0 then .error (offsetTrap 9 o 1)
    else if s.scrOf t.coh.team < o + 128 then .error (offsetTrap 10 o 1)
    else
      .ok fun st => st.modTeam t.coh.team fun m =>
        { m with windows := m.windows.set win { off := BitVec.ofNat 13 (o / 128), opened := true, writer := writer } }) s)

/-- WCLOSE (R325). -/
def execWclose (gd : Guard) (win : Fin 16) (s : State) : Outcome State Fault Refusal :=
  .next (onceGroup gd (fun t =>
    .ok fun st => st.modTeam t.coh.team fun m =>
      { m with windows := m.windows.set win { m.windows[win] with opened := false } }) s)

/-! ### Subscriptions -/

/-- Rank of width of a subscription format (R327). -/
def subRank : SubFmt → Nat
  | .native => 4
  | .f32 => 3
  | .f16 | .bf16 => 2
  | .e4m3 | .e5m2 => 1

/-- The request of SUBS, UPGR and UNSUB: a tile's base (R328). -/
def tileAsk (allow : RegKind → Bool) : Asked := { align := 4096, size := 4096, kind := .read, allow := allow, reads := false }

/-- Only SUBSCRIBED regions (R269). -/
def subscribedKind (k : RegKind) : Bool := decide (k = .subscribed)

/-- A core's copy of a tile's sector read from its home (R277): a poisoned sector stays out. -/
def State.copySector (core : CoreId) (tile : Nat) (f : SubFmt) (s : State) (k : Nat) : State :=
  let (l, s1) := homeFill s (tile / 32 + k)
  if l.poison then s1 else s1.fillCopy core tile f (tile / 32 + k)

/-- A core's subscription to a tile set at a format, and its copy of the tile read from the home (R277, R278): lines of its L1 make room
(R254). -/
def State.setSub (s : State) (t : Tid) (va pa : Nat) (f : SubFmt) (r : Region) : State :=
  let core := s.coreOf t
  let tile := tileOf pa
  let a : Audience := { lid := t.coh.team.lid, dom := r.dom, inst := r.inst }
  let rest := s.mem.subs.filter fun y => decide (y.core ≠ core ∨ y.pa ≠ tile)
  let x : Subscription := { core := core, lid := t.coh.team.lid, asid := (s.spaceOf t).1, va := va, pa := tile, fmt := f, audience := a,
                            sectors := [] }
  let s1 := State.l1Room 32 core 0 { s with mem := { s.mem with subs := rest ++ [x] } }
  (List.range 128).foldl (State.copySector core tile f) (s1.registerSharer core pa f a)

/-- SUBS for one thread (R328): its status and effect. A subscription held at the format is registered again (R280). -/
def subsOne (t : Tid) (va pa : Nat) (f : SubFmt) (r : Region) (s : State) : Nat × State :=
  match s.subOf (s.coreOf t) pa with
  | some x => if x.fmt = f then (0, s.registerSharer x.core pa f x.audience) else (2, s)
  | none =>
    if 64 ≤ (s.mem.subs.filter fun x => x.core = s.coreOf t).length then (1, s) else (0, s.setSub t va pa f r)

/-- UPGR for one thread (R328). -/
def upgrOne (t : Tid) (va pa : Nat) (f : SubFmt) (r : Region) (s : State) : Nat × State :=
  match s.subOf (s.coreOf t) pa with
  | none => (3, s)
  | some x => if subRank x.fmt < subRank f then (0, s.setSub t va pa f r) else (4, s)

/-- A core's subscription to a tile ended (R328). -/
def State.endSub (s : State) (core : CoreId) (tile : Nat) : State :=
  let d (e : DirTile) : DirTile :=
    if e.pa = tile then { e with sharers := e.sharers.filter fun x => decide (x.1 ≠ core) } else e
  { s with mem := { s.mem with subs := s.mem.subs.filter fun y => decide (y.core ≠ core ∨ y.pa ≠ tile), dir := s.mem.dir.map d } }

/-- UNSUB for one thread (R328). -/
def unsubOne (t : Tid) (pa : Nat) (r : Region) (s : State) : Nat × State :=
  if r.kind ≠ .subscribed then (3, s)
  else
    match s.subOf (s.coreOf t) pa with
    | none => (3, s)
    | some x => (0, s.endSub x.core x.pa)

/-- SUBS (R327, R328). -/
def execSubs (gd : Guard) (d : Dest) (a : Src) (off : BitVec 24) (fmt : SubFmt) (s : State) : Outcome State Fault Refusal :=
  .next (flatGroup gd (tileAsk subscribedKind) (fun t => flatAddr s t a off) goOn (skipCapture s d)
    (fun lead t va pa r st =>
      let (n, st1) := subsOne t va pa fmt r st
      giveResult d 1 lead t [BitVec.ofNat 32 n] st1) s)

/-- UNSUB (R328). -/
def execUnsub (gd : Guard) (d : Dest) (a : Src) (off : BitVec 24) (s : State) : Outcome State Fault Refusal :=
  .next (flatGroup gd (tileAsk fun _ => true) (fun t => flatAddr s t a off) goOn (skipCapture s d)
    (fun lead t _ pa r st =>
      let (n, st1) := unsubOne t pa r st
      giveResult d 1 lead t [BitVec.ofNat 32 n] st1) s)

/-- UPGR (R328, R277). -/
def execUpgr (gd : Guard) (d : Dest) (a : Src) (off : BitVec 24) (fmt : SubFmt) (s : State) : Outcome State Fault Refusal :=
  .next (flatGroup gd (tileAsk subscribedKind) (fun t => flatAddr s t a off) goOn (skipCapture s d)
    (fun lead t va pa r st =>
      let (n, st1) := upgrOne t va pa fmt r st
      giveResult d 1 lead t [BitVec.ofNat 32 n] st1) s)

/-- A thread's subscribed element where its core's copy may serve it (R280, R300, R318): the sector is valid, no access of its
own is on the way to the line, and no notification of its own writes is on the way to its core. -/
def State.subHit (s : State) (t : Tid) (pa : Nat) (f : SubFmt) : Option Nat :=
  match s.subOf (s.coreOf t) pa with
  | none => none
  | some x =>
    let own := s.mem.notices.any fun n => decide (n.core = x.core ∧ n.pa = x.pa ∧ n.tid = some t ∧ n.sectors ≠ [])
    if x.fmt ≠ f ∨ s.busyLine t pa ∨ own then none
    else (tget x.sectors (pa % 4096 / 32)).map fun es => es.getD (pa % 32 / 4) 0

/-- LDSUB for one thread (R329): from its core's copy, or from the home. Its core's L1 lets the sector go, which may be older than what is
read (R300). -/
def startLdsub (d : Dest) (fmt : SubFmt) (lead : Bool) (t : Tid) (va pa : Nat) (r : Region) (s : State) : State :=
  match s.subHit t pa fmt with
  | some e =>
    let (id, s1) := s.expect t (resultCells (s.thread t) d 1 lead) d.reg.isS
    ((s1.dropL1 (s.coreOf t) (pa / 32)).modThread t fun th => setLatch th d.rl (.pend id 0)).arrive t id [BitVec.ofNat 32 e] none
      (some (s.pageOf t va))
  | none =>
    let held := ((s.subOf (s.coreOf t) pa).map fun x => decide (x.fmt = fmt)).getD false
    startLoad d 1 4 .w32 (.loadSub fmt held) false [] lead t va pa r s

/-- LDSUB's request: its core's copy at the format may serve it (R329). -/
def ldsubAsk (fmt : SubFmt) : Asked :=
  { loadAsk .w32 subscribedKind with near := fun s t _ pa => (s.subHit t pa fmt).isSome }

/-- LDSUB (R329). -/
def execLdsub (gd : Guard) (d : Dest) (a : Src) (off : BitVec 24) (fmt : SubFmt) (s : State) : Outcome State Fault Refusal :=
  .next (flatGroup gd (ldsubAsk fmt) (fun t => flatAddr s t a off) goOn (skipCapture s d)
    (fun lead t va pa r st => startLdsub d fmt lead t va pa r st) s)

/-! ### Gates and fences -/

/-- A gate (R304): as reserved, where nothing has been released. -/
def State.gate (s : State) (lid num : Nat) : Gate :=
  (s.mem.gates.find? fun g => g.lid = lid ∧ g.num = num).getD
    { lid := lid, num := num, rv := false, ri := 0, cnt := 0#32, replicas := [] }

/-- The copy of a gate on a die: RV, RI and CNT (R306). -/
def Gate.onDie (g : Gate) (die : Nat) : Bool × Nat × Word := (tget g.replicas die).getD (g.rv, g.ri, g.cnt)

/-- Regions bound to a gate (R305). -/
def Launch.boundTo (l : Launch) (g : Nat) : List Region := l.regions.filter fun r => decide (r.gate = g ∧ g ≠ 0)

/-- Whether some entry bound to a gate names a thread's instance (R309). -/
def State.gateNames (s : State) (t : Tid) (g : Nat) : Bool :=
  match s.launch t with
  | none => false
  | some l => (l.boundTo g).any fun r => decide (r.inst = s.instanceOf t r.dom)

/-- Scope violation (R431). -/
def scopeTrap (gate ri : Nat) (acq : Bool) : Trap :=
  { cls := 11, info0 := BitVec.ofNat 32 gate, info1 := BitVec.ofNat 32 ri, info2 := if acq then 1#32 else 0#32 }

/-- The scope check of ACQ and the count it reads (R308, R309). -/
def acqRead (s : State) (t : Tid) (gate : Nat) : Except Trap Word :=
  let (rv, ri, cnt) := (s.gate (s.gateLid t.coh.team.lid) gate).onDie (s.coreOf t).die
  let inst := (((s.launch t).bind fun l => (l.boundTo gate).head?).map fun r => s.instanceOf t r.dom).getD 0
  if s.gateNames t gate = false ∨ (rv = true ∧ inst ≠ ri) then .error (scopeTrap gate ri true) else .ok cnt

/-- A core's L1 sectors of a launch's regions invalidated where a test of their region holds (R308, R310, R311). -/
def State.acquireL1 (s : State) (t : Tid) (which : Region → Bool) : State :=
  let core := s.coreOf t
  let asid := (s.spaceOf t).1
  s.keepL1 fun k _ => !(decide (k.core = core ∧ k.asid = asid) && which (s.regionAt t (32 * k.sector)))

/-- ACQ (R330, R308, R309). -/
def execAcq (gd : Guard) (d : Dest) (gate : BitVec 12) (s : State) : Outcome State Fault Refusal :=
  let g := gate.toNat
  let s1 := (s.execs gd).foldl (fun st t =>
    match acqRead s t g with
    | .ok _ => st.acquireL1 t fun r => decide (r.gate = g)
    | .error _ => st) s
  .next (result gd d 1 (fun t => (acqRead s t g).map fun c => { words := [c] }) s1)

/-- Whether an access precedes what a thread does now: its own, or one that its team made before it was last placed or restored (R302,
context edge). -/
def State.precedes (s : State) (t u : Tid) (id : Nat) : Bool := decide (u = t) || s.beforeEdge t.coh.team u id

/-- The discards before a thread's instruction in regions of a kind: they count as writes (R301). -/
def State.discardsBefore (s : State) (t : Tid) (which : Region → Bool) : List Nat :=
  (s.mem.maints.filter fun m =>
    s.precedes t m.tid m.id && decide (m.kind = .discard) && m.ranges.any fun r => which (s.regionAt t r.1)).map fun m => m.id

/-- The accesses that precede an ordering instruction of a thread, to regions of a kind, and the notifications of its writes (R301, R307,
R310). They are its writes, which R307 names, and its reads: one that returned a write which follows the release would break R303 (log
entry 70). -/
def State.accessesBefore (s : State) (t : Tid) (which : Nat → Dom → Bool) : List Nat :=
  ((s.mem.accesses.filter fun a => s.precedes t a.tid a.id && which a.gate a.dom).map fun a => a.id) ++
  ((s.mem.notices.filter fun n => n.tid.any fun u => s.precedes t u n.access).map fun n => n.access) ++
  s.discardsBefore t fun r => which r.gate r.dom

/-- The accesses of a thread to regions of gate 0 within a scope, that a FENCE.rel waits for (R310, R331). -/
def State.fencedBefore (s : State) (t : Tid) (scope : Dom) : List Nat :=
  s.accessesBefore t fun g d => decide (g = 0 ∧ domCode d ≤ domCode scope)

/-- REL (R330, R307, R309): the release sets out for its home once the accesses before it have performed. It closes the region
unless the gate's domain is TEAM (R123). -/
def execRel (gd : Guard) (gate : BitVec 12) (s : State) : Outcome State Fault Refusal :=
  let g := gate.toNat
  .next (laneGroup gd (fun t =>
    let lid := s.gateLid t.coh.team.lid
    let dom := (((s.launch t).bind fun l => (l.boundTo g).head?).map fun r => r.dom).getD .team
    if s.gateNames t g = false then .error (scopeTrap g ((s.gate lid g).onDie (s.coreOf t).die).2.1 false)
    else
      .ok fun st =>
        let (id, st1) := st.fresh
        let r : Release := { id := id, lid := lid, num := g, tid := t, core := s.coreOf t, part := (s.cohort t.coh).part.part,
                             ri := s.instanceOf t dom, waits := s.accessesBefore t fun n _ => decide (n = g), arrived := none }
        let st2 := { st1 with mem := { st1.mem with releases := st1.mem.releases ++ [r] } }
        if dom = .team then st2 else st2.closeTeam t) s)

/-- FENCE (R331, R310): the waits of ACQ, BK and of several bits are met before it issues; REL alone holds the thread's later
synchronising writes. -/
def execFence (gd : Guard) (scope : Dom) (bk acq rel : Bool) (s : State) : Outcome State Fault Refusal :=
  let inScope (r : Region) : Bool := decide (r.gate = 0 ∧ domCode r.dom ≤ domCode scope)
  .next (laneGroup gd (fun t =>
    .ok fun st =>
      let held := st.fencedBefore t scope
      let st1 := if rel && !acq && !bk then st.modThread t fun th => { th with fence := held ++ th.fence } else st
      if acq then st1.acquireL1 t inScope else st1) s)

/-! ### Cache maintenance -/

/-- The pages of a byte range as pieces: virtual start and length (R332). -/
def pagePieces (a n : Nat) : List (Nat × Nat) :=
  if n = 0 then []
  else (List.range ((a + n - 1) / 65536 + 1 - a / 65536)).map fun i =>
    let p := a / 65536 + i
    let lo := max a (65536 * p)
    (lo, min (a + n) (65536 * (p + 1)) - lo)

/-- The physical start of a piece whose page has a valid leaf (R332): looked up without setting A. -/
def State.pieceAt (s : State) (t : Tid) (va : Nat) : Option Nat :=
  match (s.spaceOf t).2 with
  | none => none
  | some rt =>
    match (s.walk rt va).1 with
    | .leaf _ pte big => if pteBit pte 0 then some (leafPa pte big va) else none
    | .unmapped | .malformed => none

/-- Whether a maintenance instruction refuses a region (R332). -/
def MaintKind.refuses (k : MaintKind) (r : Region) : Bool :=
  match k with
  | .clean | .inval => decide (r.kind = .memside)
  | .discard => decide (r.kind ≠ .discard)

/-- The cause for which a maintenance instruction refuses a piece of its range, if any: its region's kind (R332, R269), or a physical
address beyond DRAM (R292). -/
def MaintKind.pieceCause (k : MaintKind) (r : Region) (pa : Option Nat) (len : Nat) : Option Nat :=
  if k.refuses r then some 3 else if pa.any fun p => decide (dramLimit < p + len) then some 4 else none

/-- One thread's maintenance instruction checked (R332): the pieces it acts on. -/
def maintPieces (s : State) (t : Tid) (k : MaintKind) (a b : Src) (off : BitVec 24) : Except Trap (List (Nat × Nat × Nat)) := do
  let addr ← flatAddr s t a off
  let len ← readSrc s t b
  if addr.toNat % 32 ≠ 0 ∨ len.toNat % 32 ≠ 0 then .error (trap64 9 addr.toNat 0#32)
  else if len = 0#32 then .ok []
  else if 2 ^ 57 < addr.toNat + len.toNat then .error (trap64 10 addr.toNat 0#32)
  else
    let ps := pagePieces addr.toNat len.toNat
    let live := ps.filterMap fun p =>
      let r := s.regionAt t p.1
      if r.kind = .weight then (if k.refuses r then some (p, none) else none)
      else (s.pieceAt t p.1).map fun pa => (p, some pa)
    match live.findSome? fun x => (k.pieceCause (s.regionAt t x.1.1) x.2 x.1.2).map fun c => (x.1.1, c) with
    | some x => .error (accessViolation x.1 x.2)
    | none => .ok (live.filterMap fun x => x.2.map fun pa => (x.1.1, pa, x.1.2))

/-- A maintenance instruction: it runs in the background (R332). -/
def maintGroup (gd : Guard) (k : MaintKind) (a b : Src) (off : BitVec 24) (s : State) : State :=
  laneGroup gd (fun t => do
    let ps ← maintPieces s t k a b off
    if ps.isEmpty then .ok id
    else
      .ok fun st =>
        let (id, st1) := st.fresh
        let m : Maint := { id := id, tid := t, core := s.coreOf t, kind := k, asid := (s.spaceOf t).1, ranges := ps }
        { st1 with mem := { st1.mem with maints := st1.mem.maints ++ [m] } }) s

/-- CLNR (R332). -/
def execClnr (gd : Guard) (a : Src) (b : Src) (off : BitVec 24) (s : State) : Outcome State Fault Refusal :=
  .next (maintGroup gd .clean a b off s)

/-- INVR (R332). -/
def execInvr (gd : Guard) (a : Src) (b : Src) (off : BitVec 24) (s : State) : Outcome State Fault Refusal :=
  .next (maintGroup gd .inval a b off s)

/-- DSCR (R332). -/
def execDscr (gd : Guard) (a : Src) (b : Src) (off : BitVec 24) (s : State) : Outcome State Fault Refusal :=
  .next (maintGroup gd .discard a b off s)

/-! ### Memory side and weight store -/

/-- Only MEMSIDE regions (R291). -/
def memsideKind (k : RegKind) : Bool := decide (k = .memside)

/-- The accesses of lower lanes of the instruction in progress to a line, which perform first (R290, R340). -/
def State.lowerLanes (s : State) (base pa : Nat) : List Nat :=
  (s.mem.accesses.filter fun b => decide (base ≤ b.id) && sameLine b.pa pa).map fun b => b.id

/-- LDRC (R333, R290): each thread's access, of whatever size, reaches its line once. -/
def execLdrc (gd : Guard) (d : Dest) (a : Src) (off : BitVec 24) (sz : LdSize) (s : State) : Outcome State Fault Refusal :=
  .next (flatGroup gd (loadAsk sz memsideKind) (fun t => flatAddr s t a off) goOn (skipCapture s d)
    (fun lead t va pa r st =>
      let after := st.lowerLanes s.nextId pa
      let (id, st1) := st.expect t (resultCells (st.thread t) d sz.regs lead) d.reg.isS
      sendPieces id sz .loadCount false after t va pa r [(0, sz.bytes)] (st1.modThread t fun th => setLatch th d.rl (.pend id 0))) s)

/-- STRC (R333, R290): each thread's access, of whatever size, reaches its line once. -/
def execStrc (gd : Guard) (a : Src) (b : Src) (off : BitVec 24) (cnt : BitVec 8) (sz : StSize) (s : State) :
    Outcome State Fault Refusal :=
  .next (flatGroup gd (storeAsk sz memsideKind) (storeAddr s a b off sz) goOn skipPlain
    (fun _ t va pa r st =>
      (st.closeStore t r).send t va pa sz.bytes (.storeCount (bytesOf s b sz t) cnt.toNat) r none (st.lowerLanes s.nextId pa)) s)

/-- The physical address and region that a prefetch may fill for (R334): none where its address would trap or fault, or its region does
not take it. It sets no A and fills no TLB. -/
def prefetchAt (s : State) (t : Tid) (addr : Except Trap DWord) (lvl : PfLevel) : Option (Nat × Nat) :=
  match addr with
  | .error _ => none
  | .ok a =>
    let va := a.toNat
    let r := s.regionAt t va
    let sp := s.spaceOf t
    if 2 ^ 57 ≤ va ∨ r.nonIdem ∨ r.kind = .weight ∨ (r.kind = .memside ∧ lvl ≠ .ms) ∨ (sp.1, va / 65536) ∈ (s.thread t).replayTrap then none
    else
      match (translate s (s.coreOf t) sp.1 sp.2 va .read).1 with
      | .ok pa _ => if pa < dramLimit then some (va, pa) else none
      | .remote _ | .declined _ => none

/-- The sectors of a line filled into the levels that a prefetch names (R334, R490): a poisoned one goes into no L1. -/
def prefetchLine (s : State) (t : Tid) (va pa : Nat) (lvl : PfLevel) : State :=
  (List.range 4).foldl (fun st k =>
    let sec := pa / 128 * 4 + k
    match lvl with
    | .ms => (sideRead st sec).2
    | .l2 => (homeFill st sec).2
    | .l1 =>
      let (l, st1) := homeFill st sec
      if l.poison then st1
      else (st1.putL1 { core := st.coreOf t, asid := (st.spaceOf t).1, sector := va / 128 * 4 + k } sec l.data).refreshCopy (st.coreOf t) (32 * sec)) s

/-- PRFT (R334): it asks for lines and raises nothing. -/
def execPrft (gd : Guard) (a : Src) (off : BitVec 24) (lvl : PfLevel) (s : State) : Outcome State Fault Refusal :=
  let fill (st : State) (t : Tid) : State :=
    match prefetchAt st t (flatAddr s t a off) lvl with
    | some (va, pa) => prefetchLine st t va pa lvl
    | none => st
  .next (runGroup gd (fun _ th => .ok (th, .next)) skipPlain ((s.execs gd).foldl fill s))

/-- The PTC tick of a bank's present or next refresh window (R285, R286). -/
def windowStart (t b : Nat) : Nat :=
  let p := t % 40000
  if p < 1250 * b + 320 then t - p + 1250 * b else t - p + 40000 + 1250 * b

/-- Whether a bank refreshes at a tick (R285). -/
def refreshes (t b : Nat) : Bool := decide (1250 * b ≤ t % 40000 ∧ t % 40000 < 1250 * b + 320)

/-- RFWIN (R335). -/
def execRfwin (gd : Guard) (d : Dest) (a : Src) (s : State) : Outcome State Fault Refusal :=
  .next (result gd d 2 (fun t => do
    let v ← readSrc s t a
    .ok { words := natWords 2 (windowStart s.ptc.toNat (v.toNat % 32)) }) s)

/-- The bank of a weight-store offset (R285). -/
def weightBank (o : Nat) : Nat := o / 256 % 32

/-- Only WEIGHT regions (R336). -/
def weightKind (k : RegKind) : Bool := decide (k = .weight)

/-- A weight-store piece read: on its way, or waiting for its bank's window to end (R286). -/
def startWeight (d : Dest) (sz : LdSize) (lead : Bool) (t : Tid) (o : Nat) (s : State) : State :=
  let die := (s.coreOf t).die
  let (id, s1) := s.expect t (resultCells (s.thread t) d sz.regs lead) d.reg.isS
  let s2 := s1.modThread t fun th => setLatch th d.rl (.pend id 0)
  let ws := extWords sz (s.weightBytes die o sz.bytes)
  let b := weightBank o
  let a : Arrival := { pend := id, tid := t, words := ws, bank := some (die, b) }
  if refreshes s.ptc.toNat b || s.mem.refreshing.contains (die, b) then
    { s2 with mem := { s2.mem with weightReads := s2.mem.weightReads ++ [a] } }
  else { s2 with mem := { s2.mem with arrivals := s2.mem.arrivals ++ [a] } }

/-- LDWT (R336, R273, R286, R491). -/
def execLdwt (gd : Guard) (d : Dest) (a : Src) (off : BitVec 24) (sz : LdSize) (s : State) : Outcome State Fault Refusal :=
  .next (flatGroup gd (loadAsk sz weightKind) (fun t => flatAddr s t a off) goOn (skipCapture s d)
    (fun lead t _ o _ st => startWeight d sz lead t o st) s)

end Sys2Proof.Machine
end

