-- ==== Sys2Proof/Machine/Barriers.lean ====
section
/-!
DEFINITION. Barriers (R206 to R208, R311): members and expected counts, arrivals, phase completion and the release of the
threads blocked in it.
-/

namespace Sys2Proof.Machine

/-- The barrier an instruction of a thread names (R206). -/
def State.barKey (s : State) (t : Tid) (b : BarRef) : BarKey :=
  match b.lev with
  | .cohort => { owner := .cohort t.coh, num := b.num }
  | .team => { owner := .team t.coh.team, num := b.num }
  | .cluster => { owner := .cluster t.coh.team.lid (((s.team t.coh.team).map fun m => m.k4).getD 0), num := b.num }

/-- A barrier in its first phase. -/
def Barrier.first : Barrier := { phase := 1, arrived := [], held := [], last := [], bytes := 0, waits := [] }

/-- A barrier by its key. -/
def State.bar (s : State) (k : BarKey) : Barrier := (tget s.barriers k).getD Barrier.first

/-- The member a thread arrives as (R206): itself, or its cohort. -/
def memberOf (k : BarKey) (t : Tid) : Tid :=
  match k.owner with
  | .cohort _ => t
  | .team _ | .cluster _ _ => { t with lane := 0 }

/-- Threads that are not Exited. -/
def State.alive (s : State) : List Tid := (s.threads.filter fun p => decide (p.2.status ≠ .exited)).map fun p => p.1

/-- Whether a cohort has a thread that is not Exited. -/
def State.cohortAlive (s : State) (c : CohId) : Bool := s.threads.any fun p => decide (p.1.coh = c ∧ p.2.status ≠ .exited)

/-- The cohorts of a cluster's teams that are off their cores for pre-emption: they are members still (R206, R447, R453). -/
def SavedTeam.members (lid cpt : Nat) : SavedTeam → List Tid
  | .restart k3 _ _ => (List.range cpt).map fun k => { coh := { team := { lid := lid, k3 := k3 }, k1 := k }, lane := 0 }
  | .image _ _ ths _ _ _ _ => (ths.map fun x => { x.tid with lane := 0 }).eraseDups
  | .done _ => []

/-- The members of a cluster barrier whose teams are off their cores. -/
def State.awayMembers (s : State) (lid k4 : Nat) : List Tid :=
  s.launches.flatMap fun l => l.stages.flatMap fun g =>
    if g.lid ≠ lid then []
    else
      ((g.placed.filter fun c => c.k4 = k4).flatMap fun c => c.gone.flatMap fun x => x.2.members lid l.desc.cpt) ++
      ((g.saved.filter fun c => c.k4 = k4).flatMap fun c => c.teams.flatMap fun x => x.2.members lid l.desc.cpt)

/-- The members of a barrier that count (R206). -/
def State.members (s : State) (k : BarKey) : List Tid :=
  match k.owner with
  | .cohort c => s.alive.filter fun t => t.coh = c
  | .team m => (s.alive.filter fun t => t.coh.team = m).map (memberOf k) |>.eraseDups
  | .cluster lid k4 =>
    ((s.alive.filter fun t => decide (t.coh.team.lid = lid) && decide ((s.team t.coh.team).map (fun m => m.k4) = some k4)).map
      (memberOf k) |>.eraseDups) ++ s.awayMembers lid k4

/-- An arrival counted or held (R207), with the phase it belongs to. -/
def Barrier.arrive (b : Barrier) (m : Tid) : Barrier :=
  if m ∈ b.arrived then
    { b with held := b.held ++ [m], last := tput b.last m (b.phase + (b.held.filter fun x => x = m).length + 1) }
  else { b with arrived := b.arrived ++ [m], last := tput b.last m b.phase }

/-- The next phase opened: of each held member one arrival counts in it (R207). -/
def Barrier.next (b : Barrier) : Barrier :=
  let now := b.held.eraseDups
  { b with phase := b.phase + 1, arrived := now, held := now.foldl (fun l m => l.erase m) b.held,
           waits := b.waits.filter fun w => decide (b.phase < w.1) }

/-- Whether a phase completes (R208, R222): its members have arrived and their covered writes have performed (R311). -/
def State.barDone (s : State) (k : BarKey) : Bool :=
  let b := s.bar k
  let ms := s.members k
  !ms.isEmpty && ms.all (fun m => b.arrived.contains m) && decide (b.bytes = 0) &&
    b.waits.all fun w => decide (w.1 ≠ b.phase) || !s.unperformed w.2

/-- Whether a barrier covers a region for a thread (R311). -/
def State.barCovers (s : State) (k : BarKey) (r : Region) : Bool :=
  match k.owner with
  | .cohort _ => false
  | .team m => decide (r.dom = .team ∧ r.inst = m.k3)
  | .cluster lid k4 =>
    decide (r.dom = .clus ∧ r.inst = k4) ||
      (s.launchOf lid).any fun l => decide (r.dom = .team ∧ r.inst / l.desc.tpc = k4)

/-- A thread released by a phase's completion (R208, R221). -/
def releaseBar (k : BarKey) (ph : Nat) (th : Thread) : Thread :=
  match th.status with
  | .blocked (.bar k' p dl) =>
    if k' = k ∧ p ≤ ph then
      let th1 := match dl with
        | some (_, pp) => setPreds th [(evenPred pp, true), (oddPred pp, false)]
        | none => th
      { th1 with status := .arriving, wait := none, latches := noLatches, kept := none }
    else th
  | .blocked (.held k' p) =>
    if k' = k ∧ p ≤ ph then { th with status := .arriving, wait := none, latches := noLatches, kept := none } else th
  | _ => th

/-- Whether a thread is Blocked for a phase and acquires when it completes (R311); one held at an arrival does not. -/
def Thread.acquires (th : Thread) : Bool :=
  match th.status with
  | .blocked (.bar _ _ _) => true
  | _ => false

/-- Phases of a barrier completed while they can (R208); fuel bounds their number. -/
def settleBar (fuel : Nat) (k : BarKey) (s : State) : State :=
  match fuel with
  | 0 => s
  | n + 1 =>
    if s.barDone k then
      let b := s.bar k
      let freed := (s.threads.filter fun p => p.2.acquires && decide (releaseBar k b.phase p.2 ≠ p.2)).map fun p => p.1
      let s1 := { s with threads := s.threads.map fun p => (p.1, releaseBar k b.phase p.2), barriers := tput s.barriers k b.next }
      let s2 := freed.foldl (fun st t => st.acquireL1 t (s.barCovers k)) s1
      settleBar n k s2
    else s

/-- A barrier settled. -/
def State.settleBar (s : State) (k : BarKey) : State := Machine.settleBar ((s.bar k).held.length + 1) k s

/-- The accesses before a thread's arrival that a barrier covers and that have not performed (R311): its writes to its regions, by
discards and with their notifications (R301, R307), and to its team's scratch; and its reads, as R303 asks (log entry 70). -/
def State.coveredBefore (s : State) (k : BarKey) (t : Tid) : List Nat :=
  ((s.mem.accesses.filter fun a => s.precedes t a.tid a.id && s.barCovers k (s.regionAt t a.va)).map fun a => a.id) ++
  ((s.mem.notices.filter fun n => n.tid.any fun u => s.precedes t u n.access).map fun n => n.access) ++ s.discardsBefore t (s.barCovers k) ++
  ((s.mem.passes.filter fun p => decide (p.tid = t)).map fun p => p.exec)

/-- Arrivals at a barrier counted, completion judged after all of them (R220): those of the members that the threads ts executed
them for, each with its threads' covered writes (R311). -/
def State.arriveAt (s : State) (k : BarKey) (ms ts : List Tid) : State :=
  let b := ms.foldl Barrier.arrive (s.bar k)
  let waits := ts.flatMap fun t => (s.coveredBefore k t).map fun i => ((tget b.last (memberOf k t)).getD b.phase, i)
  { s with barriers := tput s.barriers k { b with waits := b.waits ++ waits } }

/-- What a thread does after an arrival that it does not wait for (R220): it goes on, or where its member has arrived in the open phase
already it is held at the arrival until the arrival counts (R207): until the open phase completes, and behind arrivals of the member that
are held before it as many phases more (log entry 65). -/
def Barrier.actAfter (b : Barrier) (k : BarKey) (t : Tid) : Act :=
  if memberOf k t ∈ b.arrived then .block (.held k (b.phase + (b.held.filter fun x => x = memberOf k t).length)) else .next

/-- The arrivals one execution makes (R207): every executing thread's, or its cohort's. -/
def arrivals (k : BarKey) (ts : List Tid) : List Tid := (ts.map (memberOf k)).eraseDups

/-- Every barrier that an exit of some threads bears on, settled (R208, R210). -/
def State.settleExits (s : State) (ts : List Tid) : State :=
  let teams := (ts.map fun t => t.coh.team).eraseDups
  let near (k : BarKey) : Bool :=
    match k.owner with
    | .cohort c => ts.any fun t => t.coh = c
    | .team m => teams.contains m
    | .cluster lid _ => teams.any fun m => m.lid = lid
  ((s.barriers.map fun p => p.1).filter near).foldl (fun st k => st.settleBar k) s

end Sys2Proof.Machine
end

