-- ==== Sys2Proof/Machine/Fetch.lean ====
section
/-!
DEFINITION. Instruction fetch: the line and its word (R34 to R36), the line read and judged (R37, R39, R275), and the checks
of a thread that enters a slot (R37, R38).
-/

namespace Sys2Proof.Machine

/-! ### The line -/

/-- The parity of a line's four position classes, PAR included (R36). -/
def lineParity (bs : List Byte) : Nat := bs.foldl (fun acc b => acc ^^^ (b.toNat % 16) ^^^ (b.toNat / 16)) 0

/-- The line word (R34). -/
def lineWord (bs : List Byte) : Nat := leNat ((bs.drop 60).take 4)

/-- The template code of a slot (R35, R40): 0 end, 1 hold, 2 pair. -/
def lineTpl (bs : List Byte) (n : Nat) : Nat := lineWord bs / 2 ^ (9 + 2 * n) % 4

/-- The branch-target bit of a slot (R35). -/
def lineTarget (bs : List Byte) (n : Nat) : Bool := decide (lineWord bs / 2 ^ (19 + n) % 2 = 1)

/-- The dead-predicate mask (R35). -/
def lineDead (bs : List Byte) : BitVec 8 := BitVec.ofNat 8 (lineWord bs / 2 ^ 24)

/-- The reserved bits [8:4] of the line word (R35). -/
def lineReserved (bs : List Byte) : Nat := lineWord bs / 16 % 32

/-- The instruction word of a slot (R34). -/
def slotWord (bs : List Byte) (n : Nat) : IWord := BitVec.ofNat 96 (leNat ((bs.drop (12 * n)).take 12))

/-! ### Reading it -/

/-- What a fetch comes to: a line, one whose first copy fails its parity (R37), a line that stores are on the way to, which no fetch
reads between them (R39), a trap, or a translation fault. -/
inductive Fetched where
  | line (bs : List Byte)
  | mismatch
  | busy
  | trap (tr : Trap)
  | fault (va : Nat) (reason : Option Nat)
  deriving DecidableEq, Repr

/-- A fetch's request (R275): an access of kind fetch to a region that a core caches. -/
def fetchAsk : Asked := { align := 64, size := 64, kind := .fetch, allow := cachedKind, reads := false }

/-- Whether a thread's write to a 64-byte line is on its way to the home: a fetch then waits, so that it meets each store whole or
not at all (R39, R275). -/
def State.lineBusy (s : State) (pa : Nat) : Bool := s.mem.accesses.any fun a => a.op.stores && decide (a.pa / 64 = pa / 64)

/-- A line read through its home L2 slice, a poisoned sector of it being a poison trap (log entry 22). -/
def homeLine (s : State) (core : CoreId) (pa : Nat) : Fetched × State :=
  if s.lineBusy pa then (.busy, s) else
  let ((a, p), s1) := homeRead s pa 32
  let ((b, q), s2) := homeRead s1 (pa + 32) 32
  if p || q then
    let x := if p then pa else pa + 32
    (.trap (poisonTrap x), s2.report 4 x (locCore core))
  else (.line (a ++ b), s2)

/-- A line kept by its core (R39). -/
def State.keepLine (s : State) (core : CoreId) (pa : Nat) (bs : List Byte) : State :=
  { s with mem := { s.mem with lines := tput s.mem.lines (core, pa / 64) bs } }

/-- A core's copy of a line dropped. -/
def State.dropLine (s : State) (core : CoreId) (line : Nat) : State :=
  { s with mem := { s.mem with lines := terase s.mem.lines (core, line) } }

/-- The line of a thread's PC read from its home, whatever its core holds (R37). -/
def freshLine (s : State) (t : Tid) (pc : Pc) : Fetched × State :=
  match judge s fetchAsk t (.ok ((lineOf pc).setWidth 64)) with
  | (.trap tr, s1) => (.trap tr, s1)
  | (.fault va n, s1) => (.fault va n, s1)
  | (.ok _ pa _, s1) =>
    match homeLine s1 (s.coreOf t) pa with
    | (.line bs, s2) => (.line bs, s2.keepLine (s.coreOf t) pa bs)
    | r => r

/-- The line of a thread's PC (R39, R275): the copy its core holds, or a fresh one; check says that its parity is judged. -/
def fetchLine (check : Bool) (s : State) (t : Tid) (pc : Pc) : Fetched × State :=
  match judge s fetchAsk t (.ok ((lineOf pc).setWidth 64)) with
  | (.trap tr, s1) => (.trap tr, s1)
  | (.fault va n, s1) => (.fault va n, s1)
  | (.ok _ pa _, s1) =>
    let got :=
      match tget s1.mem.lines (s.coreOf t, pa / 64) with
      | some bs => (Fetched.line bs, s1)
      | none => homeLine s1 (s.coreOf t) pa
    match got with
    | (.line bs, s2) =>
      if check && decide (lineParity bs ≠ 0) then (.mismatch, s2.dropLine (s.coreOf t) (pa / 64))
      else (.line bs, s2.keepLine (s.coreOf t) pa bs)
    | r => r

/-! ### Entering a slot -/

/-- Whether a thread's line is checked at its PC (R37). DESIGN CHOICE (log entry 26): every entry of a line by fall-through or
transfer is checked, also of one that the thread has entered before; R37 says only that the first entry is. -/
def EntryKind.checked : EntryKind → Bool
  | .free => false
  | .line | .transfer => true

/-- The trap of a thread that enters a slot of a line (R37, R38, R432): reserved bits first, then the branch target. -/
def entryTrap (bs : List Byte) (pc : Pc) (k : EntryKind) : Option Trap :=
  if k.checked && decide (lineReserved bs ≠ 0) then some (illegal .lineWord)
  else if decide (k = .transfer) && !lineTarget bs (slotOf pc) then some (trap64 2 pc.toNat 1#32)
  else none

/-- The slots that a thread's run had issued (R188): its partition's record of the run, or the run it kept. -/
def State.runSlots (s : State) (p : PartId) (t : Tid) : Nat :=
  let run := (tget s.parts p).bind fun q => q.runs.find? fun r => r.tids.contains t
  ((run.map fun r => r.rsl).or ((s.thread t).kept.map fun k => k.rsl)).getD 0

/-- The issue that a slot of a line stands for, the second of a pair where the run has issued the pair's first (R434, P2). -/
def issueAt (p : PartId) (pc : Pc) (bs : List Byte) (tids : List Tid) (rsl : Nat) : Issue :=
  { part := p, pc := pc, word := slotWord bs (slotOf pc), tids := tids,
    second := decide (0 < rsl ∧ 0 < slotOf pc) && decide (lineTpl bs (slotOf pc - 1) = 2), rsl := rsl,
    tpl := lineTpl bs (slotOf pc), dpm := lineDead bs }

/-- A trap of one thread outside an instruction: it leaves its seat and takes the trap (R431, R438). -/
def State.trapNow (s : State) (is : Issue) (t : Tid) (tr : Trap) : State :=
  let th := s.thread t
  let s1 := s.unseat fun u => decide (u = t)
  { s1.modThread t (takeTrap s is t tr) with traps := s1.traps ++ (trapReport s is t tr th).toList }

/-- A core's counter and the host told of a transient error (R444, R37, R502, R557). -/
def State.transient (s : State) (core : CoreId) (src : Nat) : State := (s.report 5 0 (locCore core)).bump (.core core) src

/-! ### The second copy -/

/-- A thread's wait ended at its slot, where it issues again. -/
def State.unwait (s : State) (t : Tid) : State := s.modThread t fun th => { th with wait := none }

/-- Threads of a partition that wait for the second copy of a line, in order (R37). -/
def State.refetching (s : State) (p : PartId) (line : Pc) : List Tid :=
  sortTids ((s.threads.filter fun x =>
    decide (x.2.wait = some (.refetch line) ∧ (s.cohort x.1.coh).part = p)).map fun x => x.1)

/-- The second copy for one thread: whether it passed, and the state after it (R37). DESIGN CHOICE (log entry 26): a second copy that
fails its parity raises cause fetch-parity, whatever its reserved bits hold; R68 has both causes in one row. A copy that cannot be
read while stores are on the way to it comes later. -/
def refetchOne (p : PartId) (acc : Bool × State) (t : Tid) : Bool × State :=
  let s := acc.2
  let th := s.thread t
  match freshLine s t th.pc with
  | (.line bs, s1) =>
    if lineParity bs = 0 then (true, s1.unwait t)
    else if th.entry.checked then
      (acc.1, s1.trapNow (issueAt p th.pc bs [t] (s.runSlots p t)) t (illegal .fetchParity))
    else (acc.1, s1.unwait t)
  | (.busy, _) => acc
  | (_, s1) => (acc.1, s1.unwait t)

/-- The second copy of a line arrives for the threads of a partition (R37). -/
def refetch (s : State) (p : PartId) (line : Pc) : State :=
  let (ok, s1) := (s.refetching p line).foldl (refetchOne p) (false, s)
  if ok then s1.transient p.core 6 else s1

end Sys2Proof.Machine
end

