-- ==== Sys2Proof/Machine/Parallel.lean ====
section
/-!
DEFINITION. The parallel group (opcodes 0xB0 to 0xBD): election, votes and matching (R216 to R218), barriers (R219 to R222),
children, exit and stage queues (R224 to R226), region entry and timed waits (R227, R228).
-/

namespace Sys2Proof.Machine

open Host (Outcome)

/-! ### Election, votes and matching -/

/-- The quarter of a lane (R205). -/
def quarterOf (t : Tid) : Nat := t.lane.val / 8

/-- The first thread of each quarter not seen yet. -/
def quarterLeaders (seen : List Nat) : List Tid → List Tid
  | [] => []
  | t :: rest => if quarterOf t ∈ seen then quarterLeaders seen rest else t :: quarterLeaders (quarterOf t :: seen) rest

/-- The leaders of an execution: the lowest thread of all, or of each quarter (R205). -/
def leaders (quarters : Bool) (ts : List Tid) : List Tid := if quarters then quarterLeaders [] ts else ts.take 1

/-- A thread's predicates after an election. -/
def electPreds (ls : List Tid) (pp : Fin 4) (t : Tid) (th : Thread) : Thread :=
  setPreds th [(evenPred pp, ls.contains t), (oddPred pp, !ls.contains t)]

/-- ELECT and ELECTQ (R205, R216). -/
def election (quarters : Bool) (gd : Guard) (pp : Fin 4) (slp : Bool) (s : State) : Outcome State Fault Refusal :=
  forCohort gd (fun c ts s =>
    let ls := leaders quarters ts
    if slp then
      match (s.cohort c).conv with
      | [] => runGroup gd (fun _ _ => .error (illegalJoin 0)) skipPlain s
      | e :: rest =>
        if ts.all fun t => inMask e.mask t.lane then
          let asleep := ts.filter fun t => !ls.contains t
          let s1 := runGroup gd (fun t th => .ok (electPreds ls pp t th, if ls.contains t then .next else .block .conv)) skipPlain s
          settleConv c (s1.modConv c fun _ => ({ e with arrived := e.arrived ||| laneMask asleep } : ConvEntry) :: rest)
        else runGroup gd (fun _ _ => .error (illegalJoin (rest.length + 1))) skipPlain s
    else runGroup gd (fun t th => .ok (electPreds ls pp t th, .next)) skipPlain s) s

/-- ELECT (R216). -/
def execElect (gd : Guard) (pp : Fin 4) (slp : Bool) (s : State) : Outcome State Fault Refusal := election false gd pp slp s

/-- ELECTQ (R216). -/
def execElectq (gd : Guard) (pp : Fin 4) (slp : Bool) (s : State) : Outcome State Fault Refusal := election true gd pp slp s

/-- The result of a vote over the participating threads and those whose tested value is 1 (R217). -/
def pollWord (kind : PollKind) (ts yes : List Tid) : Word :=
  match kind with
  | .mask => laneMask yes
  | .some => boolWord (!yes.isEmpty)
  | .every => boolWord (decide (yes.length = ts.length))
  | .count => BitVec.ofNat 32 yes.length

/-- POLL (R217). -/
def execPoll (gd : Guard) (d : Dest) (inv : Bool) (k : Fin 8) (kind : PollKind) (s : State) : Outcome State Fault Refusal :=
  let ts := s.execs gd
  let yes := ts.filter fun t => (s.thread t).reads k != inv
  .next (result gd d 1 (fun _ => .ok { words := [pollWord kind ts yes] }) s)

/-- MATCH (R218). -/
def execMatchLanes (gd : Guard) (d : Dest) (a : Src) (w : Bool) (s : State) : Outcome State Fault Refusal :=
  let val (t : Tid) : Except Trap Nat := readNat s t a (if w then 2 else 1)
  let ts := s.execs gd
  .next (result gd d 1 (fun t => do
    let v ← val t
    .ok { words := [laneMask (ts.filter fun u => match val u with | .ok x => decide (x = v) | .error _ => false)] }) s)

/-! ### Barriers -/

/-- BARA (R220). -/
def execBara (gd : Guard) (bar : BarRef) (s : State) : Outcome State Fault Refusal :=
  forCohort gd (fun _ ts s =>
    let k := s.barKey (ts.headD { coh := { team := { lid := 0, k3 := 0 }, k1 := 0 }, lane := 0 }) bar
    ((runGroup gd (fun t th => .ok (th, (s.bar k).actAfter k t)) skipPlain s).arriveAt k (arrivals k ts) ts).settleBar k) s

/-- The phase a wait of a thread is for (R220): that of its last arrival; none where it has never arrived. -/
def Barrier.waitPhase (b : Barrier) (m : Tid) : Option Nat := tget b.last m

/-- BARW (R220). -/
def execBarw (gd : Guard) (bar : BarRef) (wo : Bool) (s : State) : Outcome State Fault Refusal :=
  forCohort gd (fun _ ts s =>
    let k := s.barKey (ts.headD { coh := { team := { lid := 0, k3 := 0 }, k1 := 0 }, lane := 0 }) bar
    let s0 := if wo then s else s.arriveAt k (arrivals k ts) ts
    let b := s0.bar k
    let act (t : Tid) : Act :=
      match b.waitPhase (memberOf k t) with
      | some p => if b.phase ≤ p then .block (.bar k p none) else .next
      | none => .next
    (runGroup gd (fun t th => .ok (th, act t)) skipPlain s0).settleBar k) s

/-- A thread whose deadline has come while it is Blocked (R221). -/
def timeOut (now : DWord) (th : Thread) : Thread :=
  match th.status with
  | .blocked (.bar _ _ (some (T, pp))) =>
    if T.toNat ≤ now.toNat then
      { setPreds th [(evenPred pp, false), (oddPred pp, true)] with
        status := .arriving, wait := none, latches := noLatches, kept := none }
    else th
  | _ => th

/-- BARWT (R221). DESIGN CHOICE (log entry 65): one that is held under R207 when its deadline is met reports so like any other, and its
arrival stays counted for the next phase. -/
def execBarwt (gd : Guard) (pp : Fin 4) (a : Src) (bar : BarRef) (wo : Bool) (s : State) : Outcome State Fault Refusal :=
  forCohort gd (fun _ ts s =>
    let k := s.barKey (ts.headD { coh := { team := { lid := 0, k3 := 0 }, k1 := 0 }, lane := 0 }) bar
    let ok := ts.filter fun t => match readPair s t a with | .ok _ => true | .error _ => false
    let s0 := if wo then s else s.arriveAt k (arrivals k ok) ok
    let b := s0.bar k
    let f (t : Tid) (th : Thread) : Except Trap (Thread × Act) := do
      let T ← readPair s t a
      match b.waitPhase (memberOf k t) with
      | some p =>
        if b.phase ≤ p then .ok (th, .block (.bar k p (some (T, pp))))
        else .ok (setPreds th [(evenPred pp, true), (oddPred pp, false)], .next)
      | none => .ok (setPreds th [(evenPred pp, true), (oddPred pp, false)], .next)
    let s1 := (runGroup gd f skipPlain s0).settleBar k
    { s1 with threads := s1.threads.map fun p => if p.1 ∈ ts then (p.1, timeOut s.ptc p.2) else p }) s

/-- The bytes of BARX (R222): those of its lowest executing lane, where the counter takes them. -/
def barxBytes (s : State) (a : Src) (k : BarKey) (t : Tid) : Except Trap Nat := do
  let v ← readSrc s t a
  if 2 ^ 31 - 1 < (s.bar k).bytes + (v.toNat : Int) then .error (illegal .byteOverflow) else .ok v.toNat

/-- Bytes added to a barrier's counter (R222). -/
def State.addBytes (s : State) (k : BarKey) (v : Nat) : State :=
  { s with barriers := tput s.barriers k { s.bar k with bytes := (s.bar k).bytes + v } }

/-- BARX (R222). -/
def execBarx (gd : Guard) (a : Src) (bar : BarRef) (arr : Bool) (s : State) : Outcome State Fault Refusal :=
  .next (match s.execs gd with
    | [] => runGroup gd (fun _ th => .ok (th, .next)) skipPlain s
    | t :: rest =>
      let k := s.barKey t bar
      match barxBytes s a k t with
      | .error tr => runGroup gd (fun _ _ => .error tr) skipPlain s
      | .ok v =>
        let s1 := s.addBytes k v
        if arr then
          ((runGroup gd (fun u th => .ok (th, (s.bar k).actAfter k u)) skipPlain s1).arriveAt k [memberOf k t] (t :: rest)).settleBar k
        else (runGroup gd (fun _ th => .ok (th, .next)) skipPlain s1).settleBar k)

/-! ### Children, exit and stage queues -/

/-- The address and the word of a SPAWN, checked (R224). -/
def spawnArgs (s : State) (a b : Src) (t : Tid) : Except Trap (Nat × Word) := do
  let p ← readPair s t a
  let w ← readSrc s t b
  if p.toNat % 64 ≠ 0 then .error (trap64 9 p.toNat 0#32)
  else if 2 ^ 57 ≤ p.toNat then .error (trap64 10 p.toNat 0#32)
  else .ok (p.toNat, w)

/-- The lowest lane of some that passes a check: it leads for an s-register (R23, R433; log entry 25). -/
def leadOf {α : Type} (ts : List Tid) (f : Tid → Except Trap α) : Option Tid := (goodLanes ts f).head?.map fun x => x.1

/-- SPAWN (R224): a record for the CP to read, and a result that comes when it has. -/
def execSpawn (gd : Guard) (d : Reg) (a : Src) (b : Src) (s : State) : Outcome State Fault Refusal :=
  let lead := leadOf (s.execs gd) (spawnArgs s a b)
  .next (laneGroup gd (fun t => do
    let (p, w) ← spawnArgs s a b t
    .ok fun st =>
        let cells := if d.isS && lead ≠ some t then [] else cellsOf (st.thread t) d 1
        let (id, st1) := st.expect t cells d.isS
        let sp := st.spaceOf t
        let x : Spawn := { tid := t, pend := id, asid := sp.1, root := sp.2, va := p, arg := w,
                           after := st.accessesBefore t fun _ _ => true }
        State.closeTeam (State.endReplay { st1 with cp := { st1.cp with spawns := st1.cp.spawns ++ [x] } } t.coh.team.lid) t) s)

/-- Threads gone from their cohorts' convergence masks (R204). -/
def State.leaveConv (s : State) (ts : List Tid) : State :=
  ((ts.map fun t => t.coh).eraseDups).foldl (fun st c =>
    settleConv c (st.modConv c fun l => dropLanes l.length (laneMask (ts.filter fun t => t.coh = c)) l)) s

/-- EXIT (R210, R225). -/
def execExit (gd : Guard) (s : State) : Outcome State Fault Refusal :=
  let ts := s.execs gd
  .next (((runGroup gd (fun _ th => .ok (th, .exit)) skipPlain s).leaveConv ts).settleExits ts)

/-- A stage queue's offset in scratch checked (R226). -/
def queueOffset (s : State) (t : Tid) (a : Src) : Except Trap Nat := do
  let v ← readSrc s t a
  let o := v.toNat
  if o % 64 ≠ 0 then .error (offsetTrap 9 o 1)
  else if s.scrOf t.coh.team < o + 64 then .error (offsetTrap 10 o 1)
  else .ok o

/-- The stages of a thread's launch and the number of its own, k9; none where it is no pipeline. -/
def State.stageOf (s : State) (t : Tid) : Option (Launch × Nat) :=
  match s.launch t, s.team t.coh.team with
  | some l, some m => if l.desc.stages.isEmpty then none else some (l, m.stage)
  | _, _ => none

/-- A stage's input queue changed. -/
def State.modItems (s : State) (lid k : Nat) (f : List QueueItem → List QueueItem) : State :=
  s.modLaunch lid fun l => { l with stages := l.stages.mapIdx fun i g => if i = k then { g with items := f g.items } else g }

/-- A stage-queue instruction's result on its way to its register (R226). -/
def queueResult (d : Reg) (lead : Bool) (t : Tid) (w : Word) (s : State) : State :=
  let cells := if d.isS && !lead then [] else cellsOf (s.thread t) d 1
  let (id, s1) := s.expect t cells d.isS
  s1.arrive t id [w] none

/-- ENQ (R226). -/
def execEnq (gd : Guard) (d : Reg) (a : Src) (s : State) : Outcome State Fault Refusal :=
  let lead := leadOf (s.execs gd) (queueOffset s · a)
  .next (laneGroup gd (fun t =>
    match s.stageOf t with
    | none => .error (illegal .stage)
    | some (l, k) =>
      if l.desc.stages.length ≤ k + 1 then .error (illegal .stage)
      else do
        let o ← queueOffset s t a
        .ok fun st =>
          let st0 := (st.closeTeam t).endReplay t.coh.team.lid
          let items := (((st0.launch t).bind fun l => l.stages[k + 1]?).map fun g => g.items).getD []
          if 256 ≤ items.length then queueResult d (lead = some t) t 0#32 st0
          else
            queueResult d (lead = some t) t 1#32
              (st0.modItems t.coh.team.lid (k + 1) fun q => q ++ [st0.scratchGet t.coh.team o 64])) s)

/-- DEQ (R226). -/
def execDeq (gd : Guard) (d : Reg) (a : Src) (s : State) : Outcome State Fault Refusal :=
  let lead := leadOf (s.execs gd) (queueOffset s · a)
  .next (laneGroup gd (fun t =>
    match s.stageOf t with
    | none => .error (illegal .stage)
    | some (l, k) =>
      if k = 0 then .error (illegal .stage)
      else do
        let o ← queueOffset s t a
        .ok fun st =>
          let st0 := (st.closeTeam t).endReplay t.coh.team.lid
          let items := (((st0.launch t).bind fun l => l.stages[k]?).map fun g => g.items).getD []
          match items with
          | it :: rest =>
            queueResult d (lead = some t) t 1#32
              ((st0.modItems t.coh.team.lid k fun _ => rest).modTeam t.coh.team fun m => m.scratchPut o it)
          | [] =>
            let isOver := (((st0.launch t).bind fun l => l.stages[k - 1]?).map fun g => decide (l.desc.ncl ≤ g.ended)).getD false
            queueResult d (lead = some t) t (if isOver then 2#32 else 0#32) st0) s)

/-! ### Regions and timed waits -/

/-- RGN (R227, R446): the resume slots, the region entry, and the team restartable unless a closing instruction of it takes effect in
the same cycle. -/
def execRgn (gd : Guard) (a : Option Reg) (n : Fin 5) (s : State) : Outcome State Fault Refusal :=
  .next (onceGroup gd (fun t =>
    let vals := match a with
      | some r => (r.span n.val).map (readReg s t)
      | none => []
    let slot (i : Nat) : Word := if i < n.val then vals.getD i 0#32 else 0#32
    .ok fun st => st.modTeam t.coh.team fun m =>
      { m with slots := #v[slot 0, slot 1, slot 2, slot 3], regionPc := nextPc s.issuePc, restartable := decide (m.closed ≠ some s.cycle) }) s)

/-- WAITT (R228). -/
def execWaitt (gd : Guard) (a : Src) (s : State) : Outcome State Fault Refusal :=
  .next (runGroup gd (fun t th => do
    let T ← readPair s t a
    .ok (th, if T.toNat ≤ s.ptc.toNat then .yield else .sleep (.time T))) skipPlain s)

end Sys2Proof.Machine
end

