-- ==== Sys2Proof/Machine/System.lean ====
section
/-!
DEFINITION. The system group (opcodes 0xE0 to 0xE7): user traps and the return from a handler (R153, R154), system registers
(R150, R151, R535), the window's spill and fill (R152), breakpoints and the clock (R155); and a word whose opcode is not
assigned (R68).
-/

namespace Sys2Proof.Machine

open Host (Outcome)

/-- TRAP (R153, R431): the user trap, its code in INFO0. -/
def execTrap (gd : Guard) (imm : Word) (s : State) : Outcome State Fault Refusal :=
  .next (runGroup gd (fun _ _ => .error { cls := 15, info0 := imm }) skipPlain s)

/-- The return of one thread from its handler (R154, R62): to the unchanged resume PC its run goes on, to a changed one a new
run begins. DESIGN CHOICE (log entry 26): an unchanged return to slot 0 of the next line, after a class 14 or 15 trap in slot 4, enters
that line without R37's checks. -/
def returnFrom (th : Thread) : Except Trap (Thread × Act) :=
  if th.hnd = false then .error (illegal .context)
  else if !slotForm th.epc.toNat then .error (trap64 2 th.epc.toNat 0#32)
  else if th.epc = th.resume then
    .ok ({ th with hnd := false, pc := th.epc, kept := th.record, record := none, entry := .free }, .arrive)
  else .ok ({ th with hnd := false, pc := th.epc, kept := none, record := none, entry := .transfer }, .arrive)

/-- RTE (R154); it leaves no line (R32). -/
def execRte (gd : Guard) (s : State) : Outcome State Fault Refusal :=
  .next (runGroup gd (fun _ th => returnFrom th) skipPlain s)

/-! ### System registers -/

/-- The queue of collective error records of a thread's launch on its die (R535). -/
def State.errQueue (s : State) (t : Tid) : List (Vector Word 8) :=
  ((tget s.eng.errs ((s.coreOf t).die, s.gateLid t.coh.team.lid)).map fun q => q.records).getD []

/-- LCTL (R150). -/
def lctlWord (l : LaunchRec) : Word :=
  BitVec.ofNat 32 (l.ten.toNat * 32 + (if l.ofl then 2 else 0) + (if l.ifl then 1 else 0))

/-- A register that only a handler reaches (R151). -/
def SysReg.inHandler : SysReg → Bool
  | .trw _ | .epcl | .epch => true
  | .flg | .win | .spal | .spah | .lctl | .cerq _ => false

/-- A register without write access (R150). -/
def SysReg.readOnly : SysReg → Bool
  | .win | .lctl | .trw _ | .cerq _ => true
  | .flg | .spal | .spah | .epcl | .epch => false

/-- The value of a system register (R150, R535). -/
def sysValue (s : State) (t : Tid) (r : SysReg) : Word :=
  let th := s.thread t
  match r with
  | .flg => th.flg.setWidth 32
  | .win => winWord th
  | .spal => th.spa.setWidth 32
  | .spah => (th.spa >>> 32).setWidth 32
  | .epcl => th.epc.setWidth 32
  | .epch => (th.epc >>> 32).setWidth 32
  | .lctl => ((s.launch t).map fun l => lctlWord l.desc).getD 0#32
  | .trw n => th.trw[n]
  | .cerq n => ((s.errQueue t).head?.map fun e => e[n]).getD 0#32

/-- RDSYS (R151). -/
def execRdsys (gd : Guard) (d : Dest) (reg : SysReg) (s : State) : Outcome State Fault Refusal :=
  .next (result gd d 1 (fun t =>
    if SysReg.inHandler reg && !(s.thread t).hnd then .error (illegal .context) else .ok { words := [sysValue s t reg] }) s)

/-- A thread with a system register written; reserved bits take nothing (R6, R150). -/
def sysWrite (th : Thread) (r : SysReg) (v : Word) : Thread :=
  let lowOf (x : Pc) : Pc := (x >>> 32 <<< 32) ||| v.setWidth 57
  let highOf (x : Pc) : Pc := (x.setWidth 32 : Word).setWidth 57 ||| (v.setWidth 57 <<< 32)
  match r with
  | .flg => { th with flg := v.setWidth 5 }
  | .spal => { th with spa := lowOf th.spa }
  | .spah => { th with spa := highOf th.spa }
  | .epcl => { th with epc := lowOf th.epc }
  | .epch => { th with epc := highOf th.epc }
  | .win | .lctl | .trw _ | .cerq _ => th

/-- WRSYS (R151). -/
def execWrsys (gd : Guard) (a : Src) (reg : SysReg) (s : State) : Outcome State Fault Refusal :=
  .next (runGroup gd (fun t th => do
    if SysReg.readOnly reg then .error (illegal .sysreg)
    else if SysReg.inHandler reg && !th.hnd then .error (illegal .context)
    else
      let v ← readSrc s t a
      .ok (sysWrite th reg v, .next)) skipPlain s)

/-- RDSYS of CERQ7 (R535): word 7 of the head record, which leaves the queue; executing threads read in ascending order. -/
def execCerq7Read (gd : Guard) (d : Dest) (s : State) : Outcome State Fault Refusal :=
  let ts := s.execs gd
  let value (t : Tid) : Word := ((s.errQueue t)[ts.idxOf t]?.map fun e => e[7]).getD 0#32
  let s1 := result gd d 1 (fun t => .ok { words := [value t] }) s
  match ts with
  | [] => .next s1
  | t :: _ =>
    let key := ((s.coreOf t).die, s.gateLid t.coh.team.lid)
    .next { s1 with eng := { s1.eng with errs := tmod s1.eng.errs key fun q => { q with records := q.records.drop ts.length } } }

/-! ### Spill and fill -/

/-- What a spill or fill asks for: a frame's 64 bytes, each access as a load or store would be judged (R152). -/
def frameAsk (write : Bool) : Asked :=
  { align := 64, size := 64, kind := if write then .write else .read, allow := flatKind, reads := !write, near := nearL1 }

/-- The frame a WSAVE stores (R152). -/
def Thread.oldestFrame (th : Thread) : Nat := (th.wb + th.frames - th.wres) % th.frames

/-- The frame a WRSTR loads (R152). -/
def Thread.spilledFrame (th : Thread) : Nat := (th.wb + 2 * th.frames - th.wres - 1) % th.frames

/-- WSAVE (R152). -/
def execWsave (gd : Guard) (s : State) : Outcome State Fault Refusal :=
  .next (flatGroup gd (frameAsk true)
    (fun t => let th := s.thread t; if th.wres = 0 then .error (illegal .window) else .ok (th.spa.setWidth 64)) goOn skipPlain
    (fun _ t va pa r st =>
      let th := s.thread t
      let st1 := (List.range 16).foldl (fun st i =>
        st.send t (va + 4 * i) (pa + 4 * i) 4 (.store (leBytes 4 (th.entryAt (16 * th.oldestFrame + i)).toNat) true) r none []) st
      st1.modThread t fun th => { th with spa := th.spa + 64#57, wres := th.wres - 1 }) s)

/-- A thread that waits inside its slot for the words of its frame (R152). -/
def awaitFrame (th : Thread) : Act :=
  match th.wait with
  | some w => .pend w
  | none => .next

/-- The sixteen words of a frame: their offsets and sizes (R152). -/
def framePieces : List (Nat × Nat) := (List.range 16).map fun i => (4 * i, 4)

/-- WRSTR (R152): the thread waits in its slot until the sixteen words have come; its entries, SPA and WRES change then, so that a trap
on any of them leaves all unchanged. -/
def execWrstr (gd : Guard) (s : State) : Outcome State Fault Refusal :=
  .next (flatGroup gd (frameAsk false)
    (fun t =>
      let th := s.thread t
      if th.wres = th.frames - 2 ∨ th.wdep = th.wres then .error (illegal .window) else .ok ((th.spa - 64#57).setWidth 64))
    awaitFrame skipPlain
    (fun _ t va pa r st =>
      let (id, st1) := st.fresh
      sendPieces id .q128 .load (cachedKind r.kind) [] t va pa r framePieces (st1.modThread t fun th => { th with wait := some (.frame id) })) s)

/-! ### Breakpoints, the clock, unassigned opcodes -/

/-- Collective test mode and debug armed for the queue of a thread's launch (R552). -/
def State.modeOf (s : State) (t : Tid) : Bool × Bool :=
  ((s.launch t).bind fun l => tget s.cp.modes l.desc.queue).getD (false, false)

/-- BKPT (R153): nothing, unless the host has armed debug for the launch; then the executing threads halt. -/
def execBkpt (gd : Guard) (imm : Word) (s : State) : Outcome State Fault Refusal :=
  let armed (t : Tid) : Bool := (s.modeOf t).2
  let told := ((s.execs gd).filter armed).map fun t => HostReport.debug t s.issuePc imm
  let s1 := { s with cp := { s.cp with reports := s.cp.reports ++ told } }
  .next (runGroup gd (fun t th => .ok (th, if armed t then .sleep .debug else .next)) skipPlain s1)

/-- RDTIME (R155). -/
def execRdtime (gd : Guard) (d : Dest) (s : State) : Outcome State Fault Refusal :=
  .next (result gd d 2 (fun _ => .ok { words := [loWord s.ptc, hiWord s.ptc] }) s)

/-- A word whose opcode is not assigned (R68, R120): the illegal-instruction trap, cause opcode, in every thread. -/
def execUnassignedOpcode (_w : IWord) (s : State) : Outcome State Fault Refusal := .next (trapGroup (illegal .opcode) s)

end Sys2Proof.Machine
end

