-- ==== Sys2Proof/Machine/Await.lean ====
section
/-!
DEFINITION. What the words at a thread's PC name (R43, R57, R209) and what a thread waits for before it may issue them (R25, R183, R353).
-/

namespace Sys2Proof.Machine

/-! ### What an instruction names -/

/-- The instruction of a word, where it is one (R57). -/
def instrOf (w : IWord) : Option Instr :=
  match decode w with
  | .ok i => some i
  | .error _ => none

/-- What the instruction of a word names. -/
def viewAt (w : IWord) : Option View := (instrOf w).bind viewOf

/-- Whether a slot with code pair and its next break R43. DESIGN CHOICE (log entry 26): where one of the two words is no instruction,
what it names is not judged; the first then executes, and the illegal one traps with its own cause. -/
def pairClash (bs : List Byte) (n : Nat) : Bool :=
  let w := slotWord bs n
  let w' := slotWord bs (n + 1)
  let op := (unpack w).op
  decide (n = 4) || decide (2 ≤ lineTpl bs (n + 1)) || decide (0x70 ≤ op ∧ op ≤ 0x7F) ||
    (match viewAt w, viewAt w' with
     | some a, some b => a.clash b
     | _, _ => false)

/-- Whether a word is EXIT, which may not come first in a pair (R225, R230). -/
def exitWord (w : IWord) : Bool := decide ((unpack w).op = 0xB9)

/-- Whether a slot with code pair fails for its pair. -/
def pairBad (bs : List Byte) (n : Nat) : Bool := pairClash bs n || exitWord (slotWord bs n)

/-- Whether a launch lacks a resource that an instruction names (R209, R330, R349, R392). -/
def LaunchRec.lacks (l : LaunchRec) (u : Use) : Bool :=
  match u with
  | .gate n => decide (n = 0 ∨ l.gates < n)
  | .bar b =>
    (match b.lev with
     | .cohort => decide (l.obar ≤ b.num.val)
     | .team => decide (l.tbar ≤ b.num.val)
     | .cluster => decide (l.cbar ≤ b.num.val))
  | .tile n => decide (l.acc ≤ n)
  | .slot n => decide (l.gsl ≤ n.val)

/-- Whether an instruction names a resource that its launch does not declare. -/
def resourceBad (s : State) (t : Tid) (i : Instr) : Bool :=
  match viewOf i, s.launch t with
  | some v, some l => v.allUses.any l.desc.lacks
  | _, _ => false

/-! ### What a thread waits for -/

/-- Whether an outstanding write of a list has a cell to fill. -/
def pending (c : RegCell) (ps : List Pend) : Bool := ps.any fun p => p.cells.contains c

/-- Whether a write of a thread to a register is outstanding (R25); a completion token's claim is one (R353). -/
def State.awaits (s : State) (t : Tid) (r : Reg) : Bool :=
  match r with
  | .s n => pending (.s n) (s.cohort t.coh).pends || (s.cohort t.coh).claims.any fun c => c.reg = n
  | .g _ | .w _ | .k _ => match cellOf (s.thread t) r with | some c => pending c (s.thread t).pends | none => false

/-- Whether a thread's latch has captured a write that is outstanding (R56). -/
def State.latchAwaits (s : State) (t : Tid) (n : Fin 4) : Bool :=
  match (s.thread t).latches[n] with
  | .pend _ _ | .token _ _ => true
  | .invalid | .valid _ => false

/-- The class of the commands of an engine opcode (R343). -/
def engClassOf (op : Nat) : EngClass :=
  if op ≤ 0xC1 ∨ op = 0xC4 then .cpe else if op ≤ 0xCA then .pme else if op = 0xCB then .sel else if op ≤ 0xCD then .bke
  else if op = 0xCE then .wlk else .cle

/-- Whether a source waits, through its permute pattern (R25, R196). -/
def State.sourceWaits (s : State) (t : Tid) (x : Src × Nat) : Bool :=
  match x.1 with
  | .reg r p => (r.span x.2).any (s.awaits (permTid p t))
  | .latch n p => s.latchAwaits (permTid p t) n

/-- Whether a destination waits for a token's claim on it (R353): a register of dst for any, the register of another token for
one of another class, since those of one class are reported in order (R351). -/
def State.destWaits (s : State) (t : Tid) (v : View) : Bool :=
  let cs := (s.cohort t.coh).claims
  (v.destRegs.any fun r => match r with | .s n => cs.any fun c => c.reg = n | .g _ | .w _ | .k _ => false) ||
  (match v.token with
   | some n => cs.any fun c => decide (c.reg = n) && s.eng.cmds.any fun x => decide (x.exec = c.exec ∧ x.cls ≠ engClassOf v.op)
   | none => false)

/-- What the scoreboard does not show of an instruction's own waits: a fence's (R310, R331), the frame of a spill (R152), the latches of
a trap record (R434), and for one that reads or writes the scratchpad as it issues, the passes that its team's earlier instructions are
served in (R67, R258, R312). -/
def State.orderWaits (s : State) (t : Tid) (i : Instr) : Bool :=
  let th := s.thread t
  match i with
  | .fence _ scope bk acq rel =>
    (acq && !th.syncReads.isEmpty) ||
    (bk && ((s.mem.maints.any fun m => m.tid = t) || s.mem.writeBacks.any fun w => w.tid = t)) ||
    (rel && (acq || bk) && !(s.fencedBefore t scope).isEmpty)
  | .wsave _ => (List.range 16).any fun k => pending (.stk (16 * th.oldestFrame + k)) th.pends
  | .enq _ _ _ | .deq _ _ _ | .tseal _ _ _ _ _ => s.mem.passes.any fun p => p.tid.coh.team = t.coh.team
  | .rdsys _ _ (.trw n) =>
    (match th.record with
     | some k =>
       decide (9 ≤ n.val ∧ n.val ≤ 12) &&
         (match k.latches[(n.val - 9) % 4]'(Nat.mod_lt _ (by decide)) with
          | .pend _ _ | .token _ _ => true
          | .invalid | .valid _ => false)
     | none => false)
  | _ => false

/-- Whether a thread must wait before an instruction (R183). -/
def State.mustWait (s : State) (t : Tid) (i : Instr) : Bool :=
  (match viewOf i with
   | some v => v.srcs.any (s.sourceWaits t) || s.destWaits t v
   | none => false) || s.orderWaits t i

/-- Whether a thread is Ready for the instructions of an issue (R183); a guard-false thread reads nothing and waits for nothing
(R55, R321, R419). -/
def State.readyFor (s : State) (is : List Instr) (t : Tid) : Bool :=
  decide ((s.thread t).wait = none) && is.all fun i => !(s.executes t i && s.mustWait t i)

/-- The line of a thread's PC as a choice of group sees it: none where its fetch meets a trap or a fault. -/
def State.peekLine (s : State) (t : Tid) (pc : Pc) : Option (List Byte) :=
  match (fetchLine false s t pc).1 with
  | .line bs => some bs
  | .mismatch | .busy | .trap _ | .fault _ _ => none

/-- The instructions that issue together at a slot: its own, and its pair's second (R40). -/
def issuing (bs : List Byte) (n : Nat) : List Instr :=
  (instrOf (slotWord bs n)).toList ++
    (if lineTpl bs n = 2 ∧ pairBad bs n = false then (instrOf (slotWord bs (n + 1))).toList else [])

/-- The instructions at a thread's PC, which its readiness is judged by. -/
def State.ahead (s : State) (t : Tid) (pc : Pc) : List Instr :=
  match s.peekLine t pc with
  | some bs => issuing bs (slotOf pc)
  | none => []

end Sys2Proof.Machine
end

