-- ==== Sys2Proof/Machine/Atomics.lean ====
section
/-!
DEFINITION. The atomic group (opcodes 0xA0 to 0xAB, R337 to R340): each executing thread sends one indivisible step to the home
of its location, lower lanes first.
-/

namespace Sys2Proof.Machine

open Host (Outcome)

/-- An atomic's request (R337, R468): it reads and writes, and counts as a write for its page. -/
def atomAsk (size : Nat) : Asked := { align := size, size := size, kind := .write, allow := flatKind, reads := true }

/-- The synchronising writes of a thread wait for what its FENCE.rel holds them for (R310). -/
def State.heldFor (s : State) (t : Tid) : List Nat :=
  (s.thread t).fence.filter s.unperformed

/-- An atomic with its operation and operand for each thread; dest is none for a reduction (R340). -/
def atomGroup (gd : Guard) (dest : Option Dest) (a : Src) (off : BitVec 24) (size : Nat) (f : Tid → Except Trap (AtomOp × Nat))
    (s : State) : State :=
  let addr (t : Tid) : Except Trap DWord := do
    let p ← flatAddr s t a off
    let _ ← f t
    .ok p
  let skip := match dest with
    | some d => skipCapture s d
    | none => skipPlain
  flatGroup gd (atomAsk size) addr goOn skip (fun lead t va pa r st =>
    match f t with
    | .error _ => st
    | .ok (op, v) =>
      let after := st.heldFor t ++ st.lowerLanes s.nextId pa
      let st0 := st.closeTeam t
      match dest with
      | none => st0.send t va pa size (.atomic op v) r none after
      | some d =>
        let (id, st1) := st0.expect t (resultCells (st0.thread t) d (size / 4) lead) d.reg.isS
        let st2 := st1.modThread t fun th => { setLatch th d.rl (.pend id 0) with syncReads := id :: th.syncReads }
        st2.send t va pa size (.atomic op v) r (some { pend := id, ext := if size = 8 then .d64 else .w32 }) after) s

/-- The operand of an atomic at its size. -/
def atomValue (s : State) (b : Src) (sz : AtSize) (op : AtomOp) (t : Tid) : Except Trap (AtomOp × Nat) := do
  let v ← readNat s t b sz.regs
  .ok (op, v)

/-- AADD (R338). -/
def execAadd (gd : Guard) (d : Dest) (a : Src) (b : Src) (off : BitVec 24) (sz : AtSize) (s : State) : Outcome State Fault Refusal :=
  .next (atomGroup gd (some d) a off sz.bytes (atomValue s b sz .add) s)

/-- AMIN (R338). -/
def execAmin (gd : Guard) (d : Dest) (a : Src) (b : Src) (off : BitVec 24) (sg : Bool) (sz : AtSize) (s : State) :
    Outcome State Fault Refusal :=
  .next (atomGroup gd (some d) a off sz.bytes (atomValue s b sz (.min sg)) s)

/-- AMAX (R338). -/
def execAmax (gd : Guard) (d : Dest) (a : Src) (b : Src) (off : BitVec 24) (sg : Bool) (sz : AtSize) (s : State) :
    Outcome State Fault Refusal :=
  .next (atomGroup gd (some d) a off sz.bytes (atomValue s b sz (.max sg)) s)

/-- ALOG (R338). -/
def execAlog (gd : Guard) (d : Dest) (a : Src) (b : Src) (off : BitVec 24) (op : LogOp) (sz : AtSize) (s : State) :
    Outcome State Fault Refusal :=
  .next (atomGroup gd (some d) a off sz.bytes (atomValue s b sz (.logic op)) s)

/-- AXCH (R338). -/
def execAxch (gd : Guard) (d : Dest) (a : Src) (b : Src) (off : BitVec 24) (sz : AtSize) (s : State) : Outcome State Fault Refusal :=
  .next (atomGroup gd (some d) a off sz.bytes (atomValue s b sz .xch) s)

/-- ACAS (R338): the compare value in the lower half of its position, the new value in the upper. -/
def execAcas (gd : Guard) (d : Dest) (a : Src) (b : Src) (off : BitVec 24) (sz : AtSize) (s : State) : Outcome State Fault Refusal :=
  .next (atomGroup gd (some d) a off sz.bytes (fun t => do
    let v ← readNat s t b (2 * sz.regs)
    let m := 2 ^ (8 * sz.bytes)
    .ok (.cas (v / m), v % m)) s)

/-- The operand of a floating atomic: 4 bytes. -/
def atomWord (s : State) (b : Src) (op : AtomOp) (t : Tid) : Except Trap (AtomOp × Nat) := do
  let v ← readSrc s t b
  .ok (op, v.toNat)

/-- AFADD (R338, R339). -/
def execAfadd (gd : Guard) (d : Dest) (a : Src) (b : Src) (off : BitVec 24) (ft : AtFmt) (s : State) : Outcome State Fault Refusal :=
  .next (atomGroup gd (some d) a off 4 (atomWord s b (.fadd ft)) s)

/-- AINC (R338). -/
def execAinc (gd : Guard) (d : Dest) (a : Src) (b : Src) (off : BitVec 24) (s : State) : Outcome State Fault Refusal :=
  .next (atomGroup gd (some d) a off 4 (atomWord s b .inc) s)

/-- ADEC (R338). -/
def execAdec (gd : Guard) (d : Dest) (a : Src) (b : Src) (off : BitVec 24) (s : State) : Outcome State Fault Refusal :=
  .next (atomGroup gd (some d) a off 4 (atomWord s b .dec) s)

/-- The operation of REDI (R337). -/
def redOp (op : RedOp) (sg : Bool) : AtomOp :=
  match op with
  | .add => .add
  | .min => .min sg
  | .max => .max sg

/-- REDI (R338). -/
def execRedi (gd : Guard) (a : Src) (b : Src) (off : BitVec 24) (op : RedOp) (sg : Bool) (sz : AtSize) (s : State) :
    Outcome State Fault Refusal :=
  .next (atomGroup gd none a off sz.bytes (atomValue s b sz (redOp op sg)) s)

/-- REDF (R338, R339). -/
def execRedf (gd : Guard) (a : Src) (b : Src) (off : BitVec 24) (ft : AtFmt) (s : State) : Outcome State Fault Refusal :=
  .next (atomGroup gd none a off 4 (atomWord s b (.fadd ft)) s)

/-- REDLOG (R338). -/
def execRedlog (gd : Guard) (a : Src) (b : Src) (off : BitVec 24) (op : LogOp) (sz : AtSize) (s : State) : Outcome State Fault Refusal :=
  .next (atomGroup gd none a off sz.bytes (atomValue s b sz (.logic op)) s)

end Sys2Proof.Machine
end

