-- ==== Sys2Proof/Machine/Compare.lean ====
section
/-!
DEFINITION. The compare and predicate group (opcodes 0x30 to 0x3B, R134 to R139): relations, the accumulate modes, and one
meaning for each instruction.
-/

namespace Sys2Proof.Machine

open Host (Outcome)

/-! ### Relations -/

/-- A relation over an ordering (R134). -/
def relHolds (r : Rel) (o : Ordering) : Bool :=
  match r with
  | .eq => o == .eq
  | .ne => o != .eq
  | .lt => o == .lt
  | .le => o != .gt
  | .gt => o == .gt
  | .ge => o != .lt

/-- A relation over two integers. -/
def relInt (r : Rel) (x y : Int) : Bool := relHolds r (compare x y)

/-- A relation over two floating values; an unordered pair satisfies .ne alone (R137). -/
def relFloat (r : Rel) (x y : XVal) : Bool :=
  match cmpX x y with
  | some o => relHolds r o
  | none => decide (r = .ne)

/-- The odd member of the pair after a mode (R135): v is what mode 00 would write there for a packed compare, and what the
other modes combine; plain is what mode 00 writes. -/
def modeBit (m : CmpMode) (old v plain : Bool) : Bool :=
  match m with
  | .plain => plain
  | .and => old && v
  | .or => old || v
  | .xor => old != v

/-- The pair a scalar compare writes (R135). -/
def pairOfBit (pp : Fin 4) (m : CmpMode) (th : Thread) (r : Bool) : List (Fin 8 × Bool) :=
  [(evenPred pp, r), (oddPred pp, modeBit m (th.reads (oddPred pp)) r (!r))]

/-- The pair a packed compare writes (R135). -/
def pairOfBits (pp : Fin 4) (m : CmpMode) (th : Thread) (e0 e1 : Bool) : List (Fin 8 × Bool) :=
  [(evenPred pp, e0), (oddPred pp, modeBit m (th.reads (oddPred pp)) e1 e1)]

/-- A scalar compare over a computed bit. -/
def compareBit (gd : Guard) (pp : Fin 4) (m : CmpMode) (f : Tid → Except Trap Bool) (s : State) :
    Outcome State Fault Refusal :=
  .next (predResult gd (fun t th => do
    let r ← f t
    .ok (pairOfBit pp m th r)) s)

/-- A packed compare of a 16-bit format. -/
def comparePacked (gd : Guard) (pp : Fin 4) (m : CmpMode) (a b : Src) (rel : Rel) (fmt : Fmt) (s : State) :
    Outcome State Fault Refusal :=
  .next (predResult gd (fun t th => do
    let x ← readSrc s t a
    let y ← readSrc s t b
    let e (k : Nat) := relFloat rel (readFlushed (iflOf s t) fmt (elemOf fmt x.toNat k))
      (readFlushed (iflOf s t) fmt (elemOf fmt y.toNat k))
    .ok (pairOfBits pp m th (e 0) (e 1))) s)

/-! ### Classes -/

/-- The format a class test reads (R138). -/
def fmtOfClass : ClassFmt → Fmt
  | .f32 => .f32
  | .f16 => .f16
  | .bf16 => .bf16

/-- The class of an encoding (R138): 0 to 8. -/
def classOf (f : Fmt) (v : Nat) : Nat :=
  let neg := decide (signBit f ≤ v % 2 ^ f.bits)
  match decodeFloat f v with
  | .nan => 8
  | .inf s => if s then 0 else 7
  | .fin _ n _ =>
    if n = 0 then (if neg then 3 else 4)
    else if v / 2 ^ fracBits f % 2 ^ expBits f = 0 then (if neg then 2 else 5)
    else (if neg then 1 else 6)

/-! ### Meanings -/

/-- ICMP.s (R136). -/
def execIcmpS (gd : Guard) (pp : Fin 4) (a : Src) (b : SrcB) (rel : Rel) (mode : CmpMode) (s : State) :
    Outcome State Fault Refusal :=
  compareBit gd pp mode (fun t => do
    let x ← readSrc s t a
    let y ← readB s t b
    .ok (relInt rel x.toInt y.toInt)) s

/-- ICMP.n (R136). -/
def execIcmpN (gd : Guard) (pp : Fin 4) (a : Src) (b : SrcB) (rel : Rel) (mode : CmpMode) (s : State) :
    Outcome State Fault Refusal :=
  compareBit gd pp mode (fun t => do
    let x ← readSrc s t a
    let y ← readB s t b
    .ok (relInt rel x.toNat y.toNat)) s

/-- ICMP.w (R136). -/
def execIcmpW (gd : Guard) (pp : Fin 4) (a b : Src) (sg : Bool) (rel : Rel) (mode : CmpMode) (s : State) :
    Outcome State Fault Refusal :=
  compareBit gd pp mode (fun t => do
    let x ← readPair s t a
    let y ← readPair s t b
    .ok (if sg then relInt rel x.toInt y.toInt else relInt rel x.toNat y.toNat)) s

/-- FCMP (R136, R137). -/
def execFcmp (gd : Guard) (pp : Fin 4) (a b : Src) (rel : Rel) (mode : CmpMode) (s : State) :
    Outcome State Fault Refusal :=
  compareBit gd pp mode (fun t => do
    let x ← readSrc s t a
    let y ← readSrc s t b
    .ok (relFloat rel (readFlushed (iflOf s t) .f32 x.toNat) (readFlushed (iflOf s t) .f32 y.toNat))) s

/-- FCMP.h2 (R135, R137). -/
def execFcmpH2 (gd : Guard) (pp : Fin 4) (a b : Src) (rel : Rel) (mode : CmpMode) (s : State) :
    Outcome State Fault Refusal :=
  comparePacked gd pp mode a b rel .f16 s

/-- FCMP.bf2 (R135, R137). -/
def execFcmpBf2 (gd : Guard) (pp : Fin 4) (a b : Src) (rel : Rel) (mode : CmpMode) (s : State) :
    Outcome State Fault Refusal :=
  comparePacked gd pp mode a b rel .bf16 s

/-- FCLASS (R138): the raw bits, whatever the flush controls. -/
def execFclass (gd : Guard) (pp : Fin 4) (a : Src) (fmt : ClassFmt) (cmask : BitVec 9) (mode : CmpMode) (s : State) :
    Outcome State Fault Refusal :=
  compareBit gd pp mode (fun t => do
    let x ← readSrc s t a
    .ok (cmask.getLsbD (classOf (fmtOfClass fmt) (elemOf (fmtOfClass fmt) x.toNat 0)))) s

/-- BTEST (R136). -/
def execBtest (gd : Guard) (pp : Fin 4) (a : Src) (b : SrcB) (allBits : Bool) (mode : CmpMode) (s : State) :
    Outcome State Fault Refusal :=
  compareBit gd pp mode (fun t => do
    let x ← readSrc s t a
    let y ← readB s t b
    .ok (if allBits then x &&& y == y else x &&& y != 0#32)) s

/-- RCHK (R136). -/
def execRchk (gd : Guard) (pp : Fin 4) (a : Src) (b : SrcB) (c : Src) (sg : Bool) (mode : CmpMode) (s : State) :
    Outcome State Fault Refusal :=
  compareBit gd pp mode (fun t => do
    let x ← readSrc s t a
    let y ← readB s t b
    let z ← readSrc s t c
    .ok (if sg then decide (y.toInt ≤ x.toInt) && decide (x.toInt < z.toInt)
      else decide (y.toNat ≤ x.toNat) && decide (x.toNat < z.toNat))) s

/-- PMIX (R139). -/
def execPmix (gd : Guard) (pd : Fin 8) (lut : BitVec 8) (x y z : Fin 8) (s : State) : Outcome State Fault Refusal :=
  .next (predResult gd (fun _ th =>
    .ok [(pd, lut.getLsbD (4 * (th.reads x).toNat + 2 * (th.reads y).toNat + (th.reads z).toNat))]) s)

/-- PPACK (R139). -/
def execPpack (gd : Guard) (d : Dest) (s : State) : Outcome State Fault Refusal :=
  .next (result gd d 1 (fun t => .ok { words := [(s.thread t).seen.setWidth 32] }) s)

/-- PSPRD (R139). -/
def execPsprd (gd : Guard) (a : Src) (mask : BitVec 8) (s : State) : Outcome State Fault Refusal :=
  .next (predResult gd (fun t _ => do
    let x ← readSrc s t a
    .ok ((maskPreds mask).map fun k => (k, x.getLsbD k.val))) s)

end Sys2Proof.Machine
end

