-- ==== Sys2Proof/Machine/EngineOps.lean ====
section
/-!
DEFINITION. Engine commands: handles and their faults (R360 to R363, R394), sealing records (R396 to R401), guard slots (R355,
R356), issuing a command and room for it (R345, R346), and ending and reporting one (R350 to R354, R366).
-/

namespace Sys2Proof.Machine

/-! ### Handles -/

/-- Handle fault (R431): reason, operand position and member of a pair in INFO2. -/
def handleFault (h : Word) (reason pos : Nat) (odd : Bool) : Trap :=
  { cls := 4, info0 := h, info2 := BitVec.ofNat 32 (reason + 16 * pos + (if odd then 64 else 0)) }

/-- Code of a record kind (R361). -/
def kindCode : RecKind → Nat
  | .tensor => 0
  | .scale => 1
  | .walk => 2
  | .bank => 3
  | .coll => 4

/-- The kind a record was sealed with. -/
def sealedKind : SealedRec → RecKind
  | .tensor _ => .tensor
  | .scale _ => .scale
  | .walk _ => .walk
  | .bank _ => .bank
  | .coll _ => .coll

/-- A handle (R361). -/
def handleWord (gen : BitVec 16) (k : RecKind) (idx : Nat) : Word :=
  BitVec.ofNat 32 (gen.toNat * 65536 + kindCode k * 4096 + idx)

/-- The entry a handle names, under reasons 1 to 4 (R362). -/
def openEntry (m : Team) (h : Word) (pos : Nat) (odd : Bool) : Except Trap SealedRec :=
  let v := h.toNat
  if v / 64 % 64 ≠ 0 ∨ 5 ≤ v / 4096 % 16 then .error (handleFault h 1 pos odd)
  else
    match m.handles[v % 64]? with
    | none => .error (handleFault h 2 pos odd)
    | some e =>
      match e.record with
      | none => .error (handleFault h 3 pos odd)
      | some r => if e.gen.toNat = v / 65536 then .ok r else .error (handleFault h 4 pos odd)

/-- A handle operand: its value, position, member of a pair, and the kind its position accepts. -/
structure HandleOp where
  word : Word
  pos : Nat
  odd : Bool
  kind : RecKind
  deriving DecidableEq, Repr

/-- A handle operand under reasons 1 to 5 (R362). -/
def openHandle (m : Team) (o : HandleOp) : Except Trap SealedRec := do
  let r ← openEntry m o.word o.pos o.odd
  if sealedKind r = o.kind ∧ o.word.toNat / 4096 % 16 = kindCode o.kind then .ok r
  else .error (handleFault o.word 5 o.pos o.odd)

/-- The tensor or scale-tile record of an opened handle. -/
def tensorOf : SealedRec → TensorRec
  | .tensor t | .scale t => t
  | .walk _ | .bank _ | .coll _ => { base := 0, rows := 0, cols := 0, rstr := 0, lay := 0, planes := 0, elem := .n8 }

/-- Handle operands opened in order, each with its record (R362). -/
def openTensors (m : Team) : List HandleOp → Except Trap (List (HandleOp × TensorRec))
  | [] => .ok []
  | o :: rest => do
    let r ← openHandle m o
    let rs ← openTensors m rest
    .ok ((o, tensorOf r) :: rs)

/-- Reason 8 for the operand where a condition fails (R394). -/
def needs (o : HandleOp) (ok : Bool) : Except Trap Unit := if ok then .ok () else .error (handleFault o.word 8 o.pos o.odd)

/-- Bits of an element as a tensor packs it: 2 for a weight of lc2 (R398). -/
def packBits (f : Fmt) : Nat := if f = .lc2 then 2 else f.bits

/-- Row bytes of an element-form tensor (R398). -/
def TensorRec.rowBytes (t : TensorRec) : Nat := t.cols * packBits t.elem / 8

/-- Slabs of a plane-form operand. -/
def TensorRec.slabs (t : TensorRec) : Nat := t.cols / 512

/-- Whether a record is of an element-form tensor. -/
def TensorRec.isElem (t : TensorRec) : Bool := decide (t.lay ≤ 1)

/-- Whether an element-form tensor is contiguous (R403). -/
def TensorRec.contiguous (t : TensorRec) : Bool := t.isElem && decide (t.rows = 1 ∨ t.rstr = t.rowBytes)

/-- Bytes of a contiguous tensor. -/
def TensorRec.bytes (t : TensorRec) : Nat := t.rows * t.rowBytes

/-! ### Sealing -/

/-- n bytes of a record as a number. -/
def field (bs : List Byte) (o n : Nat) : Nat := leNat ((bs.drop o).take n)

/-- Whether bytes of a record are all zero. -/
def zeros (bs : List Byte) (o n : Nat) : Bool := decide (field bs o n = 0)

/-- The format that a code names (R69). -/
def fmtOfCode (n : Nat) : Fmt :=
  [.n8, .n16, .n32, .n64, .s8, .s16, .s32, .s64, .f32, .f16, .bf16, .e4m3, .e5m2, .e2m1, .e8m0, .lc2].getD n .n8

/-- The first failing status code of R401 in a list of code and whether it fails. -/
def firstFail (l : List (Nat × Bool)) : Option Nat := (l.find? fun p => p.2).map fun p => p.1

/-- A tensor or scale-tile record checked and read (R397, R398). -/
def readTensor (kind : RecKind) (bs : List Byte) (scr : Nat) (fmts : Vector FormatSlot 8) : Except Nat TensorRec :=
  let fs := field bs 0x16 1
  let slot := fmts[fs % 8]'(Nat.mod_lt _ (by decide))
  let t : TensorRec := { base := field bs 0 8, rows := field bs 8 4, cols := field bs 0xC 4, rstr := field bs 0x10 4,
                         lay := field bs 0x14 1 % 4, planes := field bs 0x15 1, elem := slot.elem }
  let shape := decide (t.rows = 16 ∨ t.rows = 64) && decide (t.cols % 512 = 0)
  let limits :=
    match t.lay with
    | 3 => shape && decide (t.rstr = 0 ∧ t.planes = 0 ∧ fs = 0)
    | 2 => shape && decide (2 ≤ t.planes ∧ t.planes ≤ 16 ∧ t.rstr = 0 ∧ fs = 0)
    | _ =>
      decide (t.cols * packBits t.elem % 32 = 0) && decide (t.rows ≤ 1 ∨ t.rowBytes ≤ t.rstr) && decide (t.planes = 0)
  let sizes := decide (1 ≤ t.rows ∧ t.rows ≤ 65535 ∧ 1 ≤ t.cols ∧ t.cols ≤ 16777215)
  let aligned := if 2 ≤ t.lay then decide (t.base % 128 = 0) else decide (t.base % 16 = 0 ∧ t.rstr % 16 = 0)
  let extent :=
    match t.lay with
    | 3 => 16 * t.rows * t.slabs
    | 2 => 64 * t.rows * t.planes * t.slabs
    | _ => (t.rows - 1) * t.rstr + t.rowBytes
  let room := if t.lay = 0 then decide (t.base + extent ≤ 2 ^ 57) else decide (t.base + extent ≤ scr)
  match firstFail
    [(2, !zeros bs 0x17 41 || decide (field bs 0x14 1 / 4 ≠ 0) || decide (fs / 8 ≠ 0) || decide ((t.lay = 3) ≠ (kind = .scale))),
     (3, !sizes || !limits), (4, !aligned), (5, !room), (6, decide (t.lay ≤ 1) && !slot.valid)] with
  | some n => .error n
  | none => .ok t

/-- A walk descriptor checked and read (R399). -/
def readWalk (bs : List Byte) : Except Nat WalkRec :=
  let w : WalkRec := { nb := field bs 0 8, nab := field bs 8 8, rs := field bs 0x10 2, doff := field bs 0x12 2,
                       noff := field bs 0x14 2, steps := field bs 0x16 2 }
  match firstFail
    [(2, !zeros bs 0x18 40),
     (3, decide (w.rs < 8 ∨ 256 < w.rs ∨ w.rs < w.doff + 4 ∨ w.rs < w.noff + 4 ∨ w.steps = 0)),
     (4, decide (w.nb % 4 ≠ 0 ∨ w.nab % 4 ≠ 0 ∨ w.rs % 4 ≠ 0 ∨ w.doff % 4 ≠ 0 ∨ w.noff % 4 ≠ 0)),
     (5, decide (2 ^ 57 ≤ w.nb ∨ 2 ^ 57 ≤ w.nab))] with
  | some n => .error n
  | none => .ok w

/-- A bank step word read (R384); none where a field breaks its rule. -/
def readBankStep (w nt : Nat) : Option BankStep :=
  let f8 (lo : Nat) : Fin 8 := Fin.ofNat 8 (w / 2 ^ lo)
  let a := f8 22
  let d := f8 25
  let k := w / 2 ^ 14 % 4
  let fmt := w / 2 ^ 17 % 4
  -- the bits of a word that its operation uses
  let only (mask : Nat) : Bool := decide (w % 2 ^ 28 &&& mask = w % 2 ^ 28)
  match w / 2 ^ 28 with
  | 1 => if only 0x0E00C000 && decide (k < nt) then some (.load d (Fin.ofNat 4 k)) else none
  | 2 => if only 0x0FC7C000 && decide (fmt ≤ 1) then some (.scale d a (decide (fmt = 1)) (f8 14)) else none
  | 3 => if only 0x0FFE0000 && decide (fmt ≤ 1) then some (.add d a (f8 19) (decide (fmt = 1))) else none
  | 4 => if only 0x01C0C000 && decide (k < nt) then some (.store a (Fin.ofNat 4 k)) else none
  | 5 => if only 0 then some .adv else none
  | _ => none

/-- Whether a step makes a column access. -/
def BankStep.accesses : BankStep → Bool
  | .load _ _ | .store _ _ => true
  | .scale .. | .add .. | .adv => false

/-- Whether every row step of a list of steps makes at most a number of accesses per column. -/
def rowStepsOk (most n : Nat) : List BankStep → Bool
  | [] => decide (n ≤ most)
  | .adv :: rest => decide (n ≤ most) && rowStepsOk most 0 rest
  | st :: rest => rowStepsOk most (if st.accesses then n + 1 else n) rest

/-- A bank microprogram checked and read (R384, R400). -/
def readBank (bs : List Byte) : Except Nat BankRec :=
  let ns := field bs 0 2
  let nr := field bs 2 2
  let nc := field bs 4 1
  let nt := field bs 5 1
  let streams := (List.range 4).map fun i => field bs (8 + 4 * i) 4
  let words := (List.range 64).map fun i => field bs (0x40 + 4 * i) 4
  let steps := (words.take ns).map fun w => readBankStep w nt
  let good := steps.all (fun x => x.isSome) && steps.getLast? == some (some BankStep.adv) &&
    rowStepsOk (128 / nc) 0 (steps.filterMap fun x => x) && (words.drop ns).all (fun w => decide (w = 0)) &&
    (streams.drop nt).all fun w => decide (w = 0)
  match firstFail
    [(2, !zeros bs 6 2 || !zeros bs 0x18 8 || streams.any fun w => decide (2 ^ 21 ≤ w)),
     (3, decide (ns < 2 ∨ 64 < ns ∨ nr = 0 ∨ nc = 0 ∨ 32 < nc ∨ nt = 0 ∨ 4 < nt)), (7, !good)] with
  | some n => .error n
  | none =>
    .ok { rows := nr, cols := nc, steps := steps.filterMap fun x => x,
          streams := (streams.take nt).map fun w => (w / 2 ^ 20 % 2, w % 2 ^ 20),
          consts := leWords ((bs.drop 0x20).take 32) }

/-- Set bits of a die mask below a die (R526). -/
def bitsBelow (mask d : Nat) : Nat := ((List.range d).filter fun i => mask / 2 ^ i % 2 = 1).length

/-- Participants of a descriptor (R526). -/
def CollRec.parts (d : CollRec) : Nat := d.mcnt * bitsBelow d.dmask 4

/-- The rank of a module and die; none where it is no participant (R526). -/
def CollRec.rankOf (d : CollRec) (m die : Nat) : Option Nat :=
  if d.mbase ≤ m ∧ m < d.mbase + d.mcnt ∧ d.dmask / 2 ^ die % 2 = 1 then
    some ((m - d.mbase) * bitsBelow d.dmask 4 + bitsBelow d.dmask die)
  else none

/-- A collective descriptor checked and read (R527); test says that the host has enabled test mode for the launch's queue. -/
def readColl (bs : List Byte) (test : Bool) : Except Nat CollRec :=
  let op := field bs 0x17 1
  let rop := field bs 0x19 1
  let ety := field bs 0x18 1
  let inje := field bs 0x2C 1
  let inj : Injection := { chunk := field bs 0x20 4, step := field bs 0x24 2, word := field bs 0x26 2,
                           mask := BitVec.ofNat 32 (field bs 0x28 4) }
  let d : CollRec :=
    { buf := field bs 0 8, cid := field bs 8 4, nch := field bs 0xC 4, dt := field bs 0x10 4, mbase := field bs 0x14 1,
      mcnt := field bs 0x15 1 + 1, dmask := field bs 0x16 1,
      op := match op % 4 with | 0 => .allReduce | 1 => .reduceScatter | 2 => .allGather | _ => .broadcast,
      elem := fmtOfCode (ety % 16), rop := match rop % 4 with | 0 => .add | 1 => .min | _ => .max,
      root := field bs 0x1A 2, inject := if inje % 2 = 1 then some inj else none }
  let p := d.parts
  let injBad := decide (inje % 2 = 1) &&
    (!test || decide (inj.mask = 0#32) || decide (1023 < inj.word) || decide (p * d.nch ≤ inj.chunk))
  match firstFail
    [(2, decide (op / 4 ≠ 0 ∨ rop / 4 ≠ 0 ∨ d.dmask / 16 ≠ 0 ∨ inje / 2 ≠ 0) || !zeros bs 0x1C 4 || !zeros bs 0x2D 19),
     (3, !([2, 6, 8, 9, 10].contains ety) || decide (rop % 4 = 3 ∨ d.cid = 0 ∨ d.nch = 0 ∨ 65535 < d.nch) ||
        decide (256 < d.mbase + d.mcnt ∨ d.dmask = 0 ∨ p < 2 ∨ 1024 < p) ||
        (if d.op = .broadcast then decide (p ≤ d.root) else decide (d.root ≠ 0)) || injBad),
     (4, decide (d.buf % 4096 ≠ 0)), (5, decide (2 ^ 57 < d.buf + p * d.nch * 4096))] with
  | some n => .error n
  | none => .ok d

/-- Bytes of a record of a kind (R396, R527). -/
def recordBytes : RecKind → Nat
  | .bank => 320
  | .tensor | .scale | .walk | .coll => 64

/-- A record of a kind checked for a thread's launch (R396, R401). -/
def readRecord (s : State) (t : Tid) (kind : RecKind) (bs : List Byte) : Except Nat SealedRec :=
  match kind, s.launch t with
  | .tensor, some l => (readTensor kind bs l.desc.scr l.desc.fmts).map SealedRec.tensor
  | .scale, some l => (readTensor kind bs l.desc.scr l.desc.fmts).map SealedRec.scale
  | .walk, _ => (readWalk bs).map SealedRec.walk
  | .bank, _ => (readBank bs).map SealedRec.bank
  | .coll, _ => (readColl bs (s.modeOf t).1).map SealedRec.coll
  | _, none => .error 1

/-- The lowest invalid entry of a handle table (R361). -/
def Team.freeHandle (m : Team) : Option Nat := m.handles.findIdx? fun h => h.record.isNone

/-- The generation after one: modulo 2^16, skipping 0 (R361). -/
def nextGen (g : BitVec 16) : BitVec 16 := if g = 65535#16 then 1#16 else g + 1#16

/-! ### Guard slots and lists -/

/-- The ST bits of a guard slot (R355). -/
def GuardSt.code : GuardSt → Nat
  | .unset => 0
  | .yes => 1
  | .no => 2

/-- The state of a team's guard slot. -/
def State.guardOf (s : State) (t : TeamId) (n : Fin 16) : GuardSt := ((s.team t).map fun m => m.guards[n]).getD .unset

/-- Whether a command still stands in its team's list of its core (R344). -/
def Command.listed (c : Command) : Bool := decide (c.st = .queued) && !c.forwarded

/-- The head of a team's list of a class (R344). -/
def State.headOf (s : State) (t : TeamId) (cls : EngClass) : Option Command :=
  s.eng.cmds.find? fun c => decide (c.coh.team = t ∧ c.cls = cls) && c.listed

/-- Every class (R343). -/
def allClasses : List EngClass := [.cpe, .pme, .sel, .bke, .wlk, .cle]

/-- Commands of a core's queue of a class (R343). -/
def queueRoom : EngClass → Nat
  | .cpe => 64
  | .pme | .bke | .wlk | .cle => 32
  | .sel => 16

/-- Index of a class (R343). -/
def classIdx : EngClass → Fin 6
  | .cpe => 0
  | .pme => 1
  | .sel => 2
  | .bke => 3
  | .wlk => 4
  | .cle => 5

/-- A class of the core's own engines. -/
def coreClass (cls : EngClass) : Bool := decide (cls = .cpe ∨ cls = .pme ∨ cls = .sel)

/-- Whether a command has a stop point after its start (R364). -/
def CmdOp.stops : CmdOp → Bool
  | .tselk _ _ _ | .accz _ | .accld _ _ | .accst _ _ _ | .accadd _ _ | .accred _ _ _ _ => false
  | .cpy _ _ _ | .cpy2d _ _ _ | .tcvp _ _ _ _ | .tmma _ _ _ _ _ _ _ _ _ | .bankrun _ _ _ _ | .bankst _ _ _ _ | .walk _ _ _ _ | .coll _
  | .cksum _ _ => true

/-- A command taken off every bank engine's queue: an engine that ran it is free. -/
def State.dropFromBanks (s : State) (id : Nat) : State :=
  let drop (e : BankEng) : BankEng :=
    if e.queue.contains id then
      let q := e.queue.filter fun x => x ≠ id
      if e.queue.head? = some id then { BankEng.idle with queue := q, st := if q.isEmpty then .idle else .waiting, quiet := e.quiet }
      else { e with queue := q }
    else e
  { s with eng := { s.eng with banks := s.eng.banks.map fun p => (p.1, drop p.2) } }

/-- A command changed. -/
def State.modCmd (s : State) (id : Nat) (f : Command → Command) : State :=
  { s with eng := { s.eng with cmds := s.eng.cmds.map fun c => if c.id = id then f c else c } }

/-- A command by its number. -/
def State.cmd (s : State) (id : Nat) : Option Command := s.eng.cmds.find? fun c => c.id = id

/-- What a command leaves behind once it has ended: its engine's state of it. -/
def Engines.forget (e : Engines) (id : Nat) : Engines :=
  { e with slabs := terase e.slabs id, walks := terase e.walks id, copied := terase e.copied id, colls := terase e.colls id,
           ghosts := terase e.ghosts id }

/-- A command ends with a status (R351); one of which no report follows is gone (R368, R369). -/
def State.endCmd (s : State) (id stat : Nat) : State :=
  let s1 := { s.modCmd id (fun c => { c with st := .ended stat }) with
    eng := ((s.modCmd id fun c => { c with st := .ended stat }).eng).forget id }
  { s1 with eng := { s1.eng with cmds := s1.eng.cmds.filter fun c => !(decide (c.id = id) && c.mute) } }

/-- A head whose slot is resolved false is discarded (R356). -/
def State.discardHead (s : State) (t : TeamId) (cls : EngClass) : State :=
  match s.headOf t cls with
  | some c =>
    match c.guard with
    | some n => if s.guardOf t n = .no then s.endCmd c.id 1 else s
    | none => s
  | none => s

/-- A count that stays at 2^24 - 1 (R343). -/
def satCount (n : Nat) : Nat := min n (2 ^ 24 - 1)

/-- A count that stays at 0xFFFF_FFFF (R417). -/
def satWord (v : Word) : Word := if v = 0xFFFFFFFF#32 then v else v + 1#32

/-! ### Reports -/

/-- A completion token (R352). -/
def tokenWord (stat count : Nat) : Word := BitVec.ofNat 32 (2 ^ 31 + stat * 2 ^ 24 + satCount count)

/-- One command reported to its cohort (R351, R354): the counter, and the token where it is the last of its execution. -/
def reportOne (c : Command) (stat : Nat) (rest : List Command) (co : Cohort) : Cohort :=
  let k := classIdx c.cls
  let co1 := { co with counters := co.counters.set k (co.counters[k] - 1) }
  match c.token with
  | none => co1
  | some r =>
    let cl := (co1.claims.find? fun x => x.exec = c.exec).getD { reg := r, exec := c.exec, stat := 0, count := 0 }
    let cl' := { cl with stat := max cl.stat stat, count := cl.count + c.count }
    let others := co1.claims.filter fun x => x.exec ≠ c.exec
    if rest.any fun d => d.exec = c.exec then { co1 with claims := others ++ [cl'] }
    else
      Cohort.writeS { co1 with claims := others } [(.s r, tokenWord cl'.stat cl'.count)]

/-- The latches that captured the token register of a report's execution, where the report writes it (R56, R353). -/
def reportLatches (c : Command) (rest : List Command) (s : State) : State :=
  match c.token with
  | none => s
  | some r =>
    if rest.any fun d => d.exec = c.exec then s else s.fillLatches c.coh (tokenCame c.exec (s.cohort c.coh).s[r])

/-- The commands of a cohort and class that may be reported, oldest first, while each has ended (R351) and its writes have performed,
their notifications acknowledged (R302, R307). -/
def reportable (performed : Nat → Bool) : List Command → List (Command × Nat)
  | [] => []
  | c :: rest =>
    match c.st with
    | .ended n => if performed c.id then (c, n) :: reportable performed rest else []
    | .queued | .running => []

/-- The commands of a cohort and class in issue order. -/
def State.cmdsOf (s : State) (co : CohId) (cls : EngClass) : List Command :=
  s.eng.cmds.filter fun c => decide (c.coh = co ∧ c.cls = cls)

/-- Finished commands of a cohort and class reported (R351). -/
def State.reportCmds (s : State) (co : CohId) (cls : EngClass) : State :=
  if (tget s.cohorts co).isNone then s
  else
    (reportable (fun i => !s.unperformed i) (s.cmdsOf co cls)).foldl (fun st x =>
      let s1 := { st with eng := { st.eng.forget x.1.id with cmds := st.eng.cmds.filter fun c => c.id ≠ x.1.id } }
      let rest := s1.cmdsOf co cls
      reportLatches x.1 rest (s1.modCohort co (reportOne x.1 x.2 rest))) s

/-! ### Issuing -/

/-- Whether a command's team stands on its core: those of a team in a save area are in no queue of a core (R368). -/
def State.onCore (s : State) (c : Command) : Bool := (s.team c.coh.team).isSome

/-- Whether a cohort's class queue has room for n commands, and its counter too (R346). -/
def State.engineRoom (s : State) (t : Tid) (cls : EngClass) (n : Nat) : Bool :=
  let core := s.coreOf t
  let used := (s.eng.cmds.filter fun c => decide (c.core = core ∧ c.cls = cls) && c.listed && s.onCore c).length
  decide (used + n ≤ queueRoom cls ∧ (s.cohort t.coh).counters[classIdx cls] + n ≤ 255)

/-- Commands enqueued in lane order with their counter and their token's claim (R346, R353). -/
def State.issueCmds (s : State) (cls : EngClass) (e : ECom) (l : List (Tid × CmdOp × Option DWord)) : State :=
  let (exec, s0) := s.fresh
  let s1 := l.foldl (fun st x =>
    let (id, st1) := st.fresh
    let c : Command :=
      { id := id, coh := x.1.coh, core := st.coreOf x.1, cls := cls, op := x.2.1, exec := exec, token := e.tk, guard := e.gq,
        notBefore := x.2.2, held := (x.2.2.map fun T => decide (st.ptc.toNat < T.toNat)).getD false, forwarded := false,
        st := .queued, step := 0, count := 0, fuse := none, bad := false, cancelled := false, mute := false }
    let st2 := { st1 with eng := { st1.eng with cmds := st1.eng.cmds ++ [c] } }
    st2.modCohort x.1.coh fun co => { co with counters := co.counters.set (classIdx cls) (co.counters[classIdx cls] + 1) }) s0
  match e.tk, l with
  | some r, x :: _ =>
    s1.modCohort x.1.coh fun co => { co with claims := co.claims ++ [{ reg := r, exec := exec, stat := 0, count := 0 }] }
  | _, _ => s1

/-- The not-before time that a thread's operand names (R348). -/
def notBeforeOf (s : State) (t : Tid) (e : ECom) : Except Trap (Option DWord) :=
  match e.nbt with
  | none => .ok none
  | some a => (readPair s t a).map some

/-- The executing threads wait at their instruction; a guard-false thread waits for nothing (R419). -/
def groupWaits (gd : Guard) (why : WaitWhy) (s : State) : State := runGroup gd (fun _ th => .ok (th, .stay (some why))) skipPlain s

/-- An instruction that issues one command per execution (R345, R346, R433); after is what the execution does besides. -/
def engineOnce (gd : Guard) (e : ECom) (cls : EngClass) (mk : Tid → Except Trap CmdOp) (after : Tid → State → State) (s : State) :
    State :=
  match s.execs gd with
  | [] => runGroup gd (fun _ th => .ok (th, .next)) skipPlain s
  | t :: _ =>
    let made : Except Trap (CmdOp × Option DWord) := do
      let op ← mk t
      let nb ← notBeforeOf s t e
      .ok (op, nb)
    match made with
    | .error tr => runGroup gd (fun _ _ => .error tr) skipPlain s
    | .ok x =>
      if s.engineRoom t cls 1 = false then groupWaits gd (.queue cls 1) s
      else runGroup gd (fun _ th => .ok (th, .next)) skipPlain (after t (s.issueCmds cls e [(t, x)]))

/-- What every executing thread makes of its operands in a multi-command execution. -/
def madeAll (mk : Tid → Except Trap (CmdOp × Option DWord)) (ts : List Tid) : List (Tid × CmdOp × Option DWord) :=
  ts.filterMap fun t => match mk t with | .ok x => some (t, x) | .error _ => none

/-- An instruction that issues one command per executing thread (R345, R395): where any thread fails none is issued, and the
threads that passed arrive again. -/
def engineEach (gd : Guard) (e : ECom) (cls : EngClass) (mk : Tid → Except Trap CmdOp) (after : Tid → State → State) (s : State) :
    State :=
  let each (t : Tid) : Except Trap (CmdOp × Option DWord) := do
    let op ← mk t
    let nb ← notBeforeOf s t e
    .ok (op, nb)
  let ts := s.execs gd
  let made := madeAll each ts
  if made.length < ts.length then runGroup gd (fun t th => (each t).map fun _ => (th, .again)) skipPlain s
  else
    match ts with
    | [] => runGroup gd (fun _ th => .ok (th, .next)) skipPlain s
    | t :: _ =>
      if s.engineRoom t cls ts.length = false then groupWaits gd (.queue cls ts.length) s
      else runGroup gd (fun _ th => .ok (th, .next)) skipPlain (ts.foldl (fun st t => after t st) (s.issueCmds cls e made))

end Sys2Proof.Machine
end

