-- ==== Sys2Proof/Machine/Engines.lean ====
section
/-!
DEFINITION. The engine group (opcodes 0xC0 to 0xD5) at issue: what each instruction checks, captures and enqueues (R391 to
R419, R541, R542), and the instructions that act at once on handles, guard slots and counters.
-/

namespace Sys2Proof.Machine

open Host (Outcome)

/-! ### Operands -/

/-- The team an instruction of a thread acts in; the table of a thread without one is empty. -/
def State.handleTeam (s : State) (t : Tid) : Except Trap Team :=
  match s.team t.coh.team with
  | some m => .ok m
  | none => .error (handleFault 0#32 2 0 false)

/-- A handle in a single-register position (R393). -/
def handleAt (s : State) (t : Tid) (a : Src) (pos : Nat) (kind : RecKind) : Except Trap HandleOp := do
  let h ← readSrc s t a
  .ok { word := h, pos := pos, odd := false, kind := kind }

/-- The handles of a pair, the even register first (R393). -/
def handlePair (s : State) (t : Tid) (a : Src) (pos : Nat) (even odd : RecKind) : Except Trap (List HandleOp) := do
  let ws ← readRegs s t a 2
  .ok [{ word := ws.getD 0 0#32, pos := pos, odd := false, kind := even },
       { word := ws.getD 1 0#32, pos := pos, odd := true, kind := odd }]

/-- A format-slot fault, whatever the guards (R360). -/
def slotFault (reason : Nat) (s : State) : Outcome State Fault Refusal := .next (trapGroup (handleFault 0#32 reason 0 false) s)

/-- An instruction with a format slot (R360): reason 6 where the slot is not defined, 7 where it holds what the instruction does
not take; otherwise its meaning on the slot. -/
def withSlot (fs : Fin 8) (takes : FormatSlot → Bool) (go : FormatSlot → State) (s : State) : Outcome State Fault Refusal :=
  match formatSlot s fs with
  | none => .next s
  | some f => if !f.valid then slotFault 6 s else if !takes f then slotFault 7 s else .next (go f)

/-- The slots of TCVP and TMMA (R372). -/
def planeSlot (f : FormatSlot) : Bool := decide (f.block = 1 ∧ f.scale = some true) && (decide (f.elem ≠ .lc2) || decide (f.planes = 4))

/-- The source formats of TCVP (R405). -/
def planeSource (f : Fmt) : Bool :=
  [Fmt.n8, .n16, .n32, .s8, .s16, .s32, .f32, .f16, .bf16, .e4m3, .e5m2, .e2m1, .lc2].contains f

/-- The slots of ACCLD, ACCST and ACCRED (R407). -/
def accSlot (f : FormatSlot) : Bool :=
  decide (f.scale = some false) && [Fmt.f32, .f16, .bf16, .e4m3, .e5m2, .e2m1].contains f.elem

/-! ### Copies and conversion -/

/-- Two element-form tensors of CPY or CPY2D, checked (R403). -/
def copyOperands (s : State) (t : Tid) (a b : Src) (rows : Bool) : Except Trap (TensorRec × TensorRec) := do
  let m ← s.handleTeam t
  let ha ← handleAt s t a 0 .tensor
  let hb ← handleAt s t b 1 .tensor
  let rs ← openTensors m [ha, hb]
  match rs with
  | [(oa, d), (ob, x)] =>
    needs oa (if rows then d.isElem else d.contiguous)
    needs ob (if rows then x.isElem && decide (x.rows = d.rows ∧ x.rowBytes = d.rowBytes)
              else x.contiguous && decide (x.bytes = d.bytes))
    .ok (d, x)
  | _ => .error (handleFault 0#32 8 0 false)

/-- CPY (R403, R404). -/
def execCpy (gd : Guard) (a b : Src) (e : ECom) (bar : Option (Fin 16)) (s : State) : Outcome State Fault Refusal :=
  .next (engineOnce gd e .cpe (fun t => (copyOperands s t a b false).map fun x => .cpy x.1 x.2 bar) (fun _ st => st) s)

/-- CPY2D (R403, R404). -/
def execCpy2d (gd : Guard) (a b : Src) (e : ECom) (bar : Option (Fin 16)) (s : State) : Outcome State Fault Refusal :=
  .next (engineOnce gd e .cpe (fun t => (copyOperands s t a b true).map fun x => .cpy2d x.1 x.2 bar) (fun _ st => st) s)

/-- TCVP's operands, checked (R405). -/
def tcvpOperands (s : State) (t : Tid) (a b : Src) (f : FormatSlot) (sci : Bool) : Except Trap CmdOp := do
  let m ← s.handleTeam t
  let pa ← handlePair s t a 0 .tensor .scale
  let pb ← if sci then handlePair s t b 1 .tensor .tensor else (handleAt s t b 1 .tensor).map fun h => [h]
  let rs ← openTensors m (pa ++ pb)
  match rs with
  | (op, p) :: (os, sc) :: (ox, x) :: rest =>
    needs op (decide (p.lay = 2 ∧ p.planes = f.planes))
    needs os (decide (sc.lay = 3 ∧ sc.rows = p.rows ∧ sc.cols = p.cols))
    needs ox (x.isElem && decide (x.rows = p.rows ∧ x.cols = p.cols ∧ x.elem = f.elem) && decide (sci = decide (f.elem = .lc2)))
    match rest with
    | [(oy, y)] =>
      needs oy (y.isElem && decide (y.elem = .e8m0 ∧ y.rows = x.rows ∧ y.cols = x.cols / 32))
      .ok (.tcvp p sc x (some y))
    | _ => .ok (.tcvp p sc x none)
  | _ => .error (handleFault 0#32 8 0 false)

/-- TCVP (R405). -/
def execTcvp (gd : Guard) (a b : Src) (e : ECom) (fs : Fin 8) (sci : Bool) (s : State) : Outcome State Fault Refusal :=
  withSlot fs (fun f => planeSlot f && planeSource f.elem) (fun f => engineOnce gd e .cpe (fun t => tcvpOperands s t a b f sci)
    (fun _ st => st) s) s

/-! ### Matrices -/

/-- TMMA's operands, checked (R406). -/
def tmmaOperands (s : State) (t : Tid) (a b : Src) (fs : Fin 8) (acc : Fin 128) (q : Bool) : Except Trap CmdOp := do
  let m ← s.handleTeam t
  let pa ← handlePair s t a 0 .tensor .scale
  let pb ← handlePair s t b 1 .tensor .scale
  let rs ← openTensors m (pa ++ pb)
  match rs with
  | [(oa, x), (osa, sx), (ob, y), (osb, sy)] =>
    needs oa (decide (x.lay = 2 ∧ x.rows = if q then 16 else 64))
    needs osa (decide (sx.lay = 3 ∧ sx.rows = x.rows ∧ sx.cols = x.cols))
    needs ob (decide (y.lay = 2 ∧ y.rows = 64 ∧ y.cols = x.cols))
    needs osb (decide (sy.lay = 3 ∧ sy.rows = y.rows ∧ sy.cols = y.cols))
    .ok (.tmma x sx y sy acc (if q then some (Fin.ofNat 4 (t.lane.val / 8)) else none) ob.word osb.word fs)
  | _ => .error (handleFault 0#32 8 0 false)

/-- TMMA (R406, R377): one command, or in the quarter form one for each executing thread. -/
def execTmma (gd : Guard) (a b : Src) (e : ECom) (fs : Fin 8) (acc : Fin 128) (q : Bool) (s : State) : Outcome State Fault Refusal :=
  withSlot fs planeSlot (fun _ =>
    if q then engineEach gd e .pme (fun t => tmmaOperands s t a b fs acc q) (fun _ st => st) s
    else engineOnce gd e .pme (fun t => tmmaOperands s t a b fs acc q) (fun _ st => st) s) s

/-! ### Accumulators -/

/-- The tensor of an ACC instruction, checked for its shape and the slot's format (R407). -/
def accOperand (s : State) (t : Tid) (a : Src) (f : FormatSlot) (rows : Nat) : Except Trap TensorRec := do
  let m ← s.handleTeam t
  let h ← handleAt s t a 0 .tensor
  let rs ← openTensors m [h]
  match rs with
  | [(o, x)] =>
    needs o (x.isElem && decide (x.rows = rows ∧ x.cols = 64 ∧ x.elem = f.elem))
    .ok x
  | _ => .error (handleFault 0#32 8 0 false)

/-- ACCZ (R407). -/
def execAccz (gd : Guard) (e : ECom) (acc : Fin 128) (s : State) : Outcome State Fault Refusal :=
  .next (engineOnce gd e .pme (fun _ => .ok (.accz acc)) (fun _ st => st) s)

/-- ACCLD (R407). -/
def execAccld (gd : Guard) (a : Src) (e : ECom) (fs : Fin 8) (acc : Fin 128) (s : State) : Outcome State Fault Refusal :=
  withSlot fs accSlot (fun f => engineOnce gd e .pme (fun t => (accOperand s t a f 64).map fun x => .accld acc x) (fun _ st => st) s) s

/-- ACCST (R407). -/
def execAccst (gd : Guard) (a : Src) (e : ECom) (fs : Fin 8) (acc : Fin 128) (s : State) : Outcome State Fault Refusal :=
  withSlot fs accSlot (fun f => engineOnce gd e .pme (fun t => (accOperand s t a f 64).map fun x => .accst acc x f.rm)
    (fun _ st => st) s) s

/-- ACCADD (R407): the source tile is an operand's value. -/
def execAccadd (gd : Guard) (a : Src) (e : ECom) (acc : Fin 128) (s : State) : Outcome State Fault Refusal :=
  .next (engineOnce gd e .pme (fun t => do
    let v ← readSrc s t a
    let tiles := ((s.launch t).map fun l => l.desc.acc).getD 0
    if 128 ≤ v.toNat ∨ tiles ≤ v.toNat then .error (illegal .resource) else .ok (.accadd acc (Fin.ofNat 128 v.toNat)))
    (fun _ st => st) s)

/-- ACCRED (R407). -/
def execAccred (gd : Guard) (a : Src) (e : ECom) (fs : Fin 8) (acc : Fin 128) (col : Bool) (s : State) : Outcome State Fault Refusal :=
  withSlot fs accSlot (fun f => engineOnce gd e .pme (fun t => (accOperand s t a f 1).map fun x => .accred acc x f.rm col)
    (fun _ st => st) s) s

/-! ### Selection -/

/-- TSELK (R409): k is one more than the field. -/
def execTselk (gd : Guard) (a b : Src) (e : ECom) (km1 : Fin 64) (s : State) : Outcome State Fault Refusal :=
  .next (engineOnce gd e .sel (fun t => do
    let m ← s.handleTeam t
    let ha ← handleAt s t a 0 .tensor
    let hb ← handleAt s t b 1 .tensor
    let rs ← openTensors m [ha, hb]
    match rs with
    | [(ox, x), (oy, r)] =>
      needs ox (x.isElem && decide (x.elem = .f32 ∧ x.rows ≤ 64 ∧ x.cols ≤ 64))
      needs oy (decide (r.lay = 1 ∧ r.elem = .n8 ∧ r.rows = 1 ∧ r.cols = 4616 ∧ r.base % 8 = 0))
      .ok (.tselk x r (km1.val + 1))
    | _ => .error (handleFault 0#32 8 0 false)) (fun _ st => st) s)

/-! ### Bank engines, walks, collectives -/

/-- An engine selection (R410): stack, first engine and count. -/
def engineSelection (v : Word) : Except Trap (Nat × Nat × Nat) :=
  let n := v.toNat
  let stk := n / 2 ^ 16 % 32
  let ne := n / 2 ^ 8 % 128
  let e0 := n % 128
  if n / 2 ^ 21 ≠ 0 ∨ n / 2 ^ 15 % 2 ≠ 0 ∨ n / 2 ^ 7 % 2 ≠ 0 ∨ 24 ≤ stk ∨ ne = 0 ∨ 80 < ne ∨ 80 ≤ e0 ∨ 80 < e0 + ne then
    .error (illegal .operand)
  else .ok (stk, e0, ne)

/-- An engine command of a launch ends its replayability and closes its team's region (R122, R498). -/
def closeAll (t : Tid) (s : State) : State := (s.closeTeam t).endReplay t.coh.team.lid

/-- BANKRUN (R410). -/
def execBankrun (gd : Guard) (a b : Src) (e : ECom) (s : State) : Outcome State Fault Refusal :=
  .next (engineOnce gd e .bke (fun t => do
    let m ← s.handleTeam t
    let v ← readSrc s t b
    let h ← handleAt s t a 0 .bank
    match ← openHandle m h with
    | .bank r =>
      let (stk, e0, ne) ← engineSelection v
      .ok (.bankrun r stk e0 ne)
    | _ => .error (handleFault h.word 5 0 false)) closeAll s)

/-- BANKST (R411). -/
def execBankst (gd : Guard) (a b : Src) (e : ECom) (s : State) : Outcome State Fault Refusal :=
  .next (engineOnce gd e .bke (fun t => do
    let m ← s.handleTeam t
    let v ← readSrc s t b
    let h ← handleAt s t a 0 .tensor
    let rs ← openTensors m [h]
    match rs with
    | [(o, r)] =>
      let (stk, e0, ne) ← engineSelection v
      needs o (decide (r.lay = 1 ∧ r.rows = 1 ∧ 16 * ne ≤ r.cols ∧ packBits r.elem = 8))
      .ok (.bankst r stk e0 ne)
    | _ => .error (handleFault h.word 8 0 false)) (fun _ st => st) s)

/-- WALK (R412): a walk for each executing thread. -/
def execWalk (gd : Guard) (a b : Src) (e : ECom) (s : State) : Outcome State Fault Refusal :=
  .next (engineEach gd e .wlk (fun t => do
    let m ← s.handleTeam t
    let h ← handleAt s t a 0 .walk
    let ws ← readRegs s t b 4
    match ← openHandle m h with
    | .walk w =>
      let out := (pairOf (ws.getD 2 0#32) (ws.getD 3 0#32)).toNat
      if out % 4 ≠ 0 then .error (trap64 9 out 0#32)
      else if 2 ^ 57 < out + 4 * (w.steps + 4) then .error (trap64 10 out 0#32)
      else .ok (.walk w (ws.getD 0 0#32) (ws.getD 1 0#32) out)
    | _ => .error (handleFault h.word 5 0 false)) closeAll s)

/-- COLL (R541). -/
def execColl (gd : Guard) (a : Src) (e : ECom) (s : State) : Outcome State Fault Refusal :=
  .next (engineOnce gd e .cle (fun t => do
    let m ← s.handleTeam t
    let h ← handleAt s t a 0 .coll
    match ← openHandle m h with
    | .coll d =>
      needs h (d.rankOf m.k8 (s.coreOf t).die).isSome
      .ok (.coll d)
    | _ => .error (handleFault h.word 5 0 false)) closeAll s)

/-- CKSUM (R542): it closes nothing, and ends the launch's replayability (R498). -/
def execCksum (gd : Guard) (a b : Src) (e : ECom) (s : State) : Outcome State Fault Refusal :=
  .next (engineOnce gd e .cle (fun t => do
    let m ← s.handleTeam t
    let ha ← handleAt s t a 0 .tensor
    let hb ← handleAt s t b 1 .tensor
    let rs ← openTensors m [ha, hb]
    match rs with
    | [(ox, x), (oy, y)] =>
      needs ox (x.contiguous && decide (x.bytes % 4096 = 0 ∧ 4096 ≤ x.bytes))
      needs oy (y.contiguous && decide (y.base % 8 = 0 ∧ y.bytes = 8 * (x.bytes / 4096)))
      .ok (.cksum x y)
    | _ => .error (handleFault 0#32 8 0 false)) (fun t st => st.endReplay t.coh.team.lid) s)

/-! ### Handles -/

/-- TSEAL (R396): a handle, or the status of the check that failed; once per execution. -/
def execTseal (gd : Guard) (d : Dest) (a : Src) (ppr : Fin 4) (kind : RecKind) (s : State) : Outcome State Fault Refusal :=
  match s.execs gd with
  | [] => .next (runGroup gd (fun _ th => .ok (th, .next)) (skipCapture s d) s)
  | t :: _ =>
    let n := recordBytes kind
    let checked : Except Trap Nat := do
      let v ← readSrc s t a
      if v.toNat % 64 ≠ 0 then .error (offsetTrap 9 v.toNat 1)
      else if s.scrOf t.coh.team < v.toNat + n then .error (offsetTrap 10 v.toNat 1)
      else .ok v.toNat
    match checked, s.team t.coh.team with
    | .error tr, _ => .next (runGroup gd (fun _ _ => .error tr) (skipCapture s d) s)
    | .ok _, none => .next s
    | .ok o, some m =>
      let out : Except Nat (Word × Team) :=
        match m.freeHandle with
        | none => .error 1
        | some i =>
          match readRecord s t kind (m.scratchGet o n) with
          | .error c => .error c
          | .ok r =>
            let g := nextGen ((m.handles[i]?.map fun h => h.gen).getD 0#16)
            .ok (handleWord g kind i, { m with handles := m.handles.set i { gen := g, record := some r } })
      let (w, ok, s1) : Word × Bool × State :=
        match out with
        | .ok (h, m') => (h, true, s.modTeam t.coh.team fun _ => m')
        | .error c => (BitVec.ofNat 32 c, false, s)
      let f (_ : Tid) : Except Trap Result := .ok { words := [w] }
      .next (runGroup gd (fun _ th =>
          .ok (setPreds (putResult th d 1 { words := [w] }) [(evenPred ppr, ok), (oddPred ppr, !ok)], .next))
        (skipCapture s d) { s1 with cohorts := putShared s gd d 1 f })

/-- TUNSL (R402). -/
def execTunsl (gd : Guard) (a : Src) (s : State) : Outcome State Fault Refusal :=
  .next (onceGroup gd (fun t => do
    let m ← s.handleTeam t
    let h ← readSrc s t a
    let _ ← openEntry m h 0 false
    let i := h.toNat % 64
    .ok fun st => st.modTeam t.coh.team fun m =>
      { m with handles := m.handles.modify i fun x => { x with record := none } }) s)

/-! ### Guard slots and counters -/

/-- GSET (R413, R355): a resolved slot opens once no unreported command names it. -/
def execGset (gd : Guard) (slot : Fin 16) (s : State) : Outcome State Fault Refusal :=
  match s.execs gd with
  | [] => .next (runGroup gd (fun _ th => .ok (th, .next)) skipPlain s)
  | t :: _ =>
    let named := s.eng.cmds.any fun c => decide (c.coh.team = t.coh.team ∧ c.guard = some slot)
    if s.guardOf t.coh.team slot ≠ .unset ∧ named = true then .next (groupWaits gd (.slot slot) s)
    else
      .next (runGroup gd (fun _ th => .ok (th, .next)) skipPlain
        (s.modTeam t.coh.team fun m => { m with guards := m.guards.set slot .unset }))

/-- GRES (R414, R355, R356): an open slot takes the value; heads that a false slot holds are discarded. -/
def execGres (gd : Guard) (inv : Bool) (k : Fin 8) (slot : Fin 16) (s : State) : Outcome State Fault Refusal :=
  .next (onceGroup gd (fun t =>
    let v := (s.thread t).reads k != inv
    .ok fun st =>
      if st.guardOf t.coh.team slot = .unset then
        let st1 := st.modTeam t.coh.team fun m => { m with guards := m.guards.set slot (if v then .yes else .no) }
        allClasses.foldl (fun s c => s.discardHead t.coh.team c) st1
      else st.modTeam t.coh.team fun m => { m with ignored := satWord m.ignored }) s)

/-- WAITCNT (R415): the threads wait until the count of the class is at most n, and then acquire. -/
def execWaitcnt (gd : Guard) (a : Option Src) (n : Fin 64) (cls : EngClass) (s : State) : Outcome State Fault Refusal :=
  match s.execs gd with
  | [] => .next (runGroup gd (fun _ th => .ok (th, .next)) skipPlain s)
  | t :: _ =>
    let limit : Except Trap Nat := match a with
      | some x => (readSrc s t x).map fun v => v.toNat
      | none => .ok n.val
    match limit with
    | .error tr => .next (runGroup gd (fun _ _ => .error tr) skipPlain s)
    | .ok lim =>
      if lim < (s.cohort t.coh).counters[classIdx cls] then .next (groupWaits gd (.count cls lim) s)
      else .next (runGroup gd (fun _ th => .ok (th, .next)) skipPlain (s.acquireL1 t fun _ => true))

/-- A command cancelled (R366): one that has not started is removed without an access; one that has stops at its next stop
point. -/
def Command.cancel (c : Command) : Command :=
  match c.st with
  | .queued => if c.forwarded then { c with cancelled := true } else { c with st := .ended 4 }
  | .running => { c with cancelled := true }
  | .ended _ => c

/-- ECANC (R416). -/
def execEcanc (gd : Guard) (last : Bool) (cls : EngClass) (s : State) : Outcome State Fault Refusal :=
  .next (onceGroup gd (fun t =>
    let mine := s.cmdsOf t.coh cls
    let which := if last then (mine.getLast?.map fun c => [c.id]).getD [] else mine.map fun c => c.id
    let stop (c : Command) : Command := if which.contains c.id then c.cancel else c
    .ok fun st => { st with eng := { st.eng with cmds := st.eng.cmds.map stop } }) s)

/-- The value of a TSTAT selector (R417). -/
def tstatValue (s : State) (t : Tid) (sel : Fin 10) : Word :=
  match s.team t.coh.team with
  | none => 0#32
  | some m =>
    match sel.val with
    | 0 => m.nanBlocks
    | 1 => m.ignored
    | 2 => BitVec.ofNat 32 (m.handles.filter fun h => h.record.isNone).length
    | 3 =>
      let gsl := ((s.launch t).map fun l => l.desc.gsl).getD 0
      BitVec.ofNat 32 ((List.finRange 16).foldl (fun acc i =>
        acc + (if i.val < gsl then m.guards[i].code * 4 ^ i.val else 0)) 0)
    | k => BitVec.ofNat 32 ((s.cohort t.coh).counters[(k - 4) % 6]'(Nat.mod_lt _ (by decide)))

/-- TSTAT (R417). -/
def execTstat (gd : Guard) (d : Dest) (sel : Fin 10) (s : State) : Outcome State Fault Refusal :=
  .next (result gd d 1 (fun t => .ok { words := [tstatValue s t sel] }) s)

end Sys2Proof.Machine
end

