-- ==== Sys2Proof/Machine/LaunchRecord.lean ====
section
/-!
DEFINITION. Launch records as the CP reads and checks them (R231 to R237, R242, R268, R272, R305, R436), and their acceptance.
-/

namespace Sys2Proof.Machine

/-! ### The CP's accesses -/

/-- The physical address that the CP finds for a virtual one (R242): A set, and D for a write; none is a metadata failure, as any page
marked remote is, whether or not it is here (R459). -/
def cpTranslate (s : State) (root : Option Nat) (va : Nat) (k : AccKind) : Option Nat × State :=
  match root with
  | none => (none, s)
  | some rt =>
    let (w, s1) := s.walk rt va
    match w with
    | .unmapped | .malformed => (none, s1)
    | .leaf a pte big =>
      match leafOutcome k pte (leafPa pte big va) with
      | .ok pa _ =>
        if dramLimit ≤ pa ∨ pteBit pte 1 = true then (none, s1)
        else
          let pte' := accessedPte k pte
          (some pa, if pte' = pte then s1 else s1.setPte a pte')
      | .remote _ | .declined _ => (none, s1)

/-- Bytes of physical memory read through the home slices, sector by sector. -/
def readSectors (s : State) (pa n : Nat) : List Byte × State :=
  let secs := (List.range ((pa + n + 31) / 32 - pa / 32)).map fun i => pa / 32 + i
  let (bs, s1) := secs.foldl (fun (acc : List Byte × State) sec =>
    let ((b, _), st) := homeRead acc.2 (32 * sec) 32
    (acc.1 ++ b, st)) ([], s)
  ((bs.drop (pa % 32)).take n, s1)

/-- Bytes of a virtual range read by the CP; none on a metadata failure (R242). -/
def cpRead (s : State) (root : Option Nat) (va n : Nat) : Option (List Byte) × State :=
  (pagePieces va n).foldl (fun (acc : Option (List Byte) × State) p =>
    match acc.1 with
    | none => acc
    | some bs =>
      let (pa, st) := cpTranslate acc.2 root p.1 .read
      match pa with
      | none => (none, st)
      | some a =>
        let (b, st1) := readSectors st a p.2
        (some (bs ++ b), st1)) (some [], s)

/-! ### Parsing -/

/-- Whether a flat address of a record is canonical and aligned (R235). -/
def addrOk (a align : Nat) : Bool := decide (a < 2 ^ 57 ∧ a % align = 0)

/-- Whether a record's PC is in slot form and canonical (R231). -/
def pcOk (a : Nat) : Bool := decide (a < 2 ^ 57) && slotForm a

/-- A format slot read; none where it is ill-formed (R232, R235). -/
def readFormat (bs : List Byte) : Option FormatSlot :=
  let b (i : Nat) : Nat := field bs i 1
  let ef := b 1 % 16
  let sf := b 1 / 16
  let f : FormatSlot :=
    { valid := decide (b 0 % 2 = 1), elem := fmtOfCode ef,
      scale := if sf = 14 then some true else if sf = 0 then some false else none, block := b 2 % 4,
      rm := match b 3 % 4 with | 0 => .rne | 1 => .rz | 2 => .ru | _ => .rd, planes := b 4 }
  let clean := decide (b 0 < 2 ∧ b 2 < 4 ∧ b 3 < 4) && zeros bs 5 11
  if f.valid then
    (if clean && f.scale.isSome && decide (f.block ≠ 3 ∧ 2 ≤ f.planes ∧ f.planes ≤ 16) && (decide (ef ≠ 15) || decide (sf = 14))
     then some f else none)
  else if zeros bs 0 16 then some f else none

/-- A wait signal read: none where it is ill-formed (R233). -/
def readWait (bs : List Byte) : Option (Option (Nat × Nat)) :=
  let a := field bs 0 8
  let thr := field bs 8 4
  if !zeros bs 12 4 then none
  else if a = 0 then (if thr = 0 then some none else none)
  else if addrOk a 8 then some (some (a, thr)) else none

/-- A stage descriptor read: none where it is ill-formed (R234). -/
def readStage (bs : List Byte) (tpc : Nat) (used : Bool) : Option (Option StageDesc) :=
  let floor := field bs 8 2
  let spc := field bs 0 8
  if used then
    (if field bs 10 1 = 1 ∧ zeros bs 11 5 = true ∧ pcOk spc = true ∧ floor ≤ 192 ∧ floor % tpc = 0 then
      some (some { spc := BitVec.ofNat 57 spc, floor := floor })
     else none)
  else if zeros bs 0 16 then some none else none

/-- Every element of a list of options, or none. -/
def allSome {α : Type} : List (Option α) → Option (List α)
  | [] => some []
  | none :: _ => none
  | some x :: rest => (allSome rest).map fun l => x :: l

/-- A list of a length as a vector. -/
def toVec {α : Type} (n : Nat) (d : α) (l : List α) : Vector α n := Vector.ofFn fun i => l.getD i.val d

/-- A launch record read with its RGTP and TVTP; none where it is ill-formed (R231 to R235). -/
def readLaunch (bs : List Byte) : Option (LaunchRec × Nat × Nat) :=
  let u (o n : Nat) : Nat := field bs o n
  let ctl := u 0x20 4
  let nstg := u 0x24 1
  let tpc := u 9 1
  let cpt := u 8 1
  let regs := u 0x10 2
  let part (o n : Nat) : List Byte := (bs.drop o).take n
  let reserved := zeros bs 0x1C0 64 && zeros bs 0x25 3 && zeros bs 0x1E 2 && zeros bs 0xA 2 &&
    decide (ctl &&& 0xFC0CF81C = 0)
  let limits := decide (1 ≤ cpt ∧ cpt ≤ 32 ∧ 1 ≤ tpc ∧ tpc ≤ 8 ∧ 1 ≤ u 0xC 4 ∧ u 0xC 4 ≤ 16777215) &&
    decide (64 ≤ regs ∧ regs ≤ 512 ∧ regs % 16 = 0 ∧ u 0x12 1 ≤ 128 ∧ u 0x13 1 ≤ 16) &&
    decide (u 0x14 4 ≤ 1048576 ∧ u 0x14 4 % 128 = 0 ∧ u 0x18 1 ≤ 4 ∧ u 0x19 1 ≤ 16 ∧ u 0x1A 1 ≤ 8 ∧ u 0x1B 1 ≤ 64) &&
    decide (u 0x1C 2 ≤ 4095 ∧ nstg ≤ 8)
  let addrs := addrOk (u 0x28 8) 64 && addrOk (u 0x30 8) 64 && addrOk (u 0x38 8) 8 &&
    (if nstg = 0 then pcOk (u 0 8) else decide (u 0 8 = 0))
  let fits := decide ((cpt + 7) / 8 ≤ min 16 (1024 / regs))
  if reserved && limits && addrs && fits then
    match allSome ((List.range 8).map fun i => readFormat (part (0xC0 + 16 * i) 16)),
          allSome ((List.range 4).map fun i => readWait (part (0x40 + 16 * i) 16)),
          allSome ((List.range 8).map fun i => readStage (part (0x140 + 16 * i) 16) tpc (decide (i < nstg))) with
    | some fmts, some waits, some stages =>
      let stg := stages.filterMap fun x => x
      let blank : FormatSlot := { valid := false, elem := .n8, scale := some false, block := 0, rm := .rne, planes := 0 }
      if 192 < (stg.map fun d => d.floor).sum then none
      else
        some ({ entry := BitVec.ofNat 57 (u 0 8), cpt := cpt, tpc := tpc, ncl := u 0xC 4, regs := regs, acc := u 0x12 1,
                gsl := u 0x13 1, scr := u 0x14 4, obar := u 0x18 1, tbar := u 0x19 1, cbar := u 0x1A 1, hndl := u 0x1B 1,
                gates := u 0x1C 2, queue := ctl / 2 ^ 20 % 64, prio := ctl / 2 ^ 16 % 4, repl := decide (ctl / 2 ^ 10 % 2 = 1),
                ten := BitVec.ofNat 5 (ctl / 2 ^ 5), ofl := decide (ctl / 2 % 2 = 1), ifl := decide (ctl % 2 = 1),
                sigp := u 0x38 8, waits := waits.filterMap fun x => x,
                args := toVec 16 0#32 (leWords (part 0x80 64)), fmts := toVec 8 blank fmts, stages := stg },
              u 0x28 8, u 0x30 8)
    | _, _, _ => none
  else none

/-- A region-table entry read: none where it is ill-formed (R268, R272). -/
def readRegion (d : LaunchRec) (bs : List Byte) : Option (Option Region) :=
  let u (o n : Nat) : Nat := field bs o n
  let k := u 0x18 1
  if k / 128 = 0 then (if zeros bs 0 32 then some none else none)
  else
    let kind := k / 16 % 8
    let dom := k % 8
    let base := u 0 8
    let limit := u 8 8
    let inst := u 0x10 4
    let gate := u 0x1A 2 % 4096
    let attr := u 0x19 1
    let kinds : List RegKind := [.plain, .subscribed, .memside, .weight, .discard]
    let doms : List Dom := [.team, .clus, .die, .pkg, .fab]
    let clean := decide (k / 8 % 2 = 0 ∧ attr < 4 ∧ u 0x1A 2 < 4096) && zeros bs 0x14 4 && zeros bs 0x1C 4
    let range := decide (base % 65536 = 0 ∧ limit % 65536 = 0 ∧ base < 2 ^ 57 ∧ limit < 2 ^ 57 ∧ base < limit)
    match kinds[kind]?, doms[dom]? with
    | some rk, some dm =>
      let instOk :=
        match rk, dm with
        | .weight, _ => decide (dm = .die ∧ gate = 0 ∧ attr = 0 ∧ inst * 65536 + (limit - base) ≤ 536870912)
        | _, .team => decide (inst < d.ncl * d.tpc)
        | _, .clus => decide (inst < d.ncl)
        | _, .die => decide (inst < 4)
        | _, .pkg | _, .fab => decide (inst = 0)
      if clean && range && instOk && decide (gate ≤ d.gates) then
        some (some { base := base, limit := limit, kind := rk, dom := dm, inst := inst, gate := gate,
                     nonIdem := decide (attr / 2 % 2 = 1), untagged := decide (attr % 2 = 1) })
      else none
    | _, _ => none

/-- Whether two valid entries overlap or give one gate two domains (R272, R305). -/
def regionsClash : List Region → Bool
  | [] => false
  | r :: rest =>
    (rest.any fun q => decide (r.base < q.limit ∧ q.base < r.limit) || decide (r.gate = q.gate ∧ r.gate ≠ 0 ∧ r.dom ≠ q.dom)) ||
      regionsClash rest

/-- A region table read (R268, R272, R305). -/
def readRegions (d : LaunchRec) (bs : List Byte) : Option (List Region) :=
  match allSome ((List.range 256).map fun i => readRegion d ((bs.drop (32 * i)).take 32)) with
  | none => none
  | some l =>
    let rs := l.filterMap fun x => x
    if regionsClash rs then none else some rs

/-- A trap vector table read (R436). -/
def readVectors (bs : List Byte) : Option (List (Nat × Pc)) :=
  let entry (c : Nat) : Option (Option (Nat × Pc)) :=
    let e := field bs (8 * c) 8
    let pc := e % 2 ^ 57
    if e = 0 then some none
    else if c = 0 ∨ 16 ≤ c ∨ e / 2 ^ 63 = 0 ∨ e / 2 ^ 57 % 64 ≠ 0 ∨ slotForm pc = false then none
    else some (some (c, BitVec.ofNat 57 pc))
  (allSome ((List.range 32).map entry)).map fun l => l.filterMap fun x => x

/-! ### Acceptance -/

/-- The identifier after one, skipping 0, 0xFFFF_FFFE and 0xFFFF_FFFF (R237). -/
def nextLid (n : Nat) : Nat := if 4294967293 ≤ n then 1 else n + 1

/-- The n identifiers after one (R237). -/
def lidsFrom (n : Nat) : Nat → List Nat
  | 0 => []
  | k + 1 => nextLid n :: lidsFrom (nextLid n) k

/-- Records that stand in a queue (R236). -/
def State.queueLength (s : State) (q : Nat) : Nat := (s.launches.filter fun l => decide (l.desc.queue = q) && !l.left).length

/-- The bank engines that a queue's grant gives (R382). -/
def Cp.granted (c : Cp) (q : Nat) : List BankId :=
  (c.grants.filter fun g => g.1.1 = q).flatMap fun g => (List.range g.2.2).map fun i => { stack := g.1.2, eng := g.2.1 + i }

/-- Why the CP does not take a record (R235, R236). -/
inductive Rejected where | illFormed | full
  deriving DecidableEq, Repr

/-- A launch made of a checked record, its tables and its identifiers (R231, R237). -/
def newLaunch (s : State) (d : LaunchRec) (root : Option Nat) (asid : Nat) (rs : List Region) (tvt : List (Nat × Pc))
    (bs : List Byte) (lids : List Nat) : Launch :=
  let stage (x : Nat × Pc) : StageRun :=
    { lid := x.1, entry := x.2, nextK4 := 0, ended := 0, placed := [], saved := [], floors := [], items := [] }
  let entries := if d.stages.isEmpty then [d.entry] else d.stages.map fun g => g.spc
  { desc := d, asid := asid, root := root, regions := rs, tvt := tvt, state := .queued, left := false,
    grant := s.cp.granted d.queue, told := [], since := 0, record := bs, stages := (lids.zip entries).map stage,
    admitted := d.stages.isEmpty, gateDies := [], trapCount := 0, replayable := d.repl,
    replayed := false, snapshot := [] }

/-- The CP takes a record (R235 to R237, R242): its first identifier, or why not. DESIGN CHOICE (log entry 68): of an ill-formed record
for a full queue, that it is ill-formed. -/
def State.accept (s : State) (bs : List Byte) : Except Rejected Nat × State :=
  match readLaunch bs with
  | none => (.error .illFormed, s)
  | some (d, rgtp, tvtp) =>
    let binding := tget s.bindings d.queue
    let root := binding.map fun b => b.2
    let asid := (binding.map fun b => b.1).getD 0
    let (rb, s1) := if rgtp = 0 then (some (List.replicate 8192 0#8), s) else cpRead s root rgtp 8192
    let (vb, s2) := if tvtp = 0 then (some (List.replicate 256 0#8), s1) else cpRead s1 root tvtp 256
    match rb.bind (readRegions d), vb.bind readVectors with
    | some rs, some tvt =>
      if 256 ≤ s2.queueLength d.queue then (.error .full, s2)
      else
        let lids := lidsFrom s2.cp.idCounter (max 1 d.stages.length)
        let l := newLaunch s2 d root asid rs tvt bs lids
        (.ok (lids.headD 0),
         { s2 with launches := s2.launches ++ [l], cp := { s2.cp with idCounter := lids.getLastD s2.cp.idCounter } })
    | _, _ => (.error .illFormed, s2)

end Sys2Proof.Machine
end

