-- ==== Sys2Proof/Machine/Placement.lean ====
section
/-!
DEFINITION. Resources and placement (R243 to R249), the start, restart and restore of teams (R253, R447, R456), pre-emption
(R250 to R252, R449 to R453), and the ends of teams, clusters and launches (R240, R369, R441, R500).
-/

namespace Sys2Proof.Machine

/-! ### What is held -/

/-- A placement as it holds resources: its record, its place, the cohorts whose slices are held, and whether the team's own
resources are. -/
structure HeldPlace where
  desc : LaunchRec
  place : Place
  cohorts : List Nat
  deriving DecidableEq, Repr

/-- The team of a rank of a cluster (R247). -/
def teamOf (d : LaunchRec) (lid k4 rank : Nat) : TeamId := { lid := lid, k3 := k4 * d.tpc + rank }

/-- What the places of a placed cluster hold: everything while it is a victim (R250) or stands in a floor placement (R248), else what
its teams still hold. -/
def PlacedCluster.held (s : State) (d : LaunchRec) (lid : Nat) (c : PlacedCluster) : List HeldPlace :=
  let whole := c.victim || c.floor
  c.places.zipIdx.filterMap fun x =>
    let t := teamOf d lid c.k4 x.2
    let live := (List.range d.cpt).filter fun k => whole || (tget s.cohorts { team := t, k1 := k }).isSome
    if whole || (s.team t).isSome then some { desc := d, place := x.1, cohorts := live } else none

/-- Every placement that holds resources, reserved floors among them (R248). -/
def State.heldPlaces (s : State) : List HeldPlace :=
  s.launches.flatMap fun l => l.stages.flatMap fun g =>
    (g.placed.flatMap fun c => c.held s l.desc g.lid) ++
    g.floors.flatMap fun f => f.places.map fun p => { desc := l.desc, place := p, cohorts := List.range l.desc.cpt }

/-- The lowest start of a free run of a length below a capacity: 0, or the end of a run that is used. -/
def freeRun (used : List (Nat × Nat)) (len cap : Nat) : Option Nat :=
  let fits (a : Nat) : Bool := decide (a + len ≤ cap) && used.all fun u => decide (a + len ≤ u.1 ∨ u.1 + u.2 ≤ a ∨ u.2 = 0 ∨ len = 0)
  ((0 :: used.map fun u => u.1 + u.2).filter fits).min?

/-- Slices for the cohorts of a team from a base partition on (R181, R182, R247): none where one does not fit. used are slices
by partition. -/
def sliceAll (d base n : Nat) (k : Nat) (used : List (Nat × Nat × Nat)) : Option (List Nat) :=
  match n with
  | 0 => some []
  | m + 1 =>
    let p := (base + k) % 8
    let here := (used.filter fun u => u.1 = p).map fun u => u.2
    if 16 ≤ here.length then none
    else
      match freeRun here d 1024 with
      | none => none
      | some a => (sliceAll d base m (k + 1) ((p, a, d) :: used)).map fun l => a :: l

/-- The place of a team of a record on a core, next to what is held there (R243, R247). -/
def fitTeam (held : List HeldPlace) (d : LaunchRec) (core : CoreId) : Option Place :=
  let here := held.filter fun h => h.place.core = core
  let total (f : LaunchRec → Nat) : Nat := (here.map fun h => f h.desc).sum + f d
  let used := here.flatMap fun h =>
    h.cohorts.map fun k => ((h.place.base.val + k) % 8, h.place.slices.getD k 0, h.desc.regs)
  let scratch := freeRun (here.map fun h => (h.place.scrBase, h.desc.scr)) d.scr 1048576
  if 256 < total LaunchRec.tbar ∨ 256 < total LaunchRec.gsl ∨ 2048 < total LaunchRec.hndl ∨ 128 < total LaunchRec.acc then none
  else
    match scratch with
    | none => none
    | some sb =>
      (List.finRange 8).findSome? fun b =>
        (sliceAll d.regs b.val d.cpt 0 used).map fun sl => { core := core, base := b, scrBase := sb, slices := sl }

/-- A die's or cluster's power state (R554). -/
def State.powerOf (s : State) (sc : PwrScope) : Power :=
  (tget s.module.power sc).getD { state := 0, gating := false, returning := none }

/-- Whether power lets the CP place on a hardware cluster (R554). -/
def State.powered (s : State) (die hw : Nat) : Bool :=
  let ok (p : Power) : Bool := decide (p.state ≤ 2) && !p.gating && p.returning.isNone
  ok (s.powerOf (.die die)) && ok (s.powerOf (.cluster die hw)) &&
    (List.range 4).all fun d => decide ((s.powerOf (.die d)).state ≤ 3) && (s.powerOf (.die d)).returning.isNone

/-- Whether a launch has a WEIGHT entry (R287). -/
def Launch.weighted (l : Launch) : Bool := l.regions.any fun r => decide (r.kind = .weight)

/-- Whether the CP may place a launch's team on a core (R287, R445, R501, R554). -/
def State.coreOpen (s : State) (l : Launch) (c : CoreId) : Bool :=
  !s.rel.fenced.contains c && decide (s.rel.draining ≠ some (c.die, c.core / 8)) && s.powered c.die (c.core / 8) &&
    !(l.weighted && s.cp.wloads.any fun w => w.die = c.die)

/-- Cluster barriers held in a hardware cluster (R243). -/
def State.clusterBars (s : State) (die hw : Nat) : Nat :=
  (s.launches.flatMap fun l => l.stages.flatMap fun g =>
    ((g.placed.filter fun c => decide (c.die = die ∧ c.hw = hw)).map fun _ => l.desc.cbar) ++
    ((g.floors.filter fun f => decide (f.die = die ∧ f.hw = hw)).map fun _ => l.desc.cbar)).sum

/-- Whether a die has gates for a launch (R243). -/
def State.gatesFit (s : State) (l : Launch) (die : Nat) : Bool :=
  l.gateDies.contains die ||
    decide (((s.launches.filter fun x => x.gateDies.contains die).map fun x => x.desc.gates).sum + l.desc.gates ≤ 4095)

/-- The first n cores of a list that take a team, with its place on each (R247). -/
def takeCores (held : List HeldPlace) (d : LaunchRec) (n : Nat) : List CoreId → List Place
  | [] => []
  | c :: rest =>
    match n with
    | 0 => []
    | k + 1 =>
      match fitTeam held d c with
      | some p => p :: takeCores held d k rest
      | none => takeCores held d n rest

/-- The hardware clusters in the order of R247. -/
def State.searchOrder (s : State) : List (Nat × Nat) :=
  let first := match s.cp.lastDie with
    | some d => d + 1
    | none => 0
  (List.range 4).flatMap fun i => (List.range 6).map fun h => ((first + i) % 4, h)

/-- Fit(L) with some placements held (R247): die, hardware cluster and the places in rank order. -/
def State.fitWith (s : State) (held : List HeldPlace) (l : Launch) : Option (Nat × Nat × List Place) :=
  s.searchOrder.findSome? fun x =>
    if 64 < s.clusterBars x.1 x.2 + l.desc.cbar ∨ s.gatesFit l x.1 = false then none
    else
      let cores := (List.range 8).map fun i => ({ die := x.1, core := 8 * x.2 + i } : CoreId)
      let ps := takeCores held l.desc l.desc.tpc (cores.filter fun c => s.coreOpen l c)
      if ps.length = l.desc.tpc then some (x.1, x.2, ps) else none

/-- Fit(L) (R247). -/
def State.fit (s : State) (l : Launch) : Option (Nat × Nat × List Place) := s.fitWith s.heldPlaces l

/-! ### Starting teams -/

/-- A thread at its start (R18): at a PC, with g0 to g3 as given, and numbered. -/
def Thread.start (num : Nat) (pc : Pc) (entry : EntryKind) (regs : Nat) (slots : Vector Word 4) : Thread :=
  { Thread.blank with
    num := num, pc := pc, entry := entry, status := .arriving, stack := List.replicate (regs - 16) 0#32,
    g := ((((Vector.replicate 16 0#32).set 0 slots[0]).set 1 slots[1]).set 2 slots[2]).set 3 slots[3] }

/-- A team at its placement (R256, R263, R355, R361, R446). -/
def newTeam (d : LaunchRec) (p : Place) (k2 k4 stage k8 edge : Nat) (pc : Pc) (slots : Vector Word 4) : Team :=
  { core := p.core, base := p.base, scrBase := p.scrBase, k2 := Fin.ofNat 8 k2, k4 := k4, stage := stage, k8 := k8, scratch := [], full := [],
    waiters := [], windows := Vector.replicate 16 { off := 0#13, opened := false, writer := none },
    guards := Vector.replicate 16 .unset, handles := List.replicate d.hndl { gen := 0#16, record := none }, tiles := [],
    restartable := true, closed := none, regionPc := pc, slots := slots, nanBlocks := 0#32, ignored := 0#32, preempt := .no, edge := edge }

/-- The partition of a cohort (R181). -/
def partOf (p : Place) (k : Nat) : PartId := { core := p.core, part := (p.base.val + k) % 8 }

/-- A cohort at its placement. -/
def newCohort (p : Place) (k : Nat) : Cohort := { Cohort.blank with part := partOf p k, slice := p.slices.getD k 0 }

/-- No resume words. -/
def noSlots : Vector Word 4 := Vector.replicate 4 0#32

/-- A team of fresh threads put on its place (R253, R447): at a launch's start its entry is checked as a transfer, at a restart
not. -/
def State.startTeam (s : State) (d : LaunchRec) (lid k4 stage rank : Nat) (p : Place) (pc : Pc) (entry : EntryKind)
    (slots : Vector Word 4) : State :=
  let t := teamOf d lid k4 rank
  let coh (k : Nat) : CohId := { team := t, k1 := k }
  let ths := (List.range d.cpt).flatMap fun k =>
    (List.finRange 32).map fun i => (({ coh := coh k, lane := i } : Tid), Thread.start (s.nextId + 32 * k + i.val) pc entry d.regs slots)
  { s with teams := tput s.teams t (newTeam d p rank k4 stage s.moduleNo s.nextId pc slots), threads := s.threads ++ ths, nextId := s.nextId + 32 * d.cpt,
           cohorts := s.cohorts ++ (List.range d.cpt).map fun k => (coh k, newCohort p k) }

/-- Frame n of a thread's register stack. -/
def Thread.frame (th : Thread) (n : Nat) : List Word := (List.range 16).map fun i => th.entryAt (16 * n + i)

/-- The frame of a thread's window that a record holds in place j: frames WB - WRES to WB + 1 (R454). -/
def residentFrame (frames wb wres j : Nat) : Nat := (wb + frames - wres + j) % frames

/-- The record of a thread in a save image (R454); park is its PARK field, and code STATUS [2:0]. -/
def threadRecord (park : List Byte) (code : Nat) (th : Thread) : List Byte :=
  leBytes 8 th.pc.toNat ++ leBytes 4 (winWord th).toNat ++ leBytes 4 th.flg.toNat ++ leBytes 8 th.spa.toNat ++
    [th.live, th.preds &&& th.live, BitVec.ofNat 8 (code + if th.hnd then 8 else 0)] ++ List.replicate 5 0#8 ++
    leBytes 8 th.epc.toNat ++ List.replicate 8 0#8 ++ park ++ wordBytes th.g.toList ++
    ((List.range (th.wres + 2)).flatMap fun j => wordBytes (th.frame (residentFrame th.frames th.wb th.wres j))) ++
    (if th.hnd then wordBytes th.trw.toList else [])

/-- Word n of a record from an offset. -/
def recWord (bs : List Byte) (o n : Nat) : Word := BitVec.ofNat 32 (field bs (o + 4 * n) 4)

/-- A thread with the fields that its record holds (R454). Entries of its register stack outside the resident frames are not in the
record, and come back as they were: R28 has them keep what they last held (log entry 67). -/
def Thread.ofRecord (bs : List Byte) (th : Thread) : Thread :=
  let wb := field bs 8 1
  let wres := field bs 9 1
  let hnd := decide (field bs 0x1A 1 / 8 % 2 = 1)
  let entry (i : Nat) : Word :=
    match (List.range (wres + 2)).find? fun j => residentFrame th.frames wb wres j = i / 16 with
    | some j => recWord bs (0x80 + 64 * j) (i % 16)
    | none => th.entryAt i
  { th with
    pc := BitVec.ofNat 57 (field bs 0 8), wb := wb, wres := wres, wdep := field bs 10 2, flg := BitVec.ofNat 5 (field bs 0xC 4),
    spa := BitVec.ofNat 57 (field bs 0x10 8), live := BitVec.ofNat 8 (field bs 0x18 1), preds := BitVec.ofNat 8 (field bs 0x19 1), hnd := hnd,
    epc := BitVec.ofNat 57 (field bs 0x20 8), g := Vector.ofFn fun i => recWord bs 0x40 i.val,
    stack := (List.range th.stack.length).map entry,
    trw := if hnd then Vector.ofFn fun i => recWord bs (0x80 + 64 * (wres + 2)) i.val else th.trw }

/-- A saved thread as it resumes (R456): Blocked and Parked threads as they were, and one that waits for a time (R228); one whose
barrier phase has completed released; every other arrives at its PC. Dead predicates read 0 (R455). What a FENCE.rel holds its later
synchronising writes for goes on holding them (R310). -/
def restoreThread (s : State) (th : Thread) : Thread :=
  let th0 := { th with latches := noLatches, wait := none, pends := [], syncReads := [], stopped := false }
  match th.status with
  | .exited | .parked => th0
  | .waiting =>
    match th.wait with
    | some (.time T) => { th0 with wait := some (.time T), kept := none }
    | some .debug => { th0 with wait := some .debug, kept := none }
    | _ => { th0 with status := .arriving, kept := none }
  | .blocked .conv => { th0 with kept := none }
  | .blocked (.bar k p dl) =>
    if (s.bar k).phase ≤ p then { th0 with kept := none }
    else releaseBar k p { th0 with status := .blocked (.bar k p dl) }
  | .blocked (.held k p) => if (s.bar k).phase ≤ p then { th0 with kept := none } else { th0 with status := .arriving, kept := none }
  | .seated | .arriving | .inRun => { th0 with status := .arriving, kept := none }

/-- The state in which a saved record arrives again (R479); one that the host has answered meanwhile is resolved (R486). -/
def ParkState.rearrive (st : ParkState) (v : Vnp) (key : PageKey) (k : AccKind) : ParkState :=
  match st with
  | .saved _ true => .answered
  | .saved was false => arrivalState v key k was
  | .waiting | .installed | .declined _ | .answered => st

/-- The park records of a restored team: withdrawn, and each group a new arrival in the RFQ of its new die (R479); a group for
which there is no room arrives at its instruction and faults again. -/
def State.repark (s : State) (t : TeamId) (die : Nat) : State :=
  let mine (r : ParkRec) : Bool := (match r.st with | .saved _ _ => true | _ => false) && r.tids.any fun x => x.coh.team = t
  let groups := ((s.vnp.rfq.filter mine).map fun r => r.group).eraseDups
  groups.foldl (fun st g =>
    let recs := st.vnp.rfq.filter fun r => r.group = g
    let rest := st.vnp.rfq.filter fun r => r.group ≠ g
    let st0 := { st with vnp := { st.vnp with rfq := rest } }
    let free := st0.rfqFree die recs.length
    let tids := (recs.head?.map fun r => r.tids).getD []
    if free.length < recs.length then
      (let back (p : Tid × Thread) : Tid × Thread :=
        if p.1 ∈ tids then (p.1, { p.2 with status := .arriving, entry := p.2.entry.replayed }) else p
       { st0 with threads := st0.threads.map back })
    else
      let now := st0.ptc.toNat
      let group := st0.nextId
      let part := (st0.cohort ((tids.head?.map fun x => x.coh).getD { team := t, k1 := 0 })).part
      let mk (x : (ParkRec × Nat) × Nat) : ParkRec :=
        { x.1.1 with die := die, idx := x.1.2, part := part, tarr := now, order := st0.nextId + x.2, group := group,
                     asked := none, st := x.1.1.st.rearrive st0.vnp x.1.1.key x.1.1.kind }
      let new := (recs.zip free).zipIdx.map mk
      let v := { st0.vnp with rfq := st0.vnp.rfq ++ new }
      let v1 := new.foldl (fun v r => if r.st = .waiting then v.startChain r (st0.queueOf t.lid) else v) v
      wakeGroups { st0 with vnp := forwardDeclined v1, nextId := st0.nextId + recs.length }) s

/-- A saved team put back on a place (R456, R365): its sections return, its core-class commands go to its new core, and so do those of its
off-core ones that it still holds in a core-side queue (R344, R368). -/
def State.restoreTeam (s0 : State) (d : LaunchRec) (lid k4 rank : Nat) (p : Place) (m : Team) (ths : List SavedThread)
    (cos : List (Nat × Cohort)) (bars : List (BarKey × Barrier)) (left : List (Tid × Thread)) : State :=
  let t := teamOf d lid k4 rank
  let (edge, s) := s0.fresh
  let co (x : Nat × Cohort) : CohId × Cohort :=
    ({ team := t, k1 := x.1 }, { x.2 with part := partOf p x.1, slice := p.slices.getD x.1 0, pends := [] })
  let move (c : Command) : Command := if c.coh.team = t ∧ (coreClass c.cls = true ∨ c.forwarded = false) then { c with core := p.core } else c
  let back (x : SavedThread) : Tid × Thread := (x.tid, restoreThread s (x.rest.ofRecord x.record))
  let s1 := { s with
    teams := tput s.teams t { m with core := p.core, base := p.base, scrBase := p.scrBase, k8 := s.moduleNo, preempt := .no, edge := edge },
    threads := s.threads ++ ths.map back ++ left, cohorts := s.cohorts ++ cos.map co,
    barriers := s.barriers ++ bars, eng := { s.eng with cmds := s.eng.cmds.map move },
    rel := { s.rel with saveFree := s.rel.saveFree + 1 } }
  s1.repark t p.core.die

/-- At a restart, gates of domain TEAM that only entries naming the team are bound to are as reset (R448); the releases of them that the
team made before have been applied (R302). -/
def State.resetTeamGates (s : State) (t : TeamId) : State :=
  match s.launchOf t.lid with
  | none => s
  | some l =>
    let own (lid num : Nat) : Bool :=
      let rs := l.boundTo num
      decide (lid = s.gateLid t.lid) && !rs.isEmpty && rs.all fun r => decide (r.dom = .team ∧ r.inst = t.k3)
    { s with mem := { s.mem with gates := s.mem.gates.filter fun g => !own g.lid g.num, releases := s.mem.releases.filter fun r => !own r.lid r.num } }

/-- A core's L1 sectors, and the fetch lines it holds, invalidated: the launch edge of R302 for a team that it takes. -/
def State.freshCore (s : State) (c : CoreId) : State :=
  let s1 := s.keepL1 fun k _ => decide (k.core ≠ c)
  { s1 with mem := { s1.mem with lines := s1.mem.lines.filter fun l => decide (l.1.1 ≠ c) } }

/-- One rank of a cluster placed: started, restarted at its region entry, restored, or gone for good. -/
def State.placeRank (s : State) (d : LaunchRec) (lid k4 stage : Nat) (entry : Pc) (old : List (Fin 8 × SavedTeam)) (rank : Nat)
    (p : Place) : State :=
  let s0 := s.freshCore p.core
  let at' : Option SavedTeam := (old.find? fun (x : Fin 8 × SavedTeam) => x.1.val = rank).map fun x => x.2
  match at' with
  | none => s0.startTeam d lid k4 stage rank p entry .transfer noSlots
  | some (.restart _ pc slots) => (s0.resetTeamGates (teamOf d lid k4 rank)).startTeam d lid k4 stage rank p pc .line slots
  | some (.image _ m ths cos bars _ left) => s0.restoreTeam d lid k4 rank p m ths cos bars left
  | some (.done _) => s0

/-- A stage of a launch changed. -/
def State.modStage (s : State) (lid : Nat) (f : StageRun → StageRun) : State :=
  s.modLaunch lid fun l => { l with stages := l.stages.map fun g => if g.lid = lid then f g else g }

/-- The stage of a launch identifier. -/
def State.stage (s : State) (lid : Nat) : Option (Launch × StageRun × Nat) :=
  (s.launchOf lid).bind fun l => (l.stages.zipIdx.find? fun x => x.1.lid = lid).map fun x => (l, x.1, x.2)

/-- A launch's gates reserved on a die, at its first placement there (R243). -/
def State.reserveGates (s : State) (lid die : Nat) : State :=
  s.modLaunch lid fun l =>
    { l with gateDies := if l.desc.gates = 0 ∨ l.gateDies.contains die then l.gateDies else l.gateDies ++ [die] }

/-- One cluster of a stage placed where it fits (R245, R247, R251): a pre-empted one first, else the next. -/
def State.placeCluster (s : State) (lid : Nat) (at' : Nat × Nat × List Place) (floor : Bool) : State :=
  match s.stage lid with
  | none => s
  | some (l, g, k) =>
    let old := g.saved.head?
    let k4 := (old.map fun c => c.k4).getD g.nextK4
    let c : PlacedCluster := { k4 := k4, places := at'.2.2, floor := floor, order := s.cp.order, die := at'.1, hw := at'.2.1,
                               victim := false, gone := [] }
    let s1 := s.modStage lid fun g =>
      { g with placed := g.placed ++ [c], saved := g.saved.drop 1, nextK4 := if old.isSome then g.nextK4 else g.nextK4 + 1 }
    let s2 := s1.reserveGates lid at'.1
    let s3 := { s2 with cp := { s2.cp with order := s2.cp.order + 1, lastDie := some at'.1 } }
    at'.2.2.zipIdx.foldl (fun st x =>
      st.placeRank l.desc lid k4 k g.entry ((old.map fun c => c.teams).getD []) x.2 x.1) s3

/-! ### Teams leave -/

/-- Whether the report of an undelivered trap has yet to receive a write's value (R434, R441). -/
def State.reportAwaits (s : State) (id : Nat) : Bool :=
  let any (ls : Vector Latch 4) : Bool := ls.toList.any fun l => match l with | .pend i _ => decide (i = id) | .invalid | .valid _ | .token _ _ => false
  (s.traps.any fun r => any r.latches) ||
    s.cp.reports.any fun r => match r with | .trap _ _ _ _ ls _ => any ls | .metadata _ _ | .thermal _ _ _ | .debug _ _ _ | .clock _ => false

/-- The running commands of a team that no step boundary stops (R364), each with its team as it stands, which it runs on with (R368,
R369). -/
def State.ghostsOf (s : State) (t : TeamId) : Tbl Nat Team :=
  match s.team t with
  | none => []
  | some m => (s.eng.cmds.filter fun c => decide (c.coh.team = t ∧ c.st = .running) && !c.op.stops).map fun c => (c.id, m)

/-- A peer access once its owner has left its core (R265, R448): one that waits at a word keeps its acceptance and its place with a team
that comes back with its contents (R456), and is lost with the contents of one that does not. -/
def WinAccess.leave (t : TeamId) (saved : Bool) (w : WinAccess) : WinAccess :=
  if w.owner ≠ t ∨ w.answer.isSome ∨ !w.arrived ∨ saved then w else { w with answer := some .stored }

/-- The reads and writes that a team's scratch instructions have in later passes, served at once: the latches of a trap report may await
them (R258, R434, R441). -/
def State.servePasses (s : State) (t : TeamId) : State :=
  (s.mem.passes.filter fun p => decide (p.tid.coh.team = t)).foldl (fun st p => servePart p st) s

/-- What a removed team leaves behind elsewhere: its seats, its peer accesses, its returns and its subscriptions (R328); saved says that
it is in a save area. -/
def State.dropTeam (s0 : State) (t : TeamId) (saved : Bool) : State :=
  let s := s0.servePasses t
  let mine (x : Tid) : Bool := decide (x.coh.team = t)
  let own (k : BarKey) : Bool :=
    match k.owner with
    | .cohort c => decide (c.team = t)
    | .team m => decide (m = t)
    | .cluster _ _ => false
  let core := (s.team t).map fun m => m.core
  let s1 := s.unseat mine
  let m := s1.mem
  let told (id : Nat) : Bool := s.reportAwaits id
  let loose (a : Access) : Access :=
    if mine a.tid then { a with ret := a.ret.filter fun r => told r.pend } else a
  let others := s1.teams.filter fun p => decide (p.1 ≠ t)
  let stays := others.any fun p => decide (s.gateLid p.1.lid = s.gateLid t.lid ∧ some p.2.core = core)
  let ends (x : Subscription) : Bool := decide (s.gateLid x.lid = s.gateLid t.lid ∧ some x.core = core) && !stays
  let gone := m.subs.filter ends
  let unshare (d : DirTile) : DirTile :=
    { d with sharers := d.sharers.filter fun x => !(gone.any fun y => decide (y.core = x.1 ∧ y.pa = d.pa)) }
  { s1 with
    teams := others, threads := s1.threads.filter fun p => !mine p.1, cohorts := s1.cohorts.filter fun p => decide (p.1.team ≠ t),
    barriers := s1.barriers.filter fun p => !own p.1,
    mem := { m with accesses := m.accesses.map loose, arrivals := m.arrivals.filter fun a => !mine a.tid || told a.pend,
                    weightReads := m.weightReads.filter fun a => !mine a.tid || told a.pend,
                    gathers := m.gathers.filter fun g => !mine g.tid || told g.id, passes := m.passes.filter fun p => !mine p.tid,
                    windows := (m.windows.filter fun w => !mine w.tid).map (WinAccess.leave t saved), subs := m.subs.filter fun x => !ends x,
                    dir := m.dir.map unshare },
    eng := { s1.eng with ghosts := s1.eng.ghosts ++ if saved then [] else s.ghostsOf t },
    vnp := { s1.vnp with rfq := s1.vnp.rfq.filter fun r => saved || !(r.tids.any mine) } }

/-- The commands of a team cancelled without a report (R368, R369): those that have not started, and those of its core's engines, which
stand at a stop point unless they have none (R364), are gone at once. -/
def State.muteCmds (s : State) (t : TeamId) : State :=
  let mine (c : Command) : Bool := decide (c.coh.team = t)
  let stays (c : Command) : Bool :=
    (decide (c.st = .running) && !(coreClass c.cls && c.op.stops)) || (decide (c.st = .queued) && c.forwarded)
  let mark (c : Command) : Command := if mine c then { c with cancelled := true, mute := true } else c
  let gone := s.eng.cmds.filter fun c => mine c && !stays c
  let e := gone.foldl (fun e c => e.forget c.id) s.eng
  { s with eng := { e with cmds := (s.eng.cmds.filter fun c => !mine c || stays c).map mark } }

/-- The floor placement that a cluster stands in, which its stage keeps (R248). -/
def PlacedCluster.freed (c : PlacedCluster) : List Floor := if c.floor then [{ die := c.die, hw := c.hw, places := c.places }] else []

/-- A stage's cluster over: its count, and its floor placement back to the stage until the stage has ended (R248, R249). -/
def endCluster (ncl : Nat) (c : PlacedCluster) (g : StageRun) : StageRun :=
  let n := g.ended + 1
  { g with placed := g.placed.filter fun x => decide (x.k4 ≠ c.k4), ended := n,
           floors := if ncl ≤ n then [] else g.floors ++ c.freed }

/-- The barriers of a cluster gone. -/
def State.dropClusterBars (s : State) (lid k4 : Nat) : State :=
  { s with barriers := s.barriers.filter fun p => decide (p.1.owner ≠ .cluster lid k4) }

/-- A rank of a victim cluster has left (R250, R251): with the last of them the cluster waits to be placed again, or has ended
where every team had exited. DESIGN CHOICE (log entry 68): of several that wait, the first to have left is placed first. -/
def State.addGone (s : State) (t : TeamId) (k4 rank : Nat) (x : SavedTeam) : State :=
  match s.stage t.lid with
  | none => s
  | some (l, g, _) =>
    match g.placed.find? fun c => c.k4 = k4 with
    | none => s
    | some c =>
      let gone := c.gone ++ [(Fin.ofNat 8 rank, x)]
      if gone.length < l.desc.tpc then
        s.modStage t.lid fun g => { g with placed := g.placed.map fun c => if c.k4 = k4 then { c with gone := gone } else c }
      else if gone.all fun y => (match y.2 with | .done _ => true | _ => false) then
        (s.modStage t.lid (endCluster l.desc.ncl c)).dropClusterBars t.lid k4
      else
        s.modStage t.lid fun g =>
          { g with placed := g.placed.filter fun c => decide (c.k4 ≠ k4), floors := g.floors ++ c.freed,
                   saved := g.saved ++ [{ k4 := k4, teams := gone, since := s.ptc.toNat }] }

/-- A restarted team's arrivals in phases of cluster barriers that have not completed are withdrawn (R448). -/
def Barrier.withdraw (b : Barrier) (t : TeamId) : Barrier :=
  let mine (x : Tid) : Bool := decide (x.coh.team = t)
  { b with arrived := b.arrived.filter fun x => !mine x, held := b.held.filter fun x => !mine x,
           last := b.last.filter fun p => !(mine p.1 && decide (b.phase ≤ p.2)) }

/-- A restartable team discarded (R449, R447, R448). -/
def State.discardTeam (s : State) (t : TeamId) : State :=
  match s.team t with
  | none => s
  | some m =>
    let cluster : BarOwner := .cluster t.lid m.k4
    let s1 := s.muteCmds t
    let pull (p : BarKey × Barrier) : BarKey × Barrier := if p.1.owner = cluster then (p.1, p.2.withdraw t) else p
    let s2 := { s1 with barriers := s1.barriers.map pull }
    (s2.dropTeam t false).addGone t m.k4 m.k2.val (.restart t.k3 m.regionPc m.slots)

/-- A command that a save stops (R365, R368): back at the head of its list with its step counter, or ended where it is cancelled. -/
def Command.pause (c : Command) : Command :=
  if coreClass c.cls && decide (c.st = .running) && c.op.stops then { c with st := if c.cancelled then .ended 4 else .queued } else c

/-- Whether all threads of a team have exited: pre-emption then neither saves nor discards it (R252). -/
def State.teamExited (s : State) (t : TeamId) : Bool :=
  s.threads.all fun p => decide (p.1.coh.team ≠ t ∨ p.2.status = .exited)

/-- A thread whose run the save of its team stops at its end (R450, R454). -/
def Thread.stop (th : Thread) : Thread :=
  { th with stopped := match th.status with
      | .inRun => true
      | .seated | .arriving => th.kept.isSome
      | .blocked _ | .parked | .waiting | .exited => false }

/-- A team's save begins (R450). -/
def State.beginSave (s : State) (t : TeamId) : State :=
  let stop (c : Command) : Command := if c.coh.team = t then c.pause else c
  let s1 := s.modTeam t fun m => { m with preempt := .saving }
  { s1 with eng := { s1.eng with cmds := s1.eng.cmds.map stop },
            threads := s1.threads.map fun p => if p.1.coh.team = t then (p.1, p.2.stop) else p }

/-- A team chosen for pre-emption (R250, R449, R450): discarded where it is restartable, else to be saved, at once on a core out of service
(R445). One that has exited ends as any other (R252). -/
def State.preemptTeam (s : State) (t : TeamId) : State :=
  match s.team t with
  | none => s
  | some m =>
    if s.teamExited t then s
    else if m.restartable then s.discardTeam t
    else if m.preempt ≠ .no then s
    else if s.rel.fenced.contains m.core then s.beginSave t
    else s.modTeam t fun m => { m with preempt := .chosen s.ptc.toNat }

/-- A placed cluster made a victim, unless it is one: ranks whose teams have ended are gone already. -/
def State.preemptCluster (s : State) (lid k4 : Nat) : State :=
  match s.stage lid with
  | none => s
  | some (l, g, _) =>
    if !(g.placed.any fun c => decide (c.k4 = k4) && !c.victim) then s else
    let ids : List (Nat × TeamId) := (List.range l.desc.tpc).map fun r => (r, teamOf l.desc lid k4 r)
    let isOver := ids.filter fun x => (s.team x.2).isNone
    let gone : List (Fin 8 × SavedTeam) := isOver.map fun (x : Nat × TeamId) => (Fin.ofNat 8 x.1, .done x.2.k3)
    let mark (c : PlacedCluster) : PlacedCluster := if c.k4 = k4 then { c with victim := true, gone := gone } else c
    let s1 := s.modStage lid fun g => { g with placed := g.placed.map mark }
    ids.foldl (fun st x => st.preemptTeam x.2) s1

/-- A team whose threads have all exited and whose cohorts are released has ended (R211, R240, R252). -/
def State.endTeam (s : State) (t : TeamId) : State :=
  match s.team t, s.stage t.lid with
  | some m, some (l, g, _) =>
    let s1 := s.dropTeam t false
    match g.placed.find? fun c => c.k4 = m.k4 with
    | none => s1
    | some c =>
      if c.victim then s1.addGone t m.k4 m.k2.val (.done t.k3)
      else if s1.teams.any fun p => decide (p.1.lid = t.lid ∧ p.2.k4 = m.k4) then s1
      else (s1.modStage t.lid (endCluster l.desc.ncl c)).dropClusterBars t.lid m.k4
  | _, _ => s

/-- Teams that a pre-emption has chosen and that an RGN has made restartable before 100 us have passed, discarded (R450, R252). -/
def State.settlePreempt (s : State) : State :=
  let goes (m : Team) : Bool :=
    match m.preempt with
    | .chosen _ => m.restartable && !m.preempt.saves s.ptc.toNat
    | .no | .saving | .discarded => false
  ((s.teams.filter fun p => goes p.2 && !s.teamExited p.1).map fun p => p.1).foldl (fun st t => st.discardTeam t) s

/-! ### Effective priority and pre-emption -/

/-- Whether a stage has an unplaced cluster (R246). -/
def StageRun.unplaced (g : StageRun) (ncl : Nat) : Bool := !g.saved.isEmpty || decide (g.nextK4 < ncl)

/-- Whether a stage of a pipeline may place (R249); a launch that is none has one stage. -/
def Launch.stageReady (l : Launch) (k : Nat) : Bool :=
  match l.stages[k]? with
  | none => false
  | some g =>
    g.unplaced l.desc.ncl &&
      (l.desc.stages.isEmpty ||
        ((match l.stages[k + 1]? with | some n => decide (n.items.length < 256) | none => true) &&
          (decide (k = 0) || !g.items.isEmpty ||
            (match l.stages[k - 1]? with | some p => decide (l.desc.ncl ≤ p.ended) | none => true))))

/-- Whether a launch may place a cluster: eligible, admitted, and a stage ready. DESIGN CHOICE (log entry 68): a pipeline with unplaced
clusters and no stage that R249 lets place takes no turn of R246. -/
def Launch.ready (l : Launch) : Bool :=
  decide (l.state = .eligible) && l.admitted && (List.range l.stages.length).any fun k => l.stageReady k

/-- W(L) (R246): the time since the oldest unplaced placeable cluster became placeable. -/
def Launch.waited (l : Launch) (now : Nat) : Nat :=
  let fresh := if l.stages.any fun g => decide (g.nextK4 < l.desc.ncl) then [l.since] else []
  match (fresh ++ l.stages.flatMap fun g => g.saved.map fun c => c.since).min? with
  | some t => now - t
  | none => 0

/-- E(L) (R246). -/
def State.effPrio (s : State) (l : Launch) : Nat := min 3 (l.desc.prio + l.waited s.ptc.toNat / (s.cp.ageMs * 1000000))

/-- Whether the hardware would fit a launch once its victims have left. -/
def State.fitAfterVictims (s : State) (l : Launch) : Bool :=
  let drop (g : StageRun) : StageRun := { g with placed := g.placed.filter fun c => !c.victim || c.floor }
  let thin (x : Launch) : Launch := { x with stages := x.stages.map drop }
  let s1 := { s with launches := s.launches.map thin }
  (s1.fit l).isSome

/-- The clusters that Preempt may choose, best first (R250): of launches of lower effective priority, the lowest first and of
those the most recently placed. -/
def State.victimChoice (s : State) (l : Launch) : Option (Nat × Nat) :=
  let e := s.effPrio l
  let cand := s.launches.flatMap fun x => x.stages.flatMap fun g =>
    (g.placed.filter fun c => !c.floor && !c.victim && decide (s.effPrio x < e)).map fun c => (s.effPrio x, c.order, g.lid, c.k4)
  let better (a b : Nat × Nat × Nat × Nat) : Bool := decide (a.1 < b.1 ∨ (a.1 = b.1 ∧ b.2.1 < a.2.1))
  (cand.foldl (fun (acc : Option (Nat × Nat × Nat × Nat)) c =>
    match acc with
    | none => some c
    | some b => if better c b then some c else acc) none).map fun c => (c.2.2.1, c.2.2.2)

/-- More than the clusters that can be resident: 16 cohorts on each of 8 partitions of 192 cores (R243). -/
def clusterFuel : Nat := 24577

/-- Preempt(L) (R250): victims one at a time until one cluster of L would fit; fuel bounds their number. -/
def State.preempt (fuel : Nat) (l : Launch) (s : State) : State :=
  match fuel with
  | 0 => s
  | n + 1 =>
    if s.fitAfterVictims l then s
    else
      match s.victimChoice l with
      | none => s
      | some (lid, k4) => State.preempt n l (s.preemptCluster lid k4)

/-! ### The placement pass -/

/-- The oldest launch of a queue that stands in it (R239). -/
def State.queueHead (s : State) (q : Nat) : Option Launch := s.launches.find? fun l => decide (l.desc.queue = q) && !l.left

/-- A launch leaves the head of its queue once its last cluster is placed, or its floors are reserved (R239). -/
def State.leaveHeads (s : State) : State :=
  let isOver (l : Launch) : Bool :=
    if l.desc.stages.isEmpty then l.stages.all fun g => decide (l.desc.ncl ≤ g.nextK4) else l.admitted
  { s with launches := s.launches.map fun l => if isOver l then { l with left := true } else l }

/-- The launch of a queue at an effective priority that may place: only the queue's head and those that have left it have begun placement
(R239). DESIGN CHOICE (log entry 68): the oldest of them takes the queue's turn. -/
def State.candidate (s : State) (e q : Nat) : Option Launch :=
  let head := (s.queueHead q).bind fun l => l.stages.head?.map fun g => g.lid
  s.launches.find? fun l =>
    decide (l.desc.queue = q) && (l.left || decide ((l.stages.head?.map fun g => g.lid) = head)) && l.ready && decide (s.effPrio l = e)

/-- The stage that a turn places (R249): most items in its input queue, ties to the later; the free floors apart. -/
def Launch.turnStage (l : Launch) : Option Nat :=
  let ks := (List.range l.stages.length).filter fun k => l.stageReady k
  let items (k : Nat) : Nat := if k = 0 then 0 else ((l.stages[k]?).map fun g => g.items.length).getD 0
  ks.foldl (fun (acc : Option Nat) k => match acc with
    | none => some k
    | some b => if items b ≤ items k then some k else acc) none

/-- A launch's present form. -/
def State.again (s : State) (l : Launch) : Launch := ((l.stages.head?).bind fun g => s.launchOf g.lid).getD l

/-- Free floor placements serve their own stages first (R249), where the CP may place (R287, R445). -/
def State.placeFloors (s : State) (l : Launch) : State :=
  (List.range l.stages.length).foldl (fun st k =>
    let l1 := st.again l
    match l1.stages[k]? with
    | none => st
    | some g =>
      match l1.stageReady k, g.floors.find? fun f => f.places.all fun p => st.coreOpen l1 p.core with
      | true, some f =>
        (st.modStage g.lid fun g => { g with floors := g.floors.erase f }).placeCluster g.lid (f.die, f.hw, f.places) true
      | _, _ => st) s

/-- The next queue after the cursor with a candidate, skipping those blocked. -/
def State.nextQueue (s : State) (e : Fin 4) (blocked : List Nat) : Option (Nat × Launch) :=
  (List.range 64).findSome? fun i =>
    let q := (s.cp.cursor[e] + 1 + i) % 64
    if blocked.contains q then none else (s.candidate e.val q).map fun l => (q, l)

/-- A queue's credit set. -/
def State.setCredit (s : State) (q n : Nat) : State :=
  { s with cp := { s.cp with credit := s.cp.credit.set (q % 64) n (Nat.mod_lt _ (by decide)) } }

/-- One turn of a level (R246, R249): the state after it, and whether the queue is blocked. -/
def State.turn (s : State) (q : Nat) (l : Launch) : Bool × State :=
  let c := min 8 (s.cp.credit[q % 64]'(Nat.mod_lt _ (by decide)) + 1)
  let s1 := (s.setCredit q c).placeFloors l
  let l1 := s1.again l
  if c < l1.desc.tpc ∨ l1.ready = false then (false, s1)
  else
    match l1.turnStage.bind fun k => l1.stages[k]? with
    | none => (false, s1)
    | some g =>
      match s1.fit l1 with
      | some x => (false, (s1.placeCluster g.lid x false).setCredit q (c - l1.desc.tpc))
      | none => (true, State.preempt clusterFuel l1 s1)

/-- The turns of one level until no queue has one left (R246): whether any queue was blocked; fuel bounds their number. -/
def placeLevel (fuel : Nat) (e : Fin 4) (blocked : List Nat) (s : State) : Bool × State :=
  match fuel with
  | 0 => (!blocked.isEmpty, s)
  | n + 1 =>
    match s.nextQueue e blocked with
    | none => (!blocked.isEmpty, s)
    | some (q, l) =>
      let (b, s1) := s.turn q l
      let s2 := { s1 with cp := { s1.cp with cursor := s1.cp.cursor.set e q } }
      placeLevel n e (if b then q :: blocked else blocked) s2.leaveHeads

/-- Floors for a pipeline's stages, all or none, with its gates on their dies (R248, R243). -/
def State.reserveFloors (s : State) (l : Launch) : Option State :=
  let want := l.stages.zip (l.desc.stages.map fun d => d.floor / l.desc.tpc)
  let ids := want.flatMap fun x => List.replicate x.2 x.1.lid
  ids.foldl (fun (acc : Option State) lid =>
    acc.bind fun st =>
      ((st.launchOf lid).bind fun l => st.fit l).map fun x =>
        (st.modStage lid fun g => { g with floors := g.floors ++ [{ die := x.1, hw := x.2.1, places := x.2.2 }] }).reserveGates lid x.1) (some s)

/-- Pipelines at the heads of their queues admitted where all their floors fit at once (R248). DESIGN CHOICE (log entry 68): a placement
pass tries them at its start, the queues in ascending order, whatever their priorities. -/
def State.admitPipelines (s : State) : State :=
  (List.range 64).foldl (fun st q =>
    match st.queueHead q with
    | none => st
    | some l =>
      if l.admitted = false ∧ l.state = .eligible then
        match st.reserveFloors l, l.stages.head? with
        | some st1, some g => st1.modLaunch g.lid fun l => { l with admitted := true, left := true, since := st.ptc.toNat }
        | _, _ => st
      else st) s

/-- Credit is cleared where a queue has no eligible launch (R246). -/
def State.clearCredit (s : State) : State :=
  { s with cp := { s.cp with credit := s.cp.credit.mapIdx fun q c =>
      if (s.launches.any fun l => decide (l.desc.queue = q ∧ l.state = .eligible)) then c else 0 } }

/-- The turns a pass can take at most. -/
def passFuel : Nat := 16777216

/-- One run of the placement algorithm (R246). -/
def State.placementPass (s : State) : State :=
  let s0 := (s.clearCredit.admitPipelines).leaveHeads
  let level (acc : Bool × State) (e : Fin 4) : Bool × State := if acc.1 then acc else placeLevel passFuel e [] acc.2
  ([(3 : Fin 4), 2, 1, 0].foldl level (false, s0)).2

/-! ### Ends of launches -/

/-- Every resident team of a launch removed without a save, its commands cancelled, nothing of it placed again (R240, R369). -/
def State.clearLaunch (s : State) (l : Launch) : State :=
  let lids := l.stages.map fun g => g.lid
  let ts := (s.teams.filter fun p => lids.contains p.1.lid).map fun p => p.1
  let others := (s.eng.cmds.filter fun c => lids.contains c.coh.team.lid).map fun c => c.coh.team
  let s1 := (ts ++ others).eraseDups.foldl (fun st t => (st.muteCmds t).dropTeam t false) s
  let wipe (g : StageRun) : StageRun := { g with placed := [], saved := [], floors := [] }
  let images := (l.stages.flatMap fun g => (g.saved.flatMap fun c => c.teams) ++ g.placed.flatMap fun c => c.gone).countP fun x =>
    match x.2 with | .image _ _ _ _ _ _ _ => true | .restart _ _ _ | .done _ => false
  let s2 := { s1 with
    rel := { s1.rel with saveFree := s1.rel.saveFree + images },
    vnp := { s1.vnp with rfq := s1.vnp.rfq.filter fun r => !lids.contains r.lid },
    barriers := s1.barriers.filter fun p => (match p.1.owner with | .cluster lid _ => !lids.contains lid | _ => true) }
  lids.foldl (fun st lid => st.modStage lid wipe) s2

/-- A launch ends abnormally (R240). -/
def State.abnormalEnd (s : State) (lid : Nat) : State :=
  match s.launchOf lid with
  | none => s
  | some l => ((s.clearLaunch l).modLaunch lid fun l => { l with state := .ending false, left := true }).clearCredit

/-- A page of a snapshot put back, sector by sector, at the base die and with no copy above it left (R500). -/
def State.restorePage (s : State) (p : SnapPage) : State :=
  (List.range 2048).foldl (fun st i =>
    let a := p.page * 65536 + 32 * i
    let bare := { st with mem := { st.mem with l2 := terase st.mem.l2 (a / 32), writeBacks := st.mem.writeBacks.filter fun w => w.sector ≠ a / 32 } }
    baseStore (bare.dropCopies a [a / 32 % 128]) (a / 32) (cellGetAll 0#8 a 32 p.cells) false) s

/-- What a launch has on its way is gone before it is replayed (R500): its accesses, maintenance, scratch passes, releases and commands. -/
def State.dropWork (s : State) (lids : List Nat) : State :=
  let mine (t : Tid) : Bool := lids.contains t.coh.team.lid
  let m := s.mem
  let out := (s.eng.cmds.filter fun c => lids.contains c.coh.team.lid).map fun c => c.id
  let s1 := { s with mem := { m with accesses := m.accesses.filter fun a => !mine a.tid, maints := m.maints.filter fun x => !mine x.tid,
                                     passes := m.passes.filter fun p => !mine p.tid, releases := m.releases.filter fun r => !mine r.tid } }
  out.foldl (fun st id => { (st.dropFromBanks id) with eng := { ((st.dropFromBanks id).eng.forget id) with cmds := st.eng.cmds.filter fun c => c.id ≠ id } }) s1

/-- Whether a launch may be replayed (R498, R500). -/
def Launch.mayReplay (l : Launch) : Bool := l.replayable && !l.replayed

/-- Whether a page of a launch's snapshot is poisoned (R500). -/
def Launch.badSnapshot (l : Launch) : Bool := l.snapshot.any fun p => p.poison

/-- A replayable launch placed again after poison or a pipeline error (R500). -/
def State.replayLaunch (s : State) (l : Launch) : State :=
  match l.stages.head? with
  | none => s
  | some g =>
      let s1 := ((s.report 13 0 0).clearLaunch l).dropWork (l.stages.map fun g => g.lid)
      let s2 := l.snapshot.foldl State.restorePage s1
      let again (g : StageRun) : StageRun := { g with nextK4 := 0, ended := 0, items := [] }
      let s3 := s2.modLaunch g.lid fun l =>
        { l with state := .queued, left := false, told := [], since := 0, admitted := l.desc.stages.isEmpty, gateDies := [],
                 replayed := true, replayable := true, snapshot := [], stages := l.stages.map again }
      State.clearCredit { s3 with mem := { s3.mem with gates := s3.mem.gates.filter fun x => decide (x.lid ≠ g.lid) },
                                  rel := { s3.rel with snapFree := s3.rel.snapFree + l.snapshot.length } }

/-- Order in which a report names its thread (R441): die, core, partition, lane, team and cohort. -/
def reportKey (r : TrapReport) : List Nat :=
  [r.core.die, r.core.core, r.part, r.tid.lane.val, r.tid.coh.team.k3, r.tid.coh.k1]

/-- Lexicographic order. -/
def lexLe : List Nat → List Nat → Bool
  | x :: xs, y :: ys => if x < y then true else if y < x then false else lexLe xs ys
  | _, _ => true

/-- Whether an undelivered trap lets its launch be replayed (R500). -/
def TrapReport.replays (r : TrapReport) : Bool := [12, 16].contains ((r.record[0]).toNat % 32)

/-- The undelivered traps of a cycle: each launch that met one ends, with a report of the lowest, or is replayed (R441, R500). -/
def State.settleTraps (s : State) : State :=
  let first (lid : Nat) : Nat := s.gateLid lid
  let lids := (s.traps.map fun r => first r.tid.coh.team.lid).eraseDups
  let one (st : State) (lid : Nat) : State :=
    let rs := s.traps.filter fun r => first r.tid.coh.team.lid = lid
    match st.launchOf lid, rs.foldl (fun (acc : Option TrapReport) r => match acc with
        | none => some r
        | some b => if lexLe (reportKey b) (reportKey r) then acc else some r) none with
    | some l, some r =>
      match l.state with
      | .ending _ => st.modLaunch lid fun l => { l with trapCount := l.trapCount + rs.length }
      | .queued | .eligible =>
        let again := l.mayReplay && rs.all TrapReport.replays
        if again && !l.badSnapshot then st.replayLaunch l
        else
          let st0 := if again || (l.replayed && rs.all TrapReport.replays) then st.report 14 0 0 else st
          let st1 := { st0 with cp := { st0.cp with
            reports := st0.cp.reports ++ [HostReport.trap r.tid.coh.team.lid r.tid r.core r.record r.latches (rs.length - 1)] } }
          (st1.abnormalEnd lid).modLaunch lid fun l => { l with trapCount := l.trapCount + rs.length - 1 }
    | _, _ => st
  lids.foldl one { s with traps := [] }

end Sys2Proof.Machine
end

