-- ==== Sys2Proof/Machine/EventsCore.lean ====
section
/-!
DEFINITION. Steps of the cores and the memory system that no instruction makes: second copies of lines (R37), admissions and
retries (R191, R444), register writes (R25), deadlines (R221, R228), cohort release (R211), windows (R560), subscriptions
(R279), gates (R307), homes and base dies (R284, R290, R331, R332), the weight store (R285, R286), page walks, shootdowns and
the waits of R463 and R467. A step whose condition does not hold changes nothing.
-/

namespace Sys2Proof.Machine

open Host (Outcome)

/-! ### Issue -/

/-- FETCH_PARITY_REFETCH (R37). -/
def execFetchParityRefetch (p : PartId) (line : Pc) (s : State) : Outcome State Fault Refusal := .next (refetch s p line)

/-- Admissions of a partition in the 1,024 cycles that end with a cycle (R191). -/
def Part.recent (q : Part) (now : Nat) : List Nat := q.admissions.filter fun c => decide (now < c + 1024)

/-- The oldest replayed group that waits admitted (R191). -/
def admitFirst (now : Nat) : List Replay → List Replay
  | [] => []
  | r :: rest => if r.admitted.isNone then { r with admitted := some now } :: rest else r :: admitFirst now rest

/-- REPLAY_ADMISSION (R191): wake order, at most 8 in any 1,024 consecutive cycles. -/
def execReplayAdmission (p : PartId) (s : State) : Outcome State Fault Refusal :=
  let q := s.partition p
  let recent := q.recent s.cycle
  if (q.replays.any fun r => r.admitted.isNone) && decide (recent.length < 8) then
    .next ((s.setPart p { q with replays := admitFirst s.cycle q.replays, admissions := recent ++ [s.cycle] }).bump (.core p.core) 4)
  else .next s

/-- A core out of service, and the teams of other launches on it pre-empted (R445, R501): the save of one that waits for a region entry
begins at once. -/
def State.fence (s : State) (core : CoreId) (but : Nat) : State :=
  let s1 := { s with rel := { s.rel with fenced := core :: s.rel.fenced.filter fun c => decide (c ≠ core) } }
  let others := (s1.teams.filter fun p => decide (p.2.core = core ∧ s1.gateLid p.1.lid ≠ but)).map fun p => (p.1.lid, p.2.k4)
  let s2 := others.eraseDups.foldl (fun st x => st.preemptCluster x.1 x.2) s1
  let chosen (m : Team) : Bool := decide (m.core = core) && (match m.preempt with | .chosen _ => true | .no | .saving | .discarded => false)
  ((s2.teams.filter fun p => chosen p.2 && !p.2.restartable && !s2.teamExited p.1).map fun p => p.1).foldl (fun st t => st.beginSave t) s2

/-- Pipeline error (R431): the failing unit. -/
def pipelineError (unit : Nat) : Trap := { cls := 16, info2 := BitVec.ofNat 32 unit }

/-- The units of R431 that the execution of an opcode uses: 0 integer, 1 floating, 2 address, 3 shifter or logic, 4 engine. DESIGN
CHOICE (log entry 65): R443 says beside what its checkers stand, and not which instructions use it. -/
def unitsOf (op : Nat) : List Nat :=
  if op ≤ 0x12 ∨ (0x30 ≤ op ∧ op ≤ 0x32) ∨ op = 0x38 then [0]
  else if op ≤ 0x20 ∨ op = 0x37 ∨ (0x39 ≤ op ∧ op ≤ 0x3B) then [3]
  else if op = 0x21 then [0, 2]
  else if (0x33 ≤ op ∧ op ≤ 0x36) ∨ (0x40 ≤ op ∧ op ≤ 0x69) then [1]
  else if op = 0x7B then [0, 2]
  else if op ≤ 0x78 ∨ op = 0x7A ∨ (0x80 ≤ op ∧ op ≤ 0xAB) ∨ op = 0xB8 ∨ op = 0xBA ∨ op = 0xBB ∨ op = 0xE4 ∨ op = 0xE5 then [2]
  else if op = 0xB2 ∨ op = 0xB3 then [3]
  else if 0xC0 ≤ op ∧ op ≤ 0xD5 then [4]
  else []

/-- Whether a unit's checker looks at an instruction of a thread (R443): the thread executes it, and it uses the unit. -/
def State.unitUsed (s : State) (t : Tid) (w : IWord) (unit : Nat) : Bool :=
  match decode w with
  | .ok i => s.executes t i && (viewOf i).any fun v => (unitsOf v.op).contains unit
  | .error _ => false

/-- Whether a checker of a unit looks at the second slot of the pair that a thread issues next (R40, R443). -/
def State.secondUsed (s : State) (t : Tid) (bs : List Byte) (n unit : Nat) : Bool :=
  decide (lineTpl bs n = 2 ∧ pairBad bs n = false) && s.unitUsed t (slotWord bs (n + 1)) unit

/-- RESIDUE_RETRY (R443 to R445). The mismatching execution wrote nothing. A retry that passes is counted, and its group is the
partition's next to issue; one that fails is a lasting error of its core: at once, or for a mismatch in the second slot of a pair once
the group's retry has carried the first out (R44). -/
def execResidueRetry (p : PartId) (t : Tid) (unit : Nat) (passes : Bool) (s : State) : Outcome State Fault Refusal :=
  let th := s.thread t
  if (th.status ≠ .inRun ∧ th.status ≠ .seated) ∨ (s.cohort t.coh).part ≠ p then .next s
  else
    match fetchLine false s t th.pc with
    | (.line bs, s1) =>
      let first := s.unitUsed t (slotWord bs (slotOf th.pc)) unit
      if first = false ∧ s.secondUsed t bs (slotOf th.pc) unit = false then .next s
      else if passes then .next ((s.setPart p { s.partition p with retry := some t }).transient p.core 5)
      else if first = false then
        let s2 := s.modThread t fun th => { th with failing := some (nextPc th.pc, unit) }
        .next (((s2.setPart p { s2.partition p with retry := some t }).report 6 0 (locCore p.core)).fence p.core (s.gateLid t.coh.team.lid))
      else
        let s2 := s1.trapNow (issueAt p th.pc bs [t] (s.runSlots p t)) t (pipelineError unit)
        .next ((s2.report 6 0 (locCore p.core)).fence p.core (s.gateLid t.coh.team.lid))
    | _ => .next s

/-! ### Registers, deadlines, release -/

/-- The words of the frame that a WRSTR loads have all come (R152): the entries, SPA and WRES take their values, and the thread goes
on. -/
def Thread.fillFrame (th : Thread) (ws : List Word) : Thread :=
  let cells := ws.zipIdx.map fun x => (RegCell.stk (16 * th.spilledFrame + x.2), x.1)
  let th1 := writeCells th cells
  { th1 with spa := th.spa - 64#57, wres := th.wres + 1, wait := none }

/-- REGISTER_WRITE_COMPLETE (R25, R152). -/
def execRegisterWriteComplete (id : Nat) (s : State) : Outcome State Fault Refusal :=
  match s.mem.arrivals.find? fun a => a.pend = id with
  | none => .next s
  | some a =>
    let s1 := { s with mem := { s.mem with arrivals := s.mem.arrivals.filter fun b => b.pend ≠ id } }
    if (s.thread a.tid).wait = some (.frame id) then .next (s1.modThread a.tid fun th => th.fillFrame a.words)
    else .next (completePend s1 a.tid id a.words)

/-- BARWT_DEADLINE (R221): the thread is released without the phase. -/
def execBarwtDeadline (t : Tid) (s : State) : Outcome State Fault Refusal := .next (s.modThread t (timeOut s.ptc))

/-- A thread whose WAITT time has come (R228). -/
def wakeTime (now : DWord) (th : Thread) : Thread :=
  match th.status, th.wait with
  | .waiting, some (.time T) =>
    if T.toNat ≤ now.toNat then { th with status := .arriving, wait := none, latches := noLatches, kept := none } else th
  | _, _ => th

/-- WAITT_EXPIRY (R228). -/
def execWaittExpiry (t : Tid) (s : State) : Outcome State Fault Refusal := .next (s.modThread t (wakeTime s.ptc))

/-- Whether a cohort may be released (R211, R368): all its threads Exited, no write to its registers outstanding, no token
claimed, no command unreported. -/
def State.releasable (s : State) (c : CohId) : Bool :=
  !(s.mem.passes.any fun p => decide (p.tid.coh = c)) &&
  let ths := s.threads.filter fun p => decide (p.1.coh = c)
  let co := s.cohort c
  (tget s.cohorts c).isSome && (ths.all fun p => decide (p.2.status = .exited) && p.2.pends.isEmpty) && co.pends.isEmpty &&
    co.claims.isEmpty && !(s.eng.cmds.any fun x => decide (x.coh = c))

/-- A cohort's registers, counters, convergence stack, threads and barriers cease to exist (R211). -/
def State.releaseCohort (s : State) (c : CohId) : State :=
  { s with threads := s.threads.filter fun p => decide (p.1.coh ≠ c), cohorts := terase s.cohorts c,
           barriers := s.barriers.filter fun p => decide (p.1.owner ≠ .cohort c) }

/-- COHORT_RELEASE (R211); with its last cohort a team has ended. -/
def execCohortRelease (c : CohId) (s : State) : Outcome State Fault Refusal :=
  if s.releasable c then
    let s1 := s.releaseCohort c
    .next (if s1.cohorts.any fun p => decide (p.1.team = c.team) then s1 else s1.endTeam c.team)
  else .next s

/-! ### Windows -/

/-- WINDOW_ACCESS_ARRIVAL (R560, R265): behind the passes that its thread has before it (R312). -/
def execWindowAccessArrival (id : Nat) (s : State) : Outcome State Fault Refusal :=
  match s.mem.windows.find? fun w => w.id = id ∧ w.arrived = false with
  | some a => if s.mem.passes.any fun p => p.tid = a.tid then .next s else .next (arriveWindow s a)
  | none => .next s

/-- WINDOW_ANSWER (R264, R560). -/
def execWindowAnswer (id : Nat) (s : State) : Outcome State Fault Refusal :=
  match s.mem.windows.find? fun w => w.id = id with
  | some a =>
    match a.answer with
    | some r => if s.behindLane a then .next s else .next (finishWindow s a r)
    | none => .next s
  | none => .next s

/-! ### Subscriptions -/

/-- The notice of a number, of a kind, which is the oldest on its way to its core about its tile: those of one tile keep their order
(R279, R303). -/
def State.notice (s : State) (id : Nat) (update : Bool) : Option Notice :=
  (s.mem.notices.find? fun n => n.id = id ∧ n.update = update).filter fun n =>
    !(s.mem.notices.any fun m => decide (m.id < n.id ∧ m.core = n.core ∧ m.pa = n.pa))

/-- A notice taken: it is acknowledged (R307), and its core's copy of the tile changed. -/
def State.takeNotice (s : State) (n : Notice) (f : Subscription → Subscription) : State :=
  let upd (x : Subscription) : Subscription := if x.core = n.core ∧ x.pa = n.pa then f x else x
  { s with mem := { s.mem with notices := s.mem.notices.filter fun m => m.id ≠ n.id, subs := s.mem.subs.map upd } }

/-- One element of a copy replaced where its sector is valid (R279). -/
def Subscription.setElem (x : Subscription) (e : Nat × Nat) : Subscription :=
  { x with sectors := tmod x.sectors (e.1 / 8) fun l => l.set (e.1 % 8) (subEnc x.fmt e.2) }

/-- SUBSCRIPTION_UPDATE (R279). -/
def execSubscriptionUpdate (id : Nat) (s : State) : Outcome State Fault Refusal :=
  match s.notice id true with
  | some n => .next (s.takeNotice n fun x => n.elems.foldl Subscription.setElem x)
  | none => .next s

/-- SUBSCRIPTION_INVALIDATION (R279). -/
def execSubscriptionInvalidation (id : Nat) (s : State) : Outcome State Fault Refusal :=
  match s.notice id false with
  | some n => .next (s.takeNotice n fun x => { x with sectors := x.sectors.filter fun p => !n.sectors.contains p.1 })
  | none => .next s

/-! ### Gates -/

/-- Whether the writes before a release have performed and their notifications are acknowledged (R307). -/
def State.releaseReady (s : State) (r : Release) : Bool := r.waits.all fun i => !s.unperformed i

/-- Releases whose writes have performed reach their home (R307). -/
def State.sendReleases (s : State) : State :=
  let go (r : Release) : Release := if r.arrived.isNone && s.releaseReady r then { r with arrived := some s.cycle } else r
  { s with mem := { s.mem with releases := s.mem.releases.map go } }

/-- The order of releases at their home (R307): by the cycle in which they have reached it, those of one cycle by their threads' places. -/
def releaseKey (r : Release) : List Nat :=
  [r.arrived.getD 0, r.core.die, r.core.core, r.part, r.tid.lane.val, r.tid.coh.team.k3, r.tid.coh.k1]

/-- A gate after a release: its home and every replica (R306, R307). -/
def Gate.release (g : Gate) (ri : Nat) (dies : List Nat) : Gate :=
  let cnt := g.cnt + 1#32
  { g with rv := true, ri := ri, cnt := cnt, replicas := dies.map fun d => (d, true, ri, cnt) }

/-- The first release of a gate that has reached its home, in a cycle that is over. -/
def State.firstRelease (s : State) (lid gate : Nat) : Option Release :=
  (s.mem.releases.filter fun r => decide (r.lid = lid ∧ r.num = gate) && r.arrived.any fun c => c < s.cycle).foldl (fun (acc : Option Release) r =>
    match acc with
    | none => some r
    | some b => if lexLe (releaseKey b) (releaseKey r) then acc else some r) none

/-- GATE_RELEASE_APPLY (R307, R306). -/
def execGateReleaseApply (lid gate : Nat) (s : State) : Outcome State Fault Refusal :=
  match s.firstRelease lid gate with
  | none => .next s
  | some r =>
    let dies := ((s.launchOf lid).map fun l => l.gateDies).getD []
    let g := (s.gate lid gate).release r.ri dies
    let rest := s.mem.gates.filter fun x => !(decide (x.lid = lid ∧ x.num = gate))
    .next { s with mem := { s.mem with gates := rest ++ [g], releases := s.mem.releases.filter fun x => x.id ≠ r.id } }

/-! ### Homes and base dies -/

/-- HOME_ACCESS_PERFORM (R284, R289, R300). -/
def execHomeAccessPerform (id : Nat) (s : State) : Outcome State Fault Refusal :=
  match s.mem.accesses.find? fun a => a.id = id with
  | some a => if s.mayPerform a then .next (performAccess s a) else .next s
  | none => .next s

/-- L2_EVICTION (R284, R280). -/
def execL2Eviction (line : Nat) (s : State) : Outcome State Fault Refusal :=
  if ((lineSectors line).any fun x => (tget s.mem.l2 x).isSome) then .next (evictLine line s) else .next s

/-- MEMSIDE_CAPACITY_EVICTION (R289, R290): a counted line is written back first, and its count is lost. -/
def execMemsideCapacityEviction (line : Nat) (s : State) : Outcome State Fault Refusal :=
  if (tget s.mem.counted line).isSome || s.mem.held.any fun p => p.1 / 4 = line then .next (evictSide line s) else .next s

/-- One sector of CLNR at its home (R332, R331): a dirty one is written back and becomes clean. -/
def cleanSector (t : Tid) (s : State) (sec : Nat) : State :=
  match tget s.mem.l2 sec with
  | some l =>
    if l.dirty then
      let (id, s1) := s.fresh
      let w : WriteBackMsg := { id := id, tid := t, sector := sec, data := l.data, poison := l.poison }
      { s1 with mem := { s1.mem with l2 := tput s1.mem.l2 sec { l with dirty := false }, writeBacks := s1.mem.writeBacks ++ [w] } }
    else s
  | none => s

/-- A sector's home copy and its subscribed copies invalidated (R332). -/
def forgetSector (s : State) (sec : Nat) : State :=
  let s1 := { s with mem := { s.mem with l2 := terase s.mem.l2 sec } }
  s1.dropCopies (32 * sec) [sec % 128]

/-- Sectors of a maintenance instruction's range: virtual and physical, each by 32. -/
def Maint.sectors (m : Maint) : List (Nat × Nat) :=
  m.ranges.flatMap fun r => (List.range (r.2.2 / 32)).map fun i => (r.1 / 32 + i, r.2.1 / 32 + i)

/-- One sector of a maintenance instruction (R332). -/
def maintSector (m : Maint) (s : State) (x : Nat × Nat) : State :=
  let bare (s : State) : State := s.keepL1 fun k _ => !(decide (k.core = m.core ∧ k.asid = m.asid ∧ k.sector = x.1))
  match m.kind with
  | .clean => cleanSector m.tid s x.2
  | .inval => bare (forgetSector (cleanSector m.tid s x.2) x.2)
  | .discard => bare (forgetSector s x.2)

/-- Whether a maintenance instruction discards dirty data of a sector, which counts as a write (R301). -/
def Maint.discards (m : Maint) (s : State) (sec : Nat) : Bool :=
  decide (m.kind = .discard) && (tget s.mem.l2 sec).any fun l => l.dirty

/-- MAINTENANCE_COMPLETE (R332): after the thread's earlier accesses and maintenance to its lines (R300, R509), and once the snapshot holds
what it discards (R499). -/
def execMaintenanceComplete (id : Nat) (s : State) : Outcome State Fault Refusal :=
  match s.mem.maints.find? fun m => m.id = id with
  | none => .next s
  | some m =>
    let secs := m.sectors
    let before (a : Access) : Bool := decide (a.id < m.id ∧ a.tid = m.tid) && m.covers (a.pa / 32)
    let older (q : Maint) : Bool := decide (q.id < m.id ∧ q.tid = m.tid) && secs.any fun x => q.covers x.2
    let held (x : Nat × Nat) : Bool := m.discards s x.2 && s.snapshotBlocks m.tid.coh.team.lid (32 * x.2)
    if s.mem.accesses.any before || s.mem.maints.any older || secs.any held || (s.edgeOpen m.tid.coh.team && !s.beforeEdge m.tid.coh.team m.tid m.id) then .next s
    else
      let s1 := secs.foldl (maintSector m) s
      .next { s1 with mem := { s1.mem with maints := s1.mem.maints.filter fun q => q.id ≠ id } }

/-- WRITE_BACK_ACCEPT (R331): the base die takes a write-back; those of one sector in order. -/
def execWriteBackAccept (id : Nat) (s : State) : Outcome State Fault Refusal :=
  match s.mem.writeBacks.find? fun w => w.id = id with
  | none => .next s
  | some w =>
    if s.mem.writeBacks.any fun v => decide (v.id < id ∧ v.sector = w.sector) then .next s
    else
      let s1 := { s with mem := { s.mem with writeBacks := s.mem.writeBacks.filter fun v => v.id ≠ id } }
      .next (baseStore s1 w.sector w.data w.poison)

/-! ### The weight store's refresh -/

/-- WEIGHT_REFRESH_START (R285). -/
def execWeightRefreshStart (die bank : Nat) (s : State) : Outcome State Fault Refusal :=
  if refreshes s.ptc.toNat bank && !s.mem.refreshing.contains (die, bank) then
    .next { s with mem := { s.mem with refreshing := s.mem.refreshing ++ [(die, bank)] } }
  else .next s

/-- WEIGHT_REFRESH_END (R285, R286): the pieces that waited go on. -/
def execWeightRefreshEnd (die bank : Nat) (s : State) : Outcome State Fault Refusal :=
  if refreshes s.ptc.toNat bank then .next s
  else
    let m := s.mem
    let mine (a : Arrival) : Bool := decide (a.bank = some (die, bank))
    .next { s with mem := { m with refreshing := m.refreshing.filter fun x => decide (x ≠ (die, bank)),
                                   weightReads := m.weightReads.filter fun a => !mine a,
                                   arrivals := m.arrivals ++ m.weightReads.filter mine } }

/-! ### Translation and waits -/

/-- PAGE_WALK (R458, R460, R462): the leaf's A and D bits set and its translation cached; what it cannot find, the access that
needs it meets itself (R465). -/
def execPageWalk (core : CoreId) (queue : Nat) (va : Nat) (kind : AccKind) (s : State) : Outcome State Fault Refusal :=
  match tget s.bindings queue with
  | none => .next s
  | some b => .next (translate s core b.1 (some b.2) va kind).2

/-- Waits of threads ended where a test holds. -/
def State.endWaits (s : State) (f : Tid → WaitWhy → Bool) : State :=
  { s with threads := s.threads.map fun p =>
      match p.2.wait with
      | some w => if f p.1 w then (p.1, { p.2 with wait := none }) else p
      | none => p }

/-- MISS_TABLE_WAIT_END (R463). -/
def execMissTableWaitEnd (core : CoreId) (s : State) : Outcome State Fault Refusal :=
  if s.missRoom core 1 then .next (s.endWaits fun t w => decide (w = .missTable ∧ s.coreOf t = core)) else .next s

/-- TLB entries of a range removed from every TLB (R464). -/
def State.dropTlb (s : State) (asid vpn pages : Nat) : State :=
  let out (e : TlbEntry) : Bool := decide (e.asid = asid ∧ e.vpn < vpn + pages ∧ vpn < e.vpn + e.pages)
  let thin (l : List TlbEntry) : List TlbEntry := l.filter fun e => !out e
  { s with mem := { s.mem with coreTlb := s.mem.coreTlb.map fun p => (p.1, thin p.2), dieTlb := s.mem.dieTlb.map fun p => (p.1, thin p.2) } }

/-- A host command completed (R552). -/
def State.complete (s : State) (seq : Word) (status : Nat) : State :=
  { s with cp := { s.cp with completions := s.cp.completions ++ [(seq, status)] } }

/-- Whether a host command has not completed that the next ones wait for (R552): a SHOOT, or a return from P4 or P5 (R554). -/
def State.ringBusy (s : State) : Bool :=
  (s.mem.shootdowns.any fun d => d.seq.isSome) || s.module.power.any fun p => p.2.returning.isSome

/-- A host command taken (R552): none while an earlier one has not completed. -/
def hostCommand (f : State → State) (s : State) : Outcome State Fault Refusal := if s.ringBusy then .next s else .next (f s)

/-- What has been translated in a range of pages and is not over (R464): accesses, loads whose data has not all come, and maintenance. -/
def State.translatedIn (s : State) (asid vpn pages : Nat) : List Nat :=
  let inside (p : PageKey) : Bool := decide (p.asid = asid ∧ vpn ≤ p.vpn ∧ p.vpn < vpn + pages)
  let act (m : Maint) : Bool := decide (m.asid = asid) && m.ranges.any fun r =>
    decide (65536 * vpn < r.1 + r.2.2 ∧ r.1 < 65536 * (vpn + pages))
  ((s.mem.accesses.filter fun a => inside a.page).flatMap fun a => a.id :: (a.ret.map fun r => r.pend).toList) ++
    ((s.mem.arrivals.filter fun a => a.page.any inside).map fun a => a.pend) ++
    ((s.mem.gathers.filter fun g => g.page.any inside).map fun g => g.id) ++ (s.mem.maints.filter act).map fun m => m.id

/-- Whether something of a number has been translated and is not over: an access, a load's data, or maintenance. -/
def State.translatedBusy (s : State) (i : Nat) : Bool :=
  (s.mem.accesses.any fun a => a.id = i) || (s.mem.arrivals.any fun a => a.pend = i) || (s.mem.gathers.any fun g => g.id = i) ||
    s.mem.maints.any fun m => m.id = i

/-- A shootdown issued (R464): its translations go, and it waits for the accesses translated through them and, of loads, for the
data. -/
def State.shootdown (s : State) (asid vpn pages : Nat) (seq : Option Word) : State :=
  let (id, s1) := (s.dropTlb asid vpn pages).fresh
  let d : Shootdown := { id := id, asid := asid, vpn := vpn, pages := pages, waits := s.translatedIn asid vpn pages, seq := seq }
  { s1 with mem := { s1.mem with shootdowns := s1.mem.shootdowns ++ [d] } }

/-- TRANSLATION_SHOOTDOWN (R464): complete once no TLB holds a translation in the range and the accesses have performed. -/
def execTranslationShootdown (id : Nat) (s : State) : Outcome State Fault Refusal :=
  match s.mem.shootdowns.find? fun d => d.id = id with
  | none => .next s
  | some d =>
    if d.waits.any s.translatedBusy then .next s
    else
      let s1 := s.dropTlb d.asid d.vpn d.pages
      let s2 := { s1 with mem := { s1.mem with shootdowns := s1.mem.shootdowns.filter fun x => x.id ≠ id } }
      .next (match d.seq with | some q => s2.complete q 0 | none => s2)

/-- RFQ_WAIT_END (R467). -/
def execRfqWaitEnd (die : Nat) (s : State) : Outcome State Fault Refusal :=
  if (s.rfqFree die 1).isEmpty then .next s else .next (s.endWaits fun _ w => decide (w = .rfq die))

end Sys2Proof.Machine
end

