-- ==== Sys2Proof/Machine/EngineMem.lean ====
section
/-!
DEFINITION. Memory as the engines reach it (R316, R367, R403, R539): byte ranges cut into sectors, translated and checked for their
region kind, read and written at their homes or below the die cache, and the steps and ends of commands (R364 to R366).
-/

namespace Sys2Proof.Machine

/-! ### Ranges -/

/-- A piece of a byte range within one sector, translated: physical address, or offset in the weight store of the command's die,
length, and whether it lies in a MEMSIDE or a WEIGHT region. -/
structure EngPiece where
  pa : Nat
  len : Nat
  memside : Bool
  weight : Bool
  deriving DecidableEq, Repr

/-- The pieces of a byte range within sectors: address and length. -/
def sectorPieces (va n : Nat) : List (Nat × Nat) :=
  if n = 0 then []
  else (List.range ((va + n - 1) / 32 + 1 - va / 32)).map fun i =>
    let lo := max va (32 * (va / 32 + i))
    (lo, min (va + n) (32 * (va / 32 + i + 1)) - lo)

/-- The region of an address for a command's launch (R269, R271). -/
def State.cmdRegion (s : State) (c : Command) (va : Nat) : Region :=
  ((s.launchOf c.coh.team.lid).bind fun l => l.entryAt va).getD (bareRegion c.core.die)

/-- The address space of a command's launch. -/
def State.cmdSpace (s : State) (c : Command) : Nat × Option Nat :=
  ((s.launchOf c.coh.team.lid).map fun l => (l.asid, l.root)).getD (0, none)

/-- One piece translated and its region checked (R367, R403, R466): none where it meets a fault. The engines on a die (ours) read its weight
store (R273) and translate as its cores do; walkers use the die's TLB (R387). -/
def engPlace (ours : Bool) (s : State) (c : Command) (k : AccKind) (va n : Nat) : Option EngPiece × State :=
  let r := s.cmdRegion c va
  if 2 ^ 57 < va + n then (none, s)
  else if r.kind = .weight then
    let o := r.inst * 65536 + (va - r.base)
    if ours = false ∨ k ≠ .read then (none, s)
    else if s.granuleLost c.core.die o then (none, s.report 4 0 (locCore c.core))
    else (some { pa := o, len := n, memside := false, weight := true }, s)
  else
    let sp := s.cmdSpace c
    match if ours then translate s c.core sp.1 sp.2 va k else dieTranslate s c.core.die sp.1 sp.2 va k with
    | (.ok pa _, s1) =>
      if dramLimit < pa + n then (none, s1) else (some { pa := pa, len := n, memside := decide (r.kind = .memside), weight := false }, s1)
    | (_, s1) => (none, s1)

/-- Pieces translated in order: those before the first that meets a fault, and whether none does. -/
def engPlaces (c : Command) (k : AccKind) : List (Nat × Nat) → State → (List EngPiece × Bool) × State
  | [], s => (([], true), s)
  | p :: rest, s =>
    match engPlace true s c k p.1 p.2 with
    | (none, s1) => (([], false), s1)
    | (some x, s1) =>
      let ((xs, ok), s2) := engPlaces c k rest s1
      ((x :: xs, ok), s2)

/-- A flat range translated and checked whole. -/
def flatRange (s : State) (c : Command) (k : AccKind) (va n : Nat) : Option (List EngPiece) × State :=
  let ((xs, ok), s1) := engPlaces c k (sectorPieces va n) s
  (if ok then some xs else none, s1)

/-- Pieces read at their homes, or at the base dies; none where one is poisoned (R490), which is reported (R502). -/
def engRead (below : Bool) (c : Command) : List EngPiece → State → Option (List Byte) × State
  | [], s => (some [], s)
  | p :: rest, s =>
    let ((bs, poison), s1) :=
      if p.weight then ((s.weightBytes c.core.die p.pa p.len, false), s)
      else if below || p.memside then baseRead s p.pa p.len else homeRead s p.pa p.len
    if poison then (none, s1.report 4 (32 * (p.pa / 32)) (locCore c.core))
    else
      match engRead below c rest s1 with
      | (some more, s2) => (some (bs ++ more), s2)
      | (none, s2) => (none, s2)

/-- Pieces written at their homes, with the elements that they touch; the issuing core's own L1 copies go, so that its threads see the
write once they acquire (R302). -/
def engTouch (c : Command) : List EngPiece → List Byte → State → List Touched × State
  | [], _, s => ([], s)
  | p :: rest, bs, s =>
    let here := bs.take p.len
    let (es, s1) := if p.memside then ([], baseWrite s p.pa here) else homeTouch s p.pa here true
    let (more, s2) := engTouch c rest (bs.drop p.len) (if p.memside then s1 else s1.dropL1 c.core (p.pa / 32))
    (es ++ more, s2)

/-- Pieces written as one write, with its notifications (R279). -/
def engWrite (c : Command) (large : Bool) (ps : List EngPiece) (bs : List Byte) (s : State) : State :=
  let (es, s1) := engTouch c ps bs s
  s1.notify c.id none es large

/-- Whether a write to some pieces waits for the snapshot (R499). -/
def State.engBlocked (s : State) (c : Command) (ps : List EngPiece) : Bool :=
  ps.any fun p => s.snapshotBlocks c.coh.team.lid p.pa

/-! ### Tensors -/

/-- Whether a tensor's bytes lie in scratch. -/
def TensorRec.inScratch (t : TensorRec) : Bool := decide (t.lay ≠ 0)

/-- Bytes of a tensor from an offset; none where a fault or poison is met. -/
def tensorRead (s : State) (c : Command) (t : TensorRec) (o n : Nat) : Option (List Byte) × State :=
  if t.inScratch then (some (s.scratchGet c.coh.team (t.base + o) n), s)
  else
    match flatRange s c .read (t.base + o) n with
    | (some ps, s1) => engRead false c ps s1
    | (none, s1) => (none, s1)

/-- Where bytes of a tensor are to be written, checked; none where a fault is met. -/
def tensorPlace (s : State) (c : Command) (t : TensorRec) (o n : Nat) : Option (List EngPiece) × State :=
  if t.inScratch then (some [], s) else flatRange s c .write (t.base + o) n

/-- Bytes of a tensor written from an offset, at a place that has been checked. -/
def tensorPut (s : State) (c : Command) (t : TensorRec) (o : Nat) (ps : List EngPiece) (bs : List Byte) : State :=
  if t.inScratch then s.modTeam c.coh.team fun m => m.scratchPut (t.base + o) bs
  else engWrite c (decide (32 < bs.length)) ps bs s

/-- Row r of an element-form tensor: its offset. -/
def TensorRec.rowAt (t : TensorRec) (r : Nat) : Nat := r * t.rstr

/-- Element i of packed bytes of a format (R70, R398). -/
def elemAt (f : Fmt) (bs : List Byte) (i : Nat) : Nat := leNat bs / 2 ^ (packBits f * i) % 2 ^ packBits f

/-- The bytes of elements packed at a format. -/
def packElems (f : Fmt) (l : List Nat) : List Byte :=
  leBytes (l.length * packBits f / 8) (l.foldr (fun v acc => v % 2 ^ packBits f + 2 ^ packBits f * acc) 0)

/-! ### Commands under way -/

/-- Whether an access precedes a command (R302): its cohort made it before the command, or another of its team before the team was last
placed or restored; of a team that is off its core, before the command. -/
def State.beforeCmd (s : State) (c : Command) (u : Tid) (id : Nat) : Bool :=
  decide (id < c.id) && (decide (u.coh = c.coh) || (decide (u.coh.team = c.coh.team) && (s.team c.coh.team).all fun m => decide (id < m.edge)))

/-- Whether a command may act: the accesses, discards and scratch passes that precede it have performed (R301, R302), and its team is
resident where it acts on scratch. -/
def State.engReady (s : State) (c : Command) (scratch : Bool) : Bool :=
  !(s.mem.accesses.any fun a => s.beforeCmd c a.tid a.id) && !(s.mem.maints.any fun m => decide (m.kind = .discard) && s.beforeCmd c m.tid m.id) &&
    !(s.mem.passes.any fun p => decide (p.exec < c.id ∧ p.tid.coh = c.coh)) && (!scratch || s.onCore c)

/-- What a command does, where it runs on without its team, to its team as that left its core (R364, R368, R369). -/
def State.withGhost (s : State) (id : Nat) (f : State → State) : State :=
  match tget s.eng.ghosts id, s.cmd id with
  | some m, some c =>
    let t := c.coh.team
    let s1 := f { s with teams := tput s.teams t m }
    let s2 := match s1.team t with
      | some m1 => { s1 with eng := { s1.eng with ghosts := tmod s1.eng.ghosts id fun _ => m1 } }
      | none => s1
    { s2 with teams := match s.team t with | some old => tput s2.teams t old | none => terase s2.teams t }
  | _, _ => f s

/-- A running command of a number that may act. -/
def State.acting (s : State) (id : Nat) (scratch : Bool) : Option Command :=
  (s.cmd id).filter fun c => decide (c.st = .running) && s.engReady c scratch

/-- A command's step completed (R365), with its progress; one cancelled meanwhile stops there (R364, R366). -/
def State.stepCmd (s : State) (c : Command) (progress total : Nat) : State :=
  let s1 := s.modCmd c.id fun x => { x with step := c.step + 1, count := satCount (c.count + progress) }
  if total ≤ c.step + 1 then s1.endCmd c.id 0 else if c.cancelled then s1.endCmd c.id 4 else s1

/-- Output flush of a command's launch (R85). -/
def State.cmdOfl (s : State) (c : Command) : Bool := ((s.launchOf c.coh.team.lid).map fun l => l.desc.ofl).getD false

/-- Input flush of a command's launch (R85). -/
def State.cmdIfl (s : State) (c : Command) : Bool := ((s.launchOf c.coh.team.lid).map fun l => l.desc.ifl).getD false

end Sys2Proof.Machine
end

