-- ==== Sys2Proof/Machine/EventsEngine.lean ====
section
/-!
DEFINITION. Steps of the engines' queues (R344, R355 to R359, R366) and of the core engines: copies (R403, R404), plane conversion
(R373, R405), the plane matrix engine (R374 to R378), the accumulator family (R407, R408) and selection (R380, R381). A step whose
condition does not hold changes nothing.
-/

namespace Sys2Proof.Machine

open Host (Outcome)

/-! ### Turns -/

/-- Order of teams in an engine's turns (R344). -/
def teamBefore (a b : TeamId) : Bool := decide (a.lid < b.lid ∨ (a.lid = b.lid ∧ a.k3 < b.k3))

/-- The earliest of some teams' heads. -/
def firstHead : List Command → Option Command
  | [] => none
  | c :: rest =>
    match firstHead rest with
    | none => some c
    | some d => if teamBefore d.coh.team c.coh.team then some d else some c

/-- The heads of a core's lists of a class (R344), of teams that are not being saved. -/
def State.heads (s : State) (core : CoreId) (cls : EngClass) : List Command :=
  (s.teams.filter fun p => decide (p.2.core = core ∧ p.2.preempt ≠ .saving)).filterMap fun p => s.headOf p.1 cls

/-- The head that an engine serves next (R344): of the next team after the one served last, among those a test lets go. -/
def State.nextTurn (s : State) (core : CoreId) (cls : EngClass) (ok : Command → Bool) : Option Command :=
  let hs := (s.heads core cls).filter ok
  match tget s.eng.turns (core, cls) with
  | none => firstHead hs
  | some t => (firstHead (hs.filter fun c => teamBefore t c.coh.team)).or (firstHead hs)

/-- Whether a head's guard slot lets it go (R355). -/
def State.guardOpen (s : State) (c : Command) : Bool :=
  match c.guard with
  | none => true
  | some n => decide (s.guardOf c.coh.team n = .yes)

/-- Heads that a false slot holds, discarded (R356). -/
def State.discardHeads (s : State) (core : CoreId) (cls : EngClass) : State :=
  (s.heads core cls).foldl (fun st c => st.discardHead c.coh.team cls) s

/-- Whether some head of a core and class is held by a false slot. -/
def State.falseHead (s : State) (core : CoreId) (cls : EngClass) : Bool :=
  (s.heads core cls).any fun c => match c.guard with | some n => decide (s.guardOf c.coh.team n = .no) | none => false

/-- A turn taken (R344). -/
def State.took (s : State) (c : Command) : State :=
  { s with eng := { s.eng with turns := tput s.eng.turns (c.core, c.cls) c.coh.team } }

/-- Turns forgotten where a core holds no command of the class (R344). -/
def State.settleTurns (s : State) : State :=
  let held (c : Command) : Bool := (c.listed && s.onCore c) || (decide (c.st = .running) && !c.forwarded)
  let some' (k : CoreId × EngClass) : Bool := s.eng.cmds.any fun c => decide (c.core = k.1 ∧ c.cls = k.2) && held c
  { s with eng := { s.eng with turns := s.eng.turns.filter fun p => some' p.1 } }

/-! ### Starting -/

/-- The quarter, B handles, slot and slabs by which a command fuses (R378). -/
def fuseKey (c : Command) : Option (Fin 4 × Word × Word × Fin 8 × Nat) :=
  match c.op with
  | .tmma a _ _ _ _ (some q) hB sB fs => some (q, hB, sB, fs, a.slabs)
  | _ => none

/-- The longest run of at most n commands that fuse with a head and with each other (R378). -/
def fuseRun (s : State) (k : Word × Word × Fin 8 × Nat) (n : Nat) (qs : List (Fin 4)) : List Command → List Command
  | [] => []
  | c :: rest =>
    match n, fuseKey c with
    | m + 1, some (q, k') =>
      if k' = k ∧ ¬ q ∈ qs ∧ s.guardOpen c = true ∧ c.held = false ∧ c.step = 0 then c :: fuseRun s k m (q :: qs) rest else []
    | _, _ => []

/-- The commands behind a head in its team's list. -/
def State.behind (s : State) (c : Command) : List Command :=
  s.eng.cmds.filter fun d => decide (d.coh.team = c.coh.team ∧ d.cls = c.cls ∧ d.id ≠ c.id) && d.listed

/-- A quarter that has become the head of its team's list, fused in that cycle (R378). -/
def State.fuseHead (s : State) (c : Command) : State :=
  match fuseKey c with
  | none => s
  | some (q, k) =>
    if c.fuse = some c.id ∨ c.step ≠ 0 then s
    else
      let ids := (c :: fuseRun s k 3 [q] (s.behind c)).map fun d => d.id
      { s with eng := { s.eng with cmds := s.eng.cmds.map fun d => if ids.contains d.id then { d with fuse := some c.id } else d } }

/-- Every list's head so. -/
def State.fuseHeads (s : State) : State := (s.teams.filterMap fun p => s.headOf p.1 .pme).foldl State.fuseHead s

/-- The commands that start with a head (R378, R365): those it is fused with. -/
def State.startSet (s : State) (c : Command) : List Command :=
  c :: (s.behind c).filter fun d => c.fuse.isSome && decide (d.fuse = c.fuse)

/-- A head, and what is fused with it, started. -/
def State.startCmds (s : State) (c : Command) : State :=
  let ids := (s.startSet c).map fun d => d.id
  let go (d : Command) : Command := if ids.contains d.id then { d with st := .running } else d
  State.took { s with eng := { s.eng with cmds := s.eng.cmds.map go } } c

/-- Whether a core engine that runs one command at a time is busy (R344). -/
def State.engBusy (s : State) (core : CoreId) (cls : EngClass) : Bool :=
  decide (cls = .pme ∨ cls = .sel) && s.eng.cmds.any fun c => decide (c.core = core ∧ c.cls = cls ∧ c.st = .running)

/-- Where a walk reads first (R387): the stack of its start vertex's record; none where it has no translation. -/
def State.walkStack (s : State) (c : Command) (va : Nat) : Option Nat :=
  (engPlace false s c .read va 4).1.map fun p => (placeOf p.pa).stack

/-- A walk in progress. -/
def State.walkRun (s : State) (id : Nat) : Option WalkRun := tget s.eng.walks id

/-- A walk's run set. -/
def State.setWalk (s : State) (id : Nat) (r : WalkRun) : State := { s with eng := { s.eng with walks := tput s.eng.walks id r } }

/-- The address that a walk reads next (R388). -/
def WalkRec.readAt (w : WalkRec) (r : WalkRun) : Nat :=
  let rec' := w.nb + w.rs * (r.out.getLastD 0#32).toNat
  match r.read with
  | .degree => rec' + w.doff
  | .offset _ => rec' + w.noff
  | .neighbour va => va

/-- A walk at the walker of the stack that it reads next (R387): behind those that have arrived there, where it was at another. -/
def State.placeWalk (s : State) (c : Command) (w : WalkRec) (r : WalkRun) : State :=
  let k := s.walkStack c (w.readAt r)
  if k = r.stack then s.setWalk c.id r
  else
    let (n, s1) := s.fresh
    s1.setWalk c.id { r with stack := k, since := n }

/-- Whether a walk is among the 256 that its walker runs (R387). -/
def State.walkServed (s : State) (r : WalkRun) : Bool :=
  r.stack.isNone || decide ((s.eng.walks.filter fun p => decide (p.2.stack = r.stack ∧ p.2.since < r.since)).length < 256)

/-- Whether an off-core engine takes a forwarded command up: a walker where it is that walk's turn (R387). -/
def State.takesUp (s : State) (c : Command) : Bool :=
  match c.op with
  | .walk _ _ _ _ => (s.walkRun c.id).any s.walkServed
  | .coll _ | .cksum _ _ => true
  | _ => false

/-- A walk or a collective begun. -/
def State.begin (s : State) (c : Command) : State :=
  let s1 := s.modCmd c.id fun x => { x with st := .running }
  match c.op with
  | .coll d =>
    let rank := (d.rankOf s.moduleNo c.core.die).getD 0
    let r : CollRun := { rank := rank, sent := [], got := [], sums := [], kept := [], asked := [], shapeSent := false, shapeIn := false,
                         tainted := false, last := s.ptc.toNat }
    { s1 with eng := { s1.eng with colls := tput s1.eng.colls c.id r } }
  | _ => s1

/-- ENGINE_COMMAND_START (R344, R356 to R359, R378): a core engine serves its next turn; an off-core engine takes up the oldest
command that the core has forwarded to it. Bank engines start theirs by BANK_ENGINE_RESUME. -/
def execEngineCommandStart (core : CoreId) (cls : EngClass) (s : State) : Outcome State Fault Refusal :=
  if coreClass cls then
    if s.falseHead core cls then .next (s.discardHeads core cls)
    else if s.engBusy core cls then .next s
    else
      match s.nextTurn core cls fun c => s.guardOpen c && !c.held with
      | some c => .next (s.startCmds c)
      | none => .next s
  else
    match s.eng.cmds.find? fun c =>
        decide (c.core = core ∧ c.cls = cls ∧ c.st = .queued) && c.forwarded && !c.held && !c.cancelled && s.takesUp c with
    | some c => .next (s.begin c)
    | none => .next s

/-- A command at a time of the PTC, which meets its not-before time (R11, R358). -/
def Command.ripen (now : DWord) (c : Command) : Command :=
  if (c.notBefore.map fun T => decide (T.toNat ≤ now.toNat)).getD true then { c with held := false } else c

/-- NOT_BEFORE_MET (R358). -/
def execNotBeforeMet (id : Nat) (s : State) : Outcome State Fault Refusal := .next (s.modCmd id (Command.ripen s.ptc))

/-! ### Forwarding, reports, cancellation -/

/-- The bank engines a command names (R410). -/
def CmdOp.banks : CmdOp → List BankId
  | .bankrun _ stk first n | .bankst _ stk first n => (List.range n).map fun i => { stack := stk, eng := first + i }
  | _ => []

/-- The bank engines granted to a command's launch (R382). -/
def State.grantOf (s : State) (c : Command) : List BankId := ((s.launchOf c.coh.team.lid).map fun l => l.grant).getD []

/-- Whether a bank engine is out of service (R445, R496): it has failed, or serves a channel of a retired group. -/
def State.bankOut (s : State) (b : BankId) : Bool :=
  s.rel.out.contains (.bank b) || s.rel.retired.any fun r => decide (r.stack = b.stack ∧ (r.group = 2 * b.eng / 5 ∨ r.group = (2 * b.eng + 1) / 5))

/-- A collective of an identifier that runs on a die (R540). -/
def State.collRunning (s : State) (die cid : Nat) : Bool :=
  s.eng.cmds.any fun c =>
    match c.op, c.st with
    | .coll d, .queued | .coll d, .running => c.forwarded && decide (c.core.die = die ∧ d.cid = cid)
    | _, _ => false

/-- Collectives that a die runs. -/
def State.collCount (s : State) (die : Nat) : Nat :=
  (s.eng.cmds.filter fun c =>
    match c.op, c.st with
    | .coll _, .queued | .coll _, .running => c.forwarded && decide (c.core.die = die)
    | _, _ => false).length

/-- A die runs at most 16 collectives (R540): the head of another waits, but for one whose identifier runs already. -/
def State.collRoom (s : State) (c : Command) : Bool :=
  match c.op with
  | .coll d => s.collRunning c.core.die d.cid || decide (s.collCount c.core.die < 16)
  | _ => true

/-- What a command comes to as soon as it is forwarded: a status where it goes no further (R382, R445, R496, R540). -/
def State.refusedAt (s : State) (c : Command) : Option Nat :=
  match c.op with
  | .bankrun _ _ _ _ =>
    if c.op.banks.any fun b => !(s.grantOf c).contains b || s.bankOut b then some 3 else none
  | .bankst _ _ _ _ => if c.op.banks.any s.bankOut then some 3 else none
  | .walk w v _ _ =>
    match s.walkStack c (w.nb + w.rs * v.toNat + w.doff) with
    | some k => if s.rel.out.contains (.walker k) then some 3 else none
    | none => none
  | .coll d => if s.collRunning c.core.die d.cid || s.rel.out.contains (.collective c.core.die) then some 3 else none
  | .cksum _ _ => if s.rel.out.contains (.collective c.core.die) then some 3 else none
  | _ => none

/-- A command sent to the engines it names: a BANKRUN joins the queue of each (R382), a BANKST goes to each in the grant (R411). -/
def State.forwardCmd (s : State) (c : Command) : State :=
  let s1 := (s.modCmd c.id fun x => { x with forwarded := true }).took c
  match s.refusedAt c, c.op with
  | some n, _ => s1.endCmd c.id n
  | none, .bankrun _ _ _ _ =>
    c.op.banks.foldl (fun st b =>
      let e := st.bank b
      st.setBank b { e with queue := e.queue ++ [c.id], st := if e.queue.isEmpty then .waiting else e.st }) s1
  | none, .bankst _ _ _ _ =>
    let bad := c.op.banks.any fun b => !(s.grantOf c).contains b
    if c.op.banks.any fun b => (s.grantOf c).contains b then
      s1.modCmd c.id fun x => { x with bad := bad, st := .running }
    else s1.endCmd c.id 3
  | none, .walk w v seed _ =>
    s1.fresh.2.placeWalk c w { stack := none, since := s1.fresh.1, read := .degree, x := seed, out := [v], isOver := false, stop := none }
  | none, _ => s1

/-- COMMAND_FORWARD (R344, R358, R382). -/
def execCommandForward (core : CoreId) (cls : EngClass) (s : State) : Outcome State Fault Refusal :=
  if coreClass cls then .next s
  else if s.falseHead core cls then .next (s.discardHeads core cls)
  else
    match s.nextTurn core cls fun c => s.guardOpen c && s.collRoom c with
    | some c => .next (s.forwardCmd c)
    | none => .next s

/-- COMMAND_REPORT (R351 to R354). -/
def execCommandReport (c : CohId) (cls : EngClass) (s : State) : Outcome State Fault Refusal := .next (s.reportCmds c cls)

/-- CANCEL_STOP (R364, R366, R376, R386): a cancelled command that has been forwarded or started stops where it stands. -/
def execCancelStop (id : Nat) (s : State) : Outcome State Fault Refusal :=
  match s.cmd id with
  | none => .next s
  | some c =>
    match c.st with
    | .ended _ => .next s
    | .queued => if c.cancelled then .next ((s.dropFromBanks id).endCmd id 4) else .next s
    | .running => if c.cancelled && c.op.stops then .next ((s.dropFromBanks id).endCmd id 4) else .next s

/-! ### Copies -/

/-- Bytes subtracted from a team barrier's counter as a step's writes land (R404); none where the step waits (R223). -/
def State.landed (s : State) (c : Command) (bar : Option (Fin 16)) (n : Nat) : Option State :=
  match bar with
  | none => some s
  | some b =>
    let k : BarKey := { owner := .team c.coh.team, num := b }
    let v := (s.bar k).bytes - (n : Int)
    if v < -(2 ^ 31) then none
    else some (State.settleBar { s with barriers := tput s.barriers k { s.bar k with bytes := v } } k)

/-- Where the bytes of some pieces stand in memory; none of them in a weight store, which no copy writes. -/
def piecePlaces (ps : List EngPiece) : List (Option (Bool × Nat)) :=
  ps.flatMap fun p => (List.range p.len).map fun i => if p.weight then none else some (false, p.pa + i)

/-- Where the bytes of a tensor from an offset stand (R403): in scratch, or in memory. -/
def copyPlaces (s : State) (c : Command) (t : TensorRec) (o n : Nat) : List (Option (Bool × Nat)) :=
  if t.inScratch then (List.range n).map fun i => some (true, t.base + o + i)
  else piecePlaces ((flatRange s c .read (t.base + o) n).1.getD [])

/-- The source bytes of a copy's step (R403): one that an earlier step has written over is read as it stands or as it stood before
the command, left open (log entry 24). -/
def copySource (s : State) (c : Command) (places : List (Option (Bool × Nat))) (bs : List Byte) : List Byte :=
  let log := (tget s.eng.copied c.id).getD []
  bs.zipIdx.map fun x =>
    match (places.getD x.2 none).bind (tget log) with
    | some old => if Config.copyOld c.id c.step x.2 then old else x.1
    | none => x.1

/-- The byte at a place. -/
def State.byteAt (s : State) (c : Command) (k : Bool × Nat) : Byte :=
  if k.1 then ((s.team c.coh.team).map fun m => cellGet 0#8 k.2 m.scratch).getD 0#8 else s.homeByte k.2

/-- The bytes that a copy's step writes over kept as they stood, those of earlier steps as they are kept. -/
def State.keepOld (s : State) (c : Command) (places : List (Option (Bool × Nat))) : State :=
  let log := (tget s.eng.copied c.id).getD []
  let add (l : Tbl (Bool × Nat) Byte) (k : Option (Bool × Nat)) : Tbl (Bool × Nat) Byte :=
    match k with
    | some k => if (tget l k).isSome then l else l ++ [(k, s.byteAt c k)]
    | none => l
  { s with eng := { s.eng with copied := tput s.eng.copied c.id (places.foldl add log) } }

/-- One step of a copy (R403): from a source offset to a destination offset, every page checked before a byte is written. -/
def copyStep (s : State) (c : Command) (dst src : TensorRec) (bar : Option (Fin 16)) (od os n total : Nat) : State :=
  match tensorPlace s c dst od n with
  | (none, s1) => s1.endCmd c.id 3
  | (some ps, s1) =>
    if s1.engBlocked c ps then s
    else
      match tensorRead s1 c src os n with
      | (none, s2) => s2.endCmd c.id 3
      | (some bs, s2) =>
        let here := if dst.inScratch then (List.range n).map fun i => some (true, dst.base + od + i) else piecePlaces ps
        let got := copySource s c (copyPlaces s1 c src os n) bs
        match (tensorPut (s2.keepOld c here) c dst od ps got).landed c bar n with
        | none => s
        | some s3 => s3.stepCmd c n total

/-- Piece k of a contiguous destination (R403): offset and length between its 4 KiB boundaries, and how many there are. -/
def cpyPiece (t : TensorRec) (k : Nat) : Nat × Nat × Nat :=
  let b := t.base
  let n := t.bytes
  let lo := max b (4096 * (b / 4096 + k))
  (lo - b, min (b + n) (4096 * (b / 4096 + k + 1)) - lo, (b + n - 1) / 4096 - b / 4096 + 1)

/-- CPY_STEP (R364, R403, R404). -/
def execCpyStep (id : Nat) (s : State) : Outcome State Fault Refusal :=
  match s.acting id true with
  | none => .next s
  | some c =>
    match c.op with
    | .cpy dst src bar =>
      let (o, n, total) := cpyPiece dst c.step
      .next (copyStep s c dst src bar o o n total)
    | .cpy2d dst src bar => .next (copyStep s c dst src bar (dst.rowAt c.step) (src.rowAt c.step) dst.rowBytes dst.rows)
    | _ => .next s

/-! ### Conversion to planes -/

/-- floor(log2 |x|) of a non-zero finite value. -/
def XVal.expOf : XVal → Option Int
  | .fin _ n d => if n = 0 then none else some (ilog2 n d)
  | .nan | .inf _ => none

/-- Whether a value is finite. -/
def XVal.isFinite : XVal → Bool
  | .fin _ _ _ => true
  | .nan | .inf _ => false

/-- A value rounded to an integer by RNE, clamped to P bits (R91). -/
def planeInt (p : Nat) (x : XVal) : Int :=
  match x with
  | .fin s n d => max (-(2 ^ (p - 1) : Nat)) (min ((2 ^ (p - 1) : Nat) - 1) (roundToInt (.mode .rne) s n d).1)
  | .nan | .inf _ => 0

/-- A block of exact values in the plane form (R91): the scale byte and the integers; none for a NaN block. -/
def planeBlock (p : Nat) (xs : List XVal) : Option (Nat × List Int) :=
  if xs.all XVal.isFinite then
    match (xs.filterMap XVal.expOf).max? with
    | none => some (0, xs.map fun _ => 0)
    | some e =>
      let em := max e (-127)
      some ((em + 127).toNat, xs.map fun x => planeInt p (x.shift ((p : Int) - 2 - em)))
  else none

/-- The source block of a TCVP step (R373, R405), converted: the scale byte, the integers, and whether it is a NaN block. -/
def tcvpBlock (s : State) (c : Command) (p : Nat) (src : TensorRec) (bs : List Byte) (scale : Nat) : Nat × List Int × Bool :=
  let nanBlock : Nat × List Int × Bool := (0xFF, List.replicate 32 0, true)
  if src.elem = .lc2 then
    if scale = 0xFF then nanBlock
    else (scale, (List.range 32).map fun i => lcWeight (leNat ((bs.drop (2 * (i / 8))).take 2)) (i % 8), false)
  else
    match planeBlock p ((List.range 32).map fun i => readFlushed (s.cmdIfl c) src.elem (elemAt src.elem bs i)) with
    | some (x, qs) => (x, qs, false)
    | none => nanBlock

/-- The 4 bytes of plane j of a block (R371). -/
def planeBytes (j : Nat) (qs : List Int) : List Byte :=
  leBytes 4 (qs.foldr (fun (q : Int) (acc : Nat) => (q / ((2 ^ j : Nat) : Int) % 2).toNat + 2 * acc) 0)

/-- The scratch offset of plane j's bytes of a block (R371). -/
def TensorRec.planeAt (t : TensorRec) (sl j m b : Nat) : Nat := t.base + 64 * t.rows * (t.planes * sl + j) + 64 * m + 4 * b

/-- The scratch offset of a block's scale byte (R371). -/
def TensorRec.scaleAt (t : TensorRec) (sl m b : Nat) : Nat := t.base + 16 * t.rows * sl + 16 * m + b

/-- A block's planes and scale byte written to a team's scratch. -/
def Team.putBlock (t : Team) (pl sc : TensorRec) (sl m b x : Nat) (qs : List Int) : Team :=
  ((List.range pl.planes).foldl (fun t j => t.scratchPut (pl.planeAt sl j m b) (planeBytes j qs)) t).scratchPut (sc.scaleAt sl m b)
    [BitVec.ofNat 8 x]

/-- TCVP_STEP (R373, R405). -/
def execTcvpStep (id : Nat) (s : State) : Outcome State Fault Refusal :=
  match s.acting id true with
  | none => .next s
  | some c =>
    match c.op with
    | .tcvp pl sc src scs =>
      let sl := c.step / (16 * src.rows)
      let m := c.step / 16 % src.rows
      let b := c.step % 16
      let n := 4 * packBits src.elem
      let scale : Option (List Byte) × State := match scs with
        | none => (some [0#8], s)
        | some y => tensorRead s c y (y.rowAt m + 16 * sl + b) 1
      match scale with
      | (none, s1) => .next (s1.endCmd id 3)
      | (some x, s1) =>
        match tensorRead s1 c src (src.rowAt m + (16 * sl + b) * n) n with
        | (none, s2) => .next (s2.endCmd id 3)
        | (some bs, s2) =>
          let (xb, qs, bad) := tcvpBlock s2 c pl.planes src bs ((x.headD 0#8).toNat)
          let s3 := s2.modTeam c.coh.team fun t =>
            { t.putBlock pl sc sl m b xb qs with nanBlocks := if bad then satWord t.nanBlocks else t.nanBlocks }
          .next (s3.stepCmd c (4 * pl.planes + 1) (src.rows * src.cols / 32))
    | _ => .next s

/-! ### The plane matrix engine -/

/-- An element of a tile (R267): +0 where it is not listed. -/
def Team.tileAt (t : Team) (tile row col : Nat) : Word := (tget t.tiles (tile * 4096 + 64 * row + col)).getD 0#32

/-- Elements of a tile set. -/
def Team.setTile (t : Team) (tile : Nat) (l : List (Nat × Nat × Word)) : Team :=
  let at' (x : Nat × Nat × Word) : Nat := tile * 4096 + 64 * x.1 + x.2.1
  let new := (l.map fun x => (at' x, x.2.2)).filter fun p => p.2 ≠ 0#32
  let keys := l.map at'
  { t with tiles := (t.tiles.filter fun p => !keys.contains p.1) ++ new }

/-- Every row and column of a tile's rows. -/
def tileCells (first n : Nat) : List (Nat × Nat) := (List.range n).flatMap fun m => (List.range 64).map fun c => (first + m, c)

/-- Ones of a number of 32 bits. -/
def ones (n : Nat) : Nat := (List.range 32).countP n.testBit

/-- The weight of plane j of P (R90). -/
def planeWeight (p j : Nat) : Int := if j + 1 = p then -(2 ^ j : Nat) else ((2 ^ j : Nat) : Int)

/-- The 32 bits of plane j of a block, as scratch holds them. -/
def Team.planeBits (t : Team) (r : TensorRec) (sl j m b : Nat) : Nat := leNat (t.scratchGet (r.planeAt sl j m b) 4)

/-- Plane j of a slab's rows: 16 blocks each. -/
def Team.planeRows (t : Team) (r : TensorRec) (sl j n : Nat) : List (List Nat) :=
  (List.range n).map fun m => (List.range 16).map fun b => t.planeBits r sl j m b

/-- One plane pair's contribution to the slab register (R375, R376): empty before the first. -/
def Team.planePair (t : Team) (a b : TensorRec) (sl jA jB : Nat) (sums : List Int) : List Int :=
  let w := planeWeight a.planes jA * planeWeight b.planes jB
  let cols := t.planeRows b sl jB 64
  let new := (t.planeRows a sl jA a.rows).flatMap fun x => cols.flatMap fun y => List.zipWith (fun p q => w * (ones (p &&& q) : Nat)) x y
  if sums.isEmpty then new else List.zipWith (fun x y => x + y) sums new

/-- The value of a slab from its block products, each with its exponent (R374). -/
def slabValue (terms : List (Int × Int)) : XVal :=
  let live := terms.filter fun x => x.1 ≠ 0
  match (live.map fun x => x.2).max?, (live.map fun x => x.2).min? with
  | some top, some low =>
    let lw := top - 40
    -- a product over 2^lw, truncated toward zero, and the remainder over 2^low
    let cut (x : Int × Int) : Int × Int :=
      if lw ≤ x.2 then (x.1 * (2 ^ (x.2 - lw).toNat : Nat), 0)
      else
        let d : Int := (2 ^ (lw - x.2).toNat : Nat)
        (x.1.tdiv d, (x.1 - x.1.tdiv d * d) * (2 ^ (x.2 - low).toNat : Nat))
    let sum := (live.map fun x => (cut x).1).sum
    let rem := (live.map fun x => (cut x).2).sum
    let v := 4 * sum + rem.sign
    XVal.scaled (decide (v < 0)) v.natAbs (lw - 2)
  | _, _ => .zero false

/-- The scale bytes of a slab's rows: 16 each. -/
def Team.scaleRows (t : Team) (r : TensorRec) (sl n : Nat) : List (List Nat) :=
  (List.range n).map fun m => (List.range 16).map fun b => leNat (t.scratchGet (r.scaleAt sl m b) 1)

/-- A slab's value for one element of the output (R374), from the sums of its 16 blocks and the scale bytes of its row and column. -/
def slabOf (pa pb : Nat) (xs ys : List Nat) (sums : List Int) : XVal :=
  if xs.contains 0xFF || ys.contains 0xFF then .nan
  else
    let e (x y : Nat) : Int := ((x : Int) - 127 - ((pa : Int) - 2)) + ((y : Int) - 127 - ((pb : Int) - 2))
    decodeFloat .f32 (roundFloat .f32 (.mode .rne) false (slabValue (sums.zip (List.zipWith e xs ys)))).bits

/-- The values of a slab's elements, row by row, 16 sums to each. -/
def slabValues (pa pb : Nat) : List (List Nat × List Nat) → List Int → List XVal
  | [], _ => []
  | x :: rest, sums => slabOf pa pb x.1 x.2 (sums.take 16) :: slabValues pa pb rest (sums.drop 16)

/-- A sum rounded to an accumulator, output flush applied (R374, R379). -/
def accSum (ofl : Bool) (acc : Word) (x : XVal) : Word :=
  BitVec.ofNat 32 (flushOut ofl .f32 (roundFloat .f32 (.mode .rne) false (addX .rne (decodeFloat .f32 acc.toNat) x).val)).bits

/-- A completed slab added to the accumulator tile (R374). -/
def Team.addSlab (t : Team) (ofl : Bool) (a sa b sb : TensorRec) (tile first sl : Nat) (sums : List Int) : Team :=
  let ys := t.scaleRows sb sl 64
  let scales := (t.scaleRows sa sl a.rows).flatMap fun x => ys.map fun y => (x, y)
  t.setTile tile (((tileCells first a.rows).zip (slabValues a.planes b.planes scales sums)).map fun x =>
    (x.1.1, x.1.2, accSum ofl (t.tileAt tile x.1.1 x.1.2) x.2))

/-- Steps of a TMMA: plane pairs of its slabs (R375). -/
def CmdOp.pairSteps : CmdOp → Nat
  | .tmma a _ b _ _ _ _ _ _ => a.slabs * (a.planes * b.planes)
  | _ => 0

/-- One plane pair of one command (R375, R376); one that has done all its own waits for its group (R378), and one cancelled stops
(R366). -/
def tmmaOne (s : State) (c : Command) : State :=
  match c.op, s.team c.coh.team with
  | .tmma a sa b sb tile q _ _ _, some t =>
    if c.op.pairSteps ≤ c.step then s else
    let pairs := a.planes * b.planes
    let sl := c.step / pairs
    let p := c.step % pairs
    let sums := t.planePair a b sl (p / b.planes) (p % b.planes) ((tget s.eng.slabs c.id).getD [])
    let s1 : State :=
      if p + 1 = pairs then
        State.modTeam { s with eng := { s.eng with slabs := terase s.eng.slabs c.id } } c.coh.team fun t =>
          t.addSlab (s.cmdOfl c) a sa b sb tile.val (16 * (q.map fun x => x.val).getD 0) sl sums
      else { s with eng := { s.eng with slabs := tput s.eng.slabs c.id sums } }
    let s2 := s1.modCmd c.id fun x => { x with step := c.step + 1, count := satCount (c.count + 1) }
    if c.cancelled && decide (c.step + 1 < c.op.pairSteps) then s2.endCmd c.id 4 else s2
  | _, _ => s

/-- The running commands that a TMMA is fused with, itself among them (R378). -/
def State.fusedWith (s : State) (c : Command) : List Command :=
  if c.fuse.isNone then [c] else s.eng.cmds.filter fun d => decide (d.fuse = c.fuse ∧ d.cls = .pme ∧ d.st = .running)

/-- A fused group over, once each of its commands has done all its steps (R378). -/
def State.endFused (s : State) (ids : List Nat) : State :=
  let live := s.eng.cmds.filter fun d => ids.contains d.id && decide (d.st = .running)
  if live.all fun d => decide (d.op.pairSteps ≤ d.step) then live.foldl (fun st d => st.endCmd d.id 0) s else s

/-- TMMA_STEP (R375, R378): a fused group steps together and completes together. -/
def execTmmaStep (id : Nat) (s : State) : Outcome State Fault Refusal :=
  match s.acting id true with
  | none => .next s
  | some c =>
    let group := s.fusedWith c
    if group.all fun d => s.engReady d true then .next ((group.foldl tmmaOne s).endFused (group.map fun d => d.id)) else .next s

/-! ### The accumulator family -/

/-- Rows of a tensor read in order, as elements; none where a fault or poison is met. -/
def readRows (c : Command) (t : TensorRec) : Nat → State → Option (List (List Nat)) × State
  | 0, s => (some [], s)
  | n + 1, s =>
    match readRows c t n s with
    | (none, s1) => (none, s1)
    | (some rows, s1) =>
      match tensorRead s1 c t (t.rowAt n) t.rowBytes with
      | (none, s2) => (none, s2)
      | (some bs, s2) => (some (rows ++ [(List.range t.cols).map (elemAt t.elem bs)]), s2)

/-- Rows of a tensor written in order, each once its pages are checked (R408): none where the write waits for the snapshot, else
whether every row was written. -/
def writeRows (c : Command) (t : TensorRec) : List (List Nat) → Nat → State → Option (Bool × State)
  | [], _, s => some (true, s)
  | row :: rest, r, s =>
    match tensorPlace s c t (t.rowAt r) t.rowBytes with
    | (none, s1) => some (false, s1)
    | (some ps, s1) =>
      if s1.engBlocked c ps then none
      else writeRows c t rest (r + 1) (tensorPut s1 c t (t.rowAt r) ps (packElems t.elem row))

/-- An element of a format as an accumulator holds it (R407). -/
def loadElem (ofl : Bool) (f : Fmt) (v : Nat) : Word :=
  BitVec.ofNat 32 (flushOut ofl .f32 (roundFloat .f32 (.mode .rne) false (decodeFmt f v))).bits

/-- An accumulator rounded to a format (R407). -/
def storeElem (f : Fmt) (rm : RMode) (v : Word) : Nat := (roundFloat f (.mode rm) false (decodeFloat .f32 v.toNat)).bits

/-- A running sum in f32 from +0 (R407). -/
def sumWords (l : List Word) : Word := l.foldl (fun acc v => accSum false acc (decodeFloat .f32 v.toNat)) 0#32

/-- An ACC command that has completed its one step (R408). -/
def State.accDone (s : State) (c : Command) : State := (s.modCmd c.id fun x => { x with count := 1 }).endCmd c.id 0

/-- Rows written by an ACC command. -/
def accStore (s : State) (c : Command) (t : TensorRec) (rows : List (List Nat)) : State :=
  match writeRows c t rows 0 s with
  | none => s
  | some (true, s1) => s1.accDone c
  | some (false, s1) => s1.endCmd c.id 3

/-- What a command of the ACC family does (R407, R408). -/
def accRun (id : Nat) (s : State) : State :=
  match s.acting id true with
  | none => s
  | some c =>
    match s.team c.coh.team with
    | none => s
    | some m =>
      let ofl := s.cmdOfl c
      let rows := List.range 64
      match c.op with
      | .accz tile =>
        (s.modTeam c.coh.team fun t => t.setTile tile.val ((tileCells 0 64).map fun x => (x.1, x.2, 0#32))).accDone c
      | .accld tile t =>
        match readRows c t 64 s with
        | (none, s1) => s1.endCmd id 3
        | (some vs, s1) =>
          (s1.modTeam c.coh.team fun x => x.setTile tile.val
            ((tileCells 0 64).map fun p => (p.1, p.2, loadElem ofl t.elem ((vs.getD p.1 []).getD p.2 0)))).accDone c
      | .accst tile t rm => accStore s c t (rows.map fun r => rows.map fun k => storeElem t.elem rm (m.tileAt tile.val r k))
      | .accadd tile src =>
        (s.modTeam c.coh.team fun x => x.setTile tile.val ((tileCells 0 64).map fun p =>
          (p.1, p.2, accSum ofl (x.tileAt tile.val p.1 p.2) (decodeFloat .f32 (x.tileAt src.val p.1 p.2).toNat)))).accDone c
      | .accred tile t rm col =>
        let line (i : Nat) : List Word := rows.map fun j => if col then m.tileAt tile.val j i else m.tileAt tile.val i j
        accStore s c t [rows.map fun i => storeElem t.elem rm (sumWords (line i))]
      | _ => s

/-- ACC_COMMAND_RUN (R407, R408, R364). -/
def execAccCommandRun (id : Nat) (s : State) : Outcome State Fault Refusal := .next (s.withGhost id (accRun id))

/-! ### Selection -/

/-- Whether a value ranks above another in TSELK's order, before the row index decides (R380). -/
def ranksAbove (x y : XVal) : Bool :=
  match x, y with
  | .nan, _ => false
  | _, .nan => true
  | _, _ => decide (cmpX x y = some .gt)

/-- A row placed among ranked rows: behind every row that ranks no lower (R380). -/
def insertRank (r : Nat × XVal) : List (Nat × XVal) → List (Nat × XVal)
  | [] => [r]
  | x :: rest => if ranksAbove r.2 x.2 then r :: x :: rest else x :: insertRank r rest

/-- The rows of a column in TSELK's order (R380). -/
def rankColumn (vals : List Nat) : List Nat :=
  ((vals.zipIdx.map fun x => (x.2, decodeFloat .f32 x.1)).foldl (fun acc r => insertRank r acc) []).map fun x => x.1

/-- The mask of some rows (R381). -/
def rowMask (l : List Nat) : Nat := l.foldl (fun acc r => acc ||| 2 ^ r) 0

/-- The result area of TSELK written (R381). -/
def Team.putSelection (t : Team) (base : Nat) (sel : List (List Nat)) : Team :=
  let column (t : Team) (x : List Nat × Nat) : Team :=
    let idx := (List.range 64).map fun i => BitVec.ofNat 8 (x.1.getD i 0xFF)
    (t.scratchPut (base + 64 * x.2) idx).scratchPut (base + 4096 + 8 * x.2) (leBytes 8 (rowMask x.1))
  (sel.zipIdx.foldl column t).scratchPut (base + 4608) (leBytes 8 (sel.foldl (fun acc l => acc ||| rowMask l) 0))

/-- What a TSELK does (R380, R381, R409). -/
def selectRun (id : Nat) (s : State) : State :=
  match s.acting id true with
  | none => s
  | some c =>
    match c.op with
    | .tselk x r k =>
      match readRows c x x.rows s with
      | (none, s1) => s1.endCmd id 3
      | (some vs, s1) =>
        let sel := (List.range x.cols).map fun j => (rankColumn (vs.map fun row => row.getD j 0)).take (min k x.rows)
        let s2 := s1.modTeam c.coh.team fun t => t.putSelection r.base sel
        (s2.modCmd id fun y => { y with count := x.cols }).endCmd id 0
    | _ => s

/-- TSELK_RUN (R380, R381, R409, R364). -/
def execTselkRun (id : Nat) (s : State) : Outcome State Fault Refusal := .next (s.withGhost id (selectRun id))

end Sys2Proof.Machine
end

