-- ==== Sys2Proof/Machine/EventsBank.lean ====
section
/-!
DEFINITION. Steps of the bank engines in the DRAM dies (R382 to R386, R410, R411) and of the walkers in the base dies (R387 to R390,
R412). Both act below the die cache (R316).
-/

namespace Sys2Proof.Machine

open Host (Outcome)

/-! ### Bank engines -/

/-- The physical address of a column of a stream's row on an engine (R383): none for a parity sector or a row beyond the limit. -/
def bankAddr (b : BankId) (cs dr col : Nat) : Option Nat :=
  let ch := 2 * b.eng + cs
  let g := ch / 5
  let pc := 5 * g + dr % 5
  let u := 32 * dr + col
  if ch = pc ∨ 18164061 < u then none
  else
    let k := if ch < pc then ch - 5 * g else ch - 5 * g - 1
    some (128 * (24 * (32 * u + g) + b.stack) + 32 * k)

/-- The format of a bank step (R384). -/
def stepFmt (wide : Bool) : Fmt := if wide then .f32 else .bf16

/-- The elements of an accumulator of an engine. -/
def vecElems (f : Fmt) (v : List Byte) : List Nat := (List.range (256 / f.bits)).map (elemAt f v)

/-- SCALE (R385). -/
def bankScale (f : Fmt) (v : List Byte) (c : Word) : List Byte :=
  packElems f ((vecElems f v).map fun x => (roundFloat f (.mode .rne) false (mulX (decodeFloat f x) (decodeFloat .f32 c.toNat)).val).bits)

/-- ADD (R385). -/
def bankAdd (f : Fmt) (v w : List Byte) : List Byte :=
  packElems f (((vecElems f v).zip (vecElems f w)).map fun x =>
    (roundFloat f (.mode .rne) false (addX .rne (decodeFloat f x.1) (decodeFloat f x.2)).val).bits)

/-- A row step as it runs: the accumulators, the steps counted, and whether it has met no fault (R385, R386). -/
structure RowRun where
  acc : Vector (List Byte) 8
  steps : Nat
  ok : Bool
  deriving DecidableEq, Repr

/-- The address of a stream's column in a row. -/
def streamAddr (b : BankId) (m : BankRec) (k : Fin 4) (row col : Nat) : Option Nat :=
  let t := m.streams.getD k.val (0, 0)
  bankAddr b t.1 (t.2 + row) col

/-- Whether a bank engine's access to a sector meets poison, or a sector whose tag check fails (R386); what has been written of a counted
line stands in the memory-side cache. -/
def State.bankBad (s : State) (sec : Nat) : Bool :=
  match (tget s.mem.counted (sec / 4)).bind fun c => tget c.sectors sec with
  | some x => x.2
  | none => s.psn sec || s.byRebuild sec || decide (tget s.rel.sick sec = some .broken)

/-- A sector as a bank engine reads it (R316): from the array, but for what has been written of a counted line. -/
def bankRead (s : State) (sec : Nat) : List Byte × State :=
  match (tget s.mem.counted (sec / 4)).bind fun c => tget c.sectors sec with
  | some x => (x.1, s)
  | none =>
    let ((bs, _), s1) := sectorRead s sec
    (bs, s1)

/-- A sector as a bank engine writes it (R316): no copy is left over it in the memory-side cache. -/
def bankWrite (s : State) (sec : Nat) (bs : List Byte) : State :=
  if (tget s.mem.counted (sec / 4)).isSome then baseStore s sec bs false else (s.dropHeld sec).sectorPut sec bs false

/-- One step for one column (R385, R386). -/
def bankStep (b : BankId) (m : BankRec) (row col : Nat) (st : BankStep) (r : RowRun) (s : State) : RowRun × State :=
  let fault : RowRun × State := ({ r with ok := false }, s)
  match st with
  | .load d k =>
    match streamAddr b m k row col with
    | none => fault
    | some pa =>
      if s.bankBad (pa / 32) then
        let s1 := if s.psn (pa / 32) then s.report 4 pa (locChannel b.stack (2 * b.eng + (m.streams.getD k.val (0, 0)).1)) else s
        ({ r with ok := false }, s1)
      else
        let (bs, s1) := bankRead s (pa / 32)
        ({ r with acc := r.acc.set d bs, steps := r.steps + 1 }, s1)
  | .store a k =>
    match streamAddr b m k row col with
    | none => fault
    | some pa => if s.bankBad (pa / 32) then fault else ({ r with steps := r.steps + 1 }, bankWrite s (pa / 32) r.acc[a])
  | .scale d a wide k =>
    ({ r with acc := r.acc.set d (bankScale (stepFmt wide) r.acc[a] (m.consts.getD k.val 0#32)), steps := r.steps + 1 }, s)
  | .add d a x wide => ({ r with acc := r.acc.set d (bankAdd (stepFmt wide) r.acc[a] r.acc[x]), steps := r.steps + 1 }, s)
  | .adv => (r, s)

/-- Steps for one column, as far as they meet no fault. -/
def bankCol (b : BankId) (m : BankRec) (row col : Nat) : List BankStep → RowRun → State → RowRun × State
  | [], r, s => (r, s)
  | st :: rest, r, s =>
    let (r1, s1) := bankStep b m row col st r s
    if r1.ok then bankCol b m row col rest r1 s1 else (r1, s1)

/-- The columns of a row step, as far as they meet no fault. -/
def bankCols (b : BankId) (m : BankRec) (row : Nat) (steps : List BankStep) : List Nat → RowRun → State → RowRun × State
  | [], r, s => (r, s)
  | col :: rest, r, s =>
    let (r1, s1) := bankCol b m row col steps r s
    if r1.ok then bankCols b m row steps rest r1 s1 else (r1, s1)

/-- The steps from a microprogram counter to the next ADV. -/
def BankRec.rowSteps (m : BankRec) (mpc : Nat) : List BankStep := (m.steps.drop mpc).takeWhile fun st => decide (st ≠ .adv)

/-- The microprogram counter after a row step (R385). -/
def BankRec.nextMpc (m : BankRec) (mpc : Nat) : Nat :=
  let e := mpc + (m.rowSteps mpc).length
  if e + 1 = m.steps.length then 0 else e + 1

/-- An engine done with its present command: the next one waits, and the command ends with its last engine (R382, R410). -/
def State.bankDone (s : State) (b : BankId) (c : Command) : State :=
  let e := s.bank b
  let q := e.queue.drop 1
  let s1 := s.setBank b { BankEng.idle with queue := q, st := if q.isEmpty then .idle else .waiting, quiet := e.quiet }
  if s1.eng.banks.any fun p => p.2.queue.contains c.id then s1 else s1.endCmd c.id (if c.bad then 3 else 0)

/-- Whether a request to a sector goes to DRAM: no level above holds it. -/
def State.deep (s : State) (a : Access) : Bool :=
  let sec := a.pa / 32
  if a.memside then (s.sideCopy sec).isNone || (a.op.stores && (tget s.mem.counted (sec / 4)).isNone)
  else (tget s.mem.l2 sec).isNone && (s.pendingBack sec).isNone && (s.sideCopy sec).isNone

/-- Whether an ordinary request waits at a bank engine's channels (R386): an access, or a write-back. -/
def State.ordinaryWaits (s : State) (b : BankId) : Bool :=
  (s.mem.accesses.any fun a => s.deep a && decide (s.bankOf (a.pa / 32) = b)) ||
    s.mem.writeBacks.any fun w => (tget s.mem.counted (w.sector / 4)).isNone && decide (s.bankOf w.sector = b)

/-- A command's part at a bank engine that is out of service over (R496, R497, R501): one that no engine has started is over at every
engine that it names, with no step counted. -/
def State.bankFail (s : State) (b : BankId) (c : Command) : State :=
  if c.st = .queued then (s.dropFromBanks c.id).endCmd c.id 3
  else (s.modCmd c.id fun x => { x with bad := true }).bankDone b { c with bad := true }

/-- BANK_ENGINE_RESUME (R382, R386, R496): the present command starts or resumes once both queues have been empty for 32 ns; on an
engine out of service it ends, and one that has not started ends where any engine that it names is. -/
def execBankEngineResume (b : BankId) (s : State) : Outcome State Fault Refusal :=
  let e := s.bank b
  match e.queue.head?.bind s.cmd with
  | none => .next s
  | some c =>
    let quiet := !s.ordinaryWaits b && decide (e.quiet + 32 ≤ s.ptc.toNat)
    let mayRun := quiet && !c.cancelled && !c.held && s.engReady c false
    if s.bankOut b || (decide (c.st = .queued) && c.op.banks.any s.bankOut) then .next (s.bankFail b c)
    else if e.st = .waiting ∧ mayRun then
      .next ((s.setBank b { e with st := .running }).modCmd c.id fun x => { x with st := .running })
    else if e.st = .suspended ∧ mayRun then .next (s.setBank b { e with st := .running })
    else .next s

/-- BANK_ROW_STEP (R385, R386, R497): a row step with no access between its steps; at its end the engine suspends where an ordinary
request waits, and stops where its command is cancelled. Between two steps the engine stands at a row boundary (log entry 56), where it
stops if its channel is being retired or it is out of service. -/
def execBankRowStep (b : BankId) (s : State) : Outcome State Fault Refusal :=
  let e := s.bank b
  match e.st, e.queue.head?.bind s.cmd with
  | .running, some c =>
    match c.op with
    | .bankrun m _ _ _ =>
      if s.bankOut b then .next (s.bankFail b c) else
      let (r, s1) := bankCols b m e.row (m.rowSteps e.mpc) (List.range m.cols) { acc := e.acc, steps := 0, ok := true } s
      let steps := if r.ok then r.steps + 1 else r.steps
      let c1 := { c with count := satCount (c.count + steps), bad := c.bad || !r.ok }
      let s2 := s1.modCmd c.id fun _ => c1
      let e1 := { e with mpc := m.nextMpc e.mpc, row := e.row + 1, acc := r.acc }
      if !r.ok || decide (m.rows ≤ e.row + 1) then .next (s2.bankDone b c1)
      else if s.ordinaryWaits b then .next (s2.setBank b { e1 with st := .suspended, susp := e.susp + 1 })
      else if c.cancelled then .next (s2.setBank b { e1 with st := .suspended })
      else .next (s2.setBank b e1)
    | _ => .next s
  | _, _ => .next s

/-- The status record of a bank engine (R411). -/
def BankEng.status (e : BankEng) (lid : Nat) : List Byte :=
  let st := match e.st with | .idle => 0 | .running => 1 | .suspended => 2 | .waiting => 3
  [BitVec.ofNat 8 st, BitVec.ofNat 8 e.mpc, 0#8, 0#8] ++ leBytes 4 e.row ++ leBytes 4 e.susp ++ leBytes 4 lid

/-- BANKST_SAMPLE (R411, R501). A BANKST's step counter has a bit for each engine that has written its record, or is out of service and
writes none. -/
def execBankstSample (id : Nat) (b : BankId) (s : State) : Outcome State Fault Refusal :=
  match s.acting id true with
  | none => .next s
  | some c =>
    match c.op with
    | .bankst r stk first n =>
      let k := b.eng - first
      let granted (b : BankId) : Bool := (s.grantOf c).contains b
      if c.held ∨ c.cancelled ∨ b.stack ≠ stk ∨ b.eng < first ∨ first + n ≤ b.eng ∨ granted b = false ∨ c.step / 2 ^ k % 2 = 1 then .next s
      else
        let e := s.bank b
        let lid := ((e.queue.head?.bind s.cmd).map fun d => d.coh.team.lid).getD 0
        let seen := c.step + 2 ^ k
        let bad := c.bad || s.bankOut b
        let write (t : Team) : Team := if s.bankOut b then t else t.scratchPut (r.base + 16 * k) (e.status lid)
        let s1 := (s.modTeam c.coh.team write).modCmd id fun x => { x with step := seen, bad := bad }
        let isOver := (List.range n).all fun i => !granted { stack := stk, eng := first + i } || decide (seen / 2 ^ i % 2 = 1)
        .next (if isOver then s1.endCmd id (if bad then 3 else 0) else s1)
    | _ => .next s

/-! ### Walkers -/

/-- What one read of a walk comes to (R388, R390, R445): the step's next read, the next vertex, a dead end, the address that stops it,
or a walker out of service. -/
inductive WalkNext where
  | more (next : WalkRead)
  | tgt (v x : Word)
  | deadEnd
  | stopAt (va : Nat)
  | outage
  deriving DecidableEq, Repr

/-- A word that a walker reads (R388, R390), on the walker of the stack that holds it (R387): what stops the walk where the read meets a
fault or poison. -/
def walkRead (s : State) (c : Command) (va : Nat) : Except WalkNext Nat × State :=
  match engPlace false s c .read va 4 with
  | (none, s1) => (.error (.stopAt va), s1)
  | (some p, s1) =>
    if s.rel.out.contains (.walker (placeOf p.pa).stack) then (.error .outage, s1)
    else
      match engRead true c [p] s1 with
      | (some bs, s2) => (.ok (leNat bs), s2)
      | (none, s2) => (.error (.stopAt va), s2)

/-- The generator of a walk (R388). -/
def xorShift (x : Word) : Word :=
  let a := x ^^^ (x <<< 13)
  let b := a ^^^ (a >>> 17)
  b ^^^ (b <<< 5)

/-- What a word read means to a walk (R388). -/
def WalkRun.took (w : WalkRec) (r : WalkRun) (n : Nat) : WalkNext :=
  match r.read with
  | .degree => if n = 0 then .deadEnd else .more (.offset n)
  | .offset d => .more (.neighbour (w.nab + 4 * (n + (xorShift r.x).toNat % d)))
  | .neighbour _ => .tgt (BitVec.ofNat 32 n) (xorShift r.x)

/-- One read of a walk (R388). -/
def walkOnce (s : State) (c : Command) (w : WalkRec) (r : WalkRun) : WalkNext × State :=
  match walkRead s c (w.readAt r) with
  | (.error e, s1) => (e, s1)
  | (.ok n, s1) => (r.took w n, s1)

/-- A walk after one of its reads (R387 to R390, R445). -/
def State.walkOn (s : State) (c : Command) (w : WalkRec) (r : WalkRun) (n : WalkNext) : State :=
  match n with
  | .more p => s.placeWalk c w { r with read := p }
  | .deadEnd => s.setWalk c.id { r with isOver := true }
  | .stopAt va => s.setWalk c.id { r with isOver := true, stop := some va }
  | .outage => s.endCmd c.id 3
  | .tgt v x =>
    let r1 := { r with x := x, read := .degree, out := r.out ++ [v], isOver := decide (w.steps ≤ r.out.length) }
    (s.placeWalk c w r1).modCmd c.id fun y => { y with count := r.out.length, step := r.out.length }

/-- Reads of a walk's step, as far as the walkers that it comes to serve it (R387); one cancelled meanwhile stops at the step's end.
Fuel bounds their number. -/
def walkReads (c : Command) (w : WalkRec) : Nat → State → State
  | 0, s => s
  | k + 1, s =>
    match s.walkRun c.id with
    | none => s
    | some r =>
      if r.isOver || !s.walkServed r then s
      else
        let (n, s1) := walkOnce s c w r
        let s2 := s1.walkOn c w r n
        match n with
        | .more _ => walkReads c w k s2
        | .tgt _ _ | .deadEnd | .stopAt _ | .outage => if c.cancelled then s2.endCmd c.id 4 else s2

/-- WALK_STEP (R387, R388, R390): a step, or what is left of one that waits for its turn at a walker. -/
def execWalkStep (id : Nat) (s : State) : Outcome State Fault Refusal :=
  match s.acting id false with
  | some c =>
    match c.op with
    | .walk w _ _ _ => .next (walkReads c w 3 s)
    | _ => .next s
  | none => .next s

/-- The words of a walk's output (R389). -/
def WalkRun.output (r : WalkRun) (steps : Nat) : List Word :=
  let a := r.stop.getD 0
  r.out ++ List.replicate (steps + 1 - r.out.length) 0xFFFFFFFF#32 ++ [r.x, BitVec.ofNat 32 a, BitVec.ofNat 32 (a / 2 ^ 32)]

/-- Words written in order below the die cache; whether all were (R389, R390). -/
def walkWrite (c : Command) : List Word → Nat → State → Bool × State
  | [], _, s => (true, s)
  | w :: rest, va, s =>
    match engPlace false s c .write va 4 with
    | (none, s1) => (false, s1)
    | (some p, s1) => walkWrite c rest (va + 4) (baseWrite s1 p.pa (leBytes 4 w.toNat))

/-- WALK_OUTPUT (R389, R390). -/
def execWalkOutput (id : Nat) (s : State) : Outcome State Fault Refusal :=
  match s.acting id false, s.walkRun id with
  | some c, some r =>
    match c.op with
    | .walk w _ _ out =>
      if r.isOver then
        (let (ok, s1) := walkWrite c (r.output w.steps) out s
         .next (s1.endCmd id (if ok && r.stop.isNone then 0 else 3)))
      else .next s
    | _ => .next s
  | _, _ => .next s

end Sys2Proof.Machine
end

