-- ==== Sys2Proof/Machine/Fabric.lean ====
section
/-!
DEFINITION. Messages between modules (R512 to R516): the packets and headers that are taken, the planes that messages leave on, and
the messages of the VNP and of the collective engines as they travel (R473, R533).
-/

namespace Sys2Proof.Machine

/-! ### Packets that arrive -/

/-- Whether a packet's delivery mode and operation stand in the table of R512 for its port. -/
def Umril.listed (m : Umril) : Bool :=
  (match m.mode with
   | .rud => decide (m.port < 20)
   | .rod => decide (m.port < 16)
   | .uud | .rudi => false) &&
  match m.op with
  | .send | .rmaWrite => true
  | .other => false

/-- Whether a Umril message is discarded (R515), the words of CLASS 5 among the reasons (R533). -/
def State.discards (s : State) (m : Umril) : Bool :=
  let h := m.hdr
  decide (h.ver ≠ 1 ∨ h.cls = 0 ∨ 5 < h.cls ∨ h.dst ≠ s.moduleNo ∨ h.len + 16 ≠ m.uetLen ∨ (h.cls = 5 ∧ 1 < m.word)) ||
    !(s.module.maddr.any fun e => e.1 = h.src)

/-- The first of some messages that a test picks, with the others. -/
def takeFirst (f : Umril → Bool) : List Umril → Option (Umril × List Umril)
  | [] => none
  | m :: rest => if f m then some (m, rest) else (takeFirst f rest).map fun x => (x.1, m :: x.2)

/-- A message that has been accepted taken by its unit. -/
def State.takeUmril (s : State) (f : Umril → Bool) : Option (Umril × State) :=
  (takeFirst f s.module.inbox).map fun x => (x.1, { s with module := { s.module with inbox := x.2 } })

/-- A message of a class from a module, by its tag and sequence number (R514). -/
def Umril.fits (m : Umril) (src cls tag seq : Nat) : Bool :=
  decide (m.hdr.src = src ∧ m.hdr.cls = cls ∧ m.hdr.tag = tag ∧ m.hdr.seq = seq)

/-! ### The clock -/

/-- Whether the conditions of R522 hold: an estimate beyond 500 us, or no lock for longer than 1 s. -/
def Clock.bad (c : Clock) (now : Nat) : Bool := decide (500000 < c.offset.natAbs) || (!c.locked && decide (c.lostAt + 1000000000 < now))

/-- The conditions of R522 at this module. -/
def State.clockBad (s : State) : Bool := s.module.clock.bad s.ptc.toNat

/-- A clock after some ticks (R520): while it is locked, its offset is slewed, by at most 100 millionths of them. -/
def Clock.slewed (n : Nat) (c : Clock) : Clock :=
  if c.locked ∧ c.offset ≠ 0 then
    (let acc := c.slew + n * min 100 Config.slewPpm
     let k := min c.offset.natAbs (acc / 1000000)
     { c with offset := if 0 ≤ c.offset then c.offset - k else c.offset + k, slew := acc % 1000000 })
  else { c with slew := 0 }

/-! ### Messages that leave -/

/-- Whether a class travels by ROD (R514). -/
def rodClass (cls : Nat) : Bool := decide (cls ≤ 2)

/-- The plane of a message from a module (R516): none with no healthy plane. -/
def planeFor (planes : List Nat) (me : Nat) (f : Flight) : Option Nat :=
  if planes.isEmpty then none
  else planes[(me + f.dst + if rodClass f.cls then 0 else f.n) % planes.length]?

/-- Whether a new message to a destination waits for earlier ones (R516): both are ROD, and the plane of the pair has changed. -/
def Flight.waitsFor (f : Flight) (plane : Option Nat) (earlier : List Flight) : Bool :=
  rodClass f.cls && earlier.any fun g => rodClass g.cls && decide (g.dst = f.dst ∧ g.plane ≠ plane)

/-- A message sent where it may be. -/
def Flight.depart (planes : List Nat) (me : Nat) (earlier : List Flight) (f : Flight) : Flight :=
  let p := planeFor planes me f
  if f.plane.isSome || f.waitsFor p earlier then f else { f with plane := p }

/-- Messages that wait, in order, sent as far as they may be. -/
def Module.sendHeld (m : Module) (me : Nat) : Module :=
  { m with flights := m.flights.foldl (fun acc f => acc ++ [f.depart m.planes me acc]) [] }

/-- Messages begun. -/
def Module.fly (m : Module) (me : Nat) (fs : List Flight) : Module :=
  { m with flights := fs.foldl (fun acc f => acc ++ [f.depart m.planes me acc]) m.flights }

/-- The messages of a plane that has failed, on the plane that the list gives now (R516). -/
def Module.refly (m : Module) (me plane : Nat) : Module :=
  Module.sendHeld { m with flights := m.flights.map fun f => if f.plane = some plane then { f with plane := planeFor m.planes me f } else f } me

/-- A message acknowledged by UET (R516). -/
def Module.landed (m : Module) (me : Nat) (f : Flight) : Module := Module.sendHeld { m with flights := m.flights.erase f } me

/-! ### The VNP's messages -/

/-- The module a message of the VNP goes to; none for the storage service (R473). -/
def VnpMsg.module : VnpMsg → Option Nat
  | .dirq d _ _ _ | .reply d _ _ _ | .pageData d _ _ _ _ | .ask d _ _ _ | .ack d _ _ | .renew d _ _ | .renewed d _ _ _ | .release d _ _ => some d
  | .pageRead src _ _ | .writeBack src _ _ _ => match src with | .module d _ => some d | .storage _ => none

/-- Its class (R514): request, reply or page data. -/
def VnpMsg.cls : VnpMsg → Nat
  | .dirq _ _ _ _ | .pageRead _ _ _ | .ask _ _ _ _ | .renew _ _ _ | .release _ _ _ => 1
  | .reply _ _ _ _ | .ack _ _ _ | .renewed _ _ _ _ => 2
  | .pageData _ _ _ _ _ | .writeBack _ _ _ _ => 3

/-- Its key and its step's sequence number (R475). -/
def VnpMsg.step : VnpMsg → PageKey × Nat
  | .dirq _ k _ q | .reply _ k q _ | .pageData _ k q _ _ | .ask _ k _ q | .ack _ k q | .renew _ k q | .renewed _ k q _ | .release _ k q
  | .pageRead _ k q | .writeBack _ k q _ => (k, q)

/-- The places of its messages among those of their step: page data comes in 16 of 4,096 bytes (R473). -/
def VnpMsg.places : VnpMsg → List Nat
  | .pageData _ _ _ i _ => [i]
  | .writeBack _ _ _ _ => List.range 16
  | .dirq _ _ _ _ | .pageRead _ _ _ | .ask _ _ _ _ | .renew _ _ _ | .release _ _ _ | .reply _ _ _ _ | .ack _ _ _ | .renewed _ _ _ _ => [0]

/-- TAG of a VNP message (R514): the ASID in bits 31 to 16. -/
def vnpTag (key : PageKey) : Nat := 65536 * key.asid

/-- A VNP message as it travels to another module. -/
def VnpMsg.flights (me : Nat) (m : VnpMsg) : List Flight :=
  match m.module with
  | some d =>
    if d = me then []
    else m.places.map fun n =>
      { dst := d, cls := m.cls, len := if m.cls = 3 then some 4096 else none, tag := vnpTag m.step.1, seq := m.step.2, n := n, plane := none }
  | none => []

/-! ### The collective engines' messages -/

/-- SEQ of a chunk's messages (R533). -/
def chunkSeq (nch step chunk : Nat) : Nat := step * 65536 + chunk % nch

/-- SEQ of a shape (R533). -/
def shapeSeq : Nat := 0xFFFFFFFF

/-- A collective's message as it travels to another module (R533): a chunk as a data and a check message, a request or an acknowledgement
as one of CLASS 5, a shape as one of CLASS 4 with a SEQ of its own. -/
def CollMsg.flights (nch dst : Nat) (m : CollMsg) : List Flight :=
  let one (cls len tag seq n : Nat) : Flight := { dst := dst, cls := cls, len := some len, tag := tag, seq := seq, n := n, plane := none }
  match m with
  | .shape cid _ => [one 4 32 cid shapeSeq 0]
  | .chunk cid st g _ _ => [one 4 4096 cid (chunkSeq nch st g) 0, one 4 16 cid (chunkSeq nch st g) 1]
  | .ack cid st g | .again cid st g => [one 5 4 cid (chunkSeq nch st g) 0]

end Sys2Proof.Machine
end

