-- ==== Sys2Proof/Machine/Floating.lean ====
section
/-!
DEFINITION. The floating-point group (opcodes 0x40 to 0x57, R158 to R165): the shared rule of R159 and R160, the approximated
functions of R163 within their bounds, and one meaning for each instruction.
-/

namespace Sys2Proof.Machine

open Host (Outcome)

/-! ### Shared rules -/

/-- An operand of R159: decoded, flushed, negated. -/
def floatOperand (s : State) (t : Tid) (f : Fmt) (neg : Bool) (v : Nat) : XVal :=
  (readFlushed (iflOf s t) f v).negIf neg

/-- The delivered result of R159: one rounding, then output flush, with the operation's own flags. -/
def floatResult (s : State) (t : Tid) (f : Fmt) (rm : RMode) (sat : Bool) (r : OpResult) : Rounded :=
  let x := flushOut (oflOf s t) f (roundFloat f (.mode rm) sat r.val)
  { x with flags := x.flags ||| r.flags }

/-- A scalar f32 result as a register result. -/
def Rounded.toResult (r : Rounded) : Result := { words := [BitVec.ofNat 32 r.bits], flags := r.flags }

/-- A scalar instruction of one operand. -/
def float1 (gd : Guard) (d : Dest) (a : Src) (rm : RMode) (sat na : Bool) (f : XVal → OpResult) (s : State) :
    Outcome State Fault Refusal :=
  .next (result gd d 1 (fun t => do
    let x ← readSrc s t a
    .ok (floatResult s t .f32 rm sat (f (floatOperand s t .f32 na x.toNat))).toResult) s)

/-- A scalar instruction of two operands. -/
def float2 (gd : Guard) (d : Dest) (a b : Src) (rm : RMode) (sat na nb : Bool) (f : XVal → XVal → OpResult) (s : State) :
    Outcome State Fault Refusal :=
  .next (result gd d 1 (fun t => do
    let x ← readSrc s t a
    let y ← readSrc s t b
    .ok (floatResult s t .f32 rm sat (f (floatOperand s t .f32 na x.toNat) (floatOperand s t .f32 nb y.toNat))).toResult)
    s)

/-- Two results packed into one register, their flags united (R160). -/
def packRounded (e0 e1 : Rounded) : Result :=
  { words := [BitVec.ofNat 32 (e0.bits + 2 ^ 16 * e1.bits)], flags := e0.flags ||| e1.flags }

/-- A packed instruction of two operands (R160). -/
def packed2 (gd : Guard) (d : Dest) (a b : Src) (f : Fmt) (rm : RMode) (sat na nb : Bool) (op : XVal → XVal → OpResult)
    (s : State) : Outcome State Fault Refusal :=
  .next (result gd d 1 (fun t => do
    let x ← readSrc s t a
    let y ← readSrc s t b
    let e (k : Nat) := floatResult s t f rm sat
      (op (floatOperand s t f na (elemOf f x.toNat k)) (floatOperand s t f nb (elemOf f y.toNat k)))
    .ok (packRounded (e 0) (e 1))) s)

/-- A packed fused multiply and add (R160, R161). -/
def packed3 (gd : Guard) (d : Dest) (a b c : Src) (f : Fmt) (rm : RMode) (sat na nb nc : Bool) (s : State) :
    Outcome State Fault Refusal :=
  .next (result gd d 1 (fun t => do
    let x ← readSrc s t a
    let y ← readSrc s t b
    let z ← readSrc s t c
    let e (k : Nat) := floatResult s t f rm sat
      (fmaX rm (floatOperand s t f na (elemOf f x.toNat k)) (floatOperand s t f nb (elemOf f y.toNat k))
        (floatOperand s t f nc (elemOf f z.toNat k)))
    .ok (packRounded (e 0) (e 1))) s)

/-! ### Minimum and maximum -/

/-- Whether x ranks below y, -0 below +0 (R162). -/
def ranksBelow (x y : XVal) : Bool :=
  match cmpX x y with
  | some .lt => true
  | some .eq => x.isZero && x.isNeg && !y.isNeg
  | _ => false

/-- minimumNumber and maximumNumber (R162); exact, so the encoding of the chosen operand is its own. -/
def pickNumber (mx : Bool) (x y : XVal) : XVal :=
  match x, y with
  | .nan, _ => y
  | _, .nan => x
  | _, _ => if ranksBelow x y then (if mx then y else x) else (if mx then x else y)

/-- FMIN and FMAX set no flag and apply no output flush (R162). -/
def floatPick (gd : Guard) (d : Dest) (a b : Src) (mx na nb : Bool) (s : State) : Outcome State Fault Refusal :=
  .next (result gd d 1 (fun t => do
    let x ← readSrc s t a
    let y ← readSrc s t b
    let v := pickNumber mx (floatOperand s t .f32 na x.toNat) (floatOperand s t .f32 nb y.toNat)
    .ok { words := [BitVec.ofNat 32 (roundFloat .f32 (.mode .rne) false v).bits] }) s)

/-! ### Square root, integral rounding, scaling -/

/-- FSQRT (R161). -/
def sqrtOp (x : XVal) : OpResult :=
  match x with
  | .nan => { val := .nan }
  | .inf s => if s then invalidOp else { val := .inf false }
  | .fin s n d => if n = 0 then { val := .zero s } else if s then invalidOp else { val := sqrtX n d }

/-- FRND: an integral value with the sign of the operand, NX where it differs (R161). -/
def roundOp (rm : RMode) (x : XVal) : OpResult :=
  match x with
  | .fin s n d =>
    let (i, exact) := roundToInt (.mode rm) s n d
    { val := .fin s i.natAbs 1, flags := flagIf (!exact) flagNX }
  | y => { val := y }

/-- FSCALE: a x 2^sb under one rounding. Beyond 1,000 either way every non-zero f32 overflows or vanishes alike, so the
exponent is held there (R161). -/
def scaleOp (x : XVal) (sb : Int) : OpResult := { val := x.shift (max (-1000) (min 1000 sb)) }

/-! ### Approximated functions -/

/-- Kinds of special outcome of R163. -/
inductive Special where
  /-- an exact result, no flag -/
  | exact (v : XVal)
  /-- a special input with its flags -/
  | flagged (v : XVal) (fl : FlagSet)
  /-- neither: the approximated case -/
  | approx
  deriving DecidableEq, Repr

/-- The exponent of an exact power of two. -/
def powerOfTwo (n d : Nat) : Option Int :=
  let e := ilog2 n d
  let ok := if 0 ≤ e then n == d * 2 ^ e.toNat else n * 2 ^ (-e).toNat == d
  if ok then some e else none

/-- A finite magnitude as an integer, where it is one. -/
def asInteger (n d : Nat) : Option Nat := if n % d = 0 then some (n / d) else none

/-- Exact results and special inputs of each function (R163). -/
def specialOf (fn : Config.ApproxFn) (x : XVal) : Special :=
  match x with
  | .nan => .exact .nan
  | .inf s =>
    match fn with
    | .frsq | .flog2 => if s then .flagged .nan flagNV else .exact (if fn = .frsq then .zero false else .inf false)
    | .fexp2 => .exact (if s then .zero false else .inf false)
    | .fsin | .fcos => .flagged .nan flagNV
    | .ftanh => .exact (.fin s 1 1)
  | .fin s n d =>
    match fn with
    | .frsq =>
      if n = 0 then .flagged (.inf s) flagDZ
      else if s then .flagged .nan flagNV
      else match powerOfTwo n d with
        | some e => if e % 2 = 0 then .exact (.scaled false 1 (-(e / 2))) else .approx
        | none => .approx
    | .flog2 =>
      if n = 0 then .flagged (.inf true) flagDZ
      else if s then .flagged .nan flagNV
      else match powerOfTwo n d with
        | some e => .exact (.ofInt e)
        | none => .approx
    | .fexp2 =>
      if n = 0 then .exact (.fin false 1 1)
      else if !s && decide (128 * d ≤ n) then .flagged (.inf false) (flagOF ||| flagNX)
      else match asInteger n d with
        | some k => if s && decide (149 < k) then .approx else .exact (.scaled false 1 (if s then -(k : Int) else k))
        | none => .approx
    | .fsin =>
      match asInteger n d, asInteger (2 * n) d with
      | some _, _ => .exact (.zero s)
      | none, some k => .exact (.fin (s != decide (k / 2 % 2 = 1)) 1 1)
      | none, none => .approx
    | .fcos =>
      match asInteger n d, asInteger (2 * n) d with
      | some k, _ => .exact (.fin (decide (k % 2 = 1)) 1 1)
      | none, some _ => .exact (.zero false)
      | none, none => .approx
    | .ftanh =>
      if n = 0 then .exact (.zero s)
      else if 10 * d ≤ n then .flagged (.fin s 1 1) flagNX
      else .approx

/-- An interval of rationals with a common denominator: the exact value lies in it. -/
structure Bracket where
  lo : Int
  hi : Int
  den : Nat
  deriving DecidableEq, Repr

/-- The square root of n / d (R163). -/
def sqrtBracket (n d : Nat) : Bracket :=
  let r := isqrt (n * 4 ^ 250 / d)
  { lo := (r : Int), hi := ((r + 1 : Nat) : Int), den := 2 ^ 250 }

/-- 2^f for a fraction f = k / 2^60: the product of the roots of 2 its bits name, from below and from above at 128 bits. -/
def exp2Bits (k : Nat) : Nat → Nat → Nat → Nat → Nat → Nat × Nat
  | 0, _, _, accL, accU => (accL, accU)
  | j + 1, rl, ru, accL, accU =>
    let l := isqrt (rl * 2 ^ 128)
    let u := isqrt (ru * 2 ^ 128) + 1
    if k / 2 ^ j % 2 = 1 then exp2Bits k j l u (accL * l / 2 ^ 128) (accU * u / 2 ^ 128 + 1)
    else exp2Bits k j l u accL accU

/-- 2^a: the first 60 bits of the fraction give the roots, and the rest less than one part in 2^59 (R163). -/
def exp2Bracket (neg : Bool) (n d : Nat) : Bracket :=
  let a : Int := if neg then -(n : Int) else n
  let i := a.fdiv d
  let f := (a - i * d).toNat
  let (l, u) := exp2Bits (f * 2 ^ 60 / d) 60 (2 ^ 129) (2 ^ 129) (2 ^ 128) (2 ^ 128)
  let u' : Nat := u + u / 2 ^ 59 + 1
  if 0 ≤ i then { lo := (l * 2 ^ i.toNat : Nat), hi := (u' * 2 ^ i.toNat : Nat), den := 2 ^ 128 }
  else { lo := l, hi := u', den := 2 ^ 128 * 2 ^ (-i).toNat }

/-- Bits of log2 m for m in [1, 2) held in [l, u] / 2^200 by repeated squaring; the bits found, and how many. -/
def log2Bits : Nat → Nat → Nat → Nat → Nat → Nat × Nat
  | 0, _, _, acc, k => (acc, k)
  | fuel + 1, l, u, acc, k =>
    let l2 := l * l / 2 ^ 200
    let u2 := u * u / 2 ^ 200 + 1
    if 2 ^ 201 ≤ l2 then log2Bits fuel (l2 / 2) (u2 / 2 + 1) (2 * acc + 1) (k + 1)
    else if u2 < 2 ^ 201 then log2Bits fuel l2 u2 (2 * acc) (k + 1)
    else (acc, k)

/-- log2(n / d) (R163). -/
def log2Bracket (n d : Nat) : Bracket :=
  let e := ilog2 n d
  let m := if 0 ≤ e then n * 2 ^ 200 / (d * 2 ^ e.toNat) else n * 2 ^ 200 * 2 ^ (-e).toNat / d
  let (acc, k) := log2Bits 100 m (m + 1) 0 0
  { lo := e * 2 ^ k + acc, hi := e * 2 ^ k + acc + 1, den := 2 ^ k }

/-- floor(pi x 2^400). -/
def piScaled : Nat :=
  8112377246730971238862271351300894519161151600179265203591191037615230905373990498745523360926816815427566779727327576236

/-- Partial sums of the sine series of x / 2^400: the first is below, the second above (x at most 1.6). -/
def sinSum (x : Nat) : Nat → Nat → Nat → Int → Int
  | 0, _, _, acc => acc
  | fuel + 1, k, term, acc =>
    let t := term * x / 2 ^ 400 * x / 2 ^ 400 / ((2 * k) * (2 * k + 1))
    sinSum x fuel (k + 1) t (if k % 2 = 1 then acc - t else acc + t)

/-- sin(pi x n / d) for any n / d >= 0 (R163): the argument is reduced exactly to a quarter turn. -/
def sinBracket (neg : Bool) (n d : Nat) : Bracket :=
  let r := n % (2 * d)
  let low := if r ≤ d then r else r - d
  let flip := neg != decide (d < r)
  let q := if 2 * low ≤ d then low else d - low
  let x := piScaled * q / d
  let lo := sinSum x 17 1 x x - 2 ^ 16
  let hi := sinSum x 18 1 x x + 2 ^ 16
  if flip then { lo := -hi, hi := -lo, den := 2 ^ 400 } else { lo := lo, hi := hi, den := 2 ^ 400 }

/-- The exponential series less 1 of z / 2^400, from below. -/
def expm1Sum (z : Nat) : Nat → Nat → Nat → Nat → Nat
  | 0, _, _, acc => acc
  | fuel + 1, k, term, acc =>
    let t := term * z / 2 ^ 400 / k
    expm1Sum z fuel (k + 1) t (acc + t)

/-- (1 + e)^2 - 1 six times, at 2^400, rounded down, or up by adding up. -/
def squareUp (up : Nat) : Nat → Nat → Nat
  | 0, e => e
  | k + 1, e => squareUp up k (e * (e + 2 * 2 ^ 400) / 2 ^ 400 + up)

/-- tanh(n / d) for 0 < n / d < 10 (R163): e^(2x) - 1 over e^(2x) + 1. -/
def tanhBracket (neg : Bool) (n d : Nat) : Bracket :=
  let z := n * 2 ^ 400 / (32 * d)
  let l := squareUp 0 6 (expm1Sum z 40 1 (2 ^ 400) 0)
  let u := squareUp 1 6 (expm1Sum (z + 1) 40 1 (2 ^ 400) 0 + 2 ^ 60)
  let lo : Int := (l * 2 ^ 400 / (l + 2 * 2 ^ 400) : Nat)
  let hi : Int := (u * 2 ^ 400 / (u + 2 * 2 ^ 400) + 1 : Nat)
  if neg then { lo := -hi, hi := -lo, den := 2 ^ 400 } else { lo := lo, hi := hi, den := 2 ^ 400 }

/-- Where the exact value of a function lies (R163). -/
def bracketOf (fn : Config.ApproxFn) (neg : Bool) (n d : Nat) : Bracket :=
  match fn with
  | .frsq => sqrtBracket d n
  | .fexp2 => exp2Bracket neg n d
  | .flog2 => log2Bracket n d
  | .fsin => sinBracket neg n d
  | .fcos => sinBracket false (2 * n + d) (2 * d)
  | .ftanh => tanhBracket neg n d

/-- The stated error as a rational (R163): ulp of the exact result, and FLOG2's absolute bound between 0.5 and 2. The ulp
is that of the bracket's end nearer 0, so that it is never above that of the exact result. -/
def errorBound (fn : Config.ApproxFn) (n d : Nat) (b : Bracket) : Nat × Nat :=
  let e := max (ilog2 (min b.lo.natAbs b.hi.natAbs) b.den) (-126) - 23
  let k := if fn = .frsq then 1 else 2
  let ulps := if 0 ≤ e then (k * 2 ^ e.toNat, 1) else (k, 2 ^ (-e).toNat)
  if fn = .flog2 && decide (d ≤ 2 * n) && decide (n ≤ 2 * d) && decide (ulps.1 * 2 ^ 22 < ulps.2) then (1, 2 ^ 22)
  else ulps

/-- Whether a value lies within the stated error of every value of the interval that holds the exact result (log entry 11). -/
def withinBound (v : XVal) (b : Bracket) (bound : Nat × Nat) : Bool :=
  match v with
  | .fin s n d =>
    let x : Int := if s then -(n : Int) else n
    -- hi / den - p / q <= x / d <= lo / den + p / q
    decide (b.hi * bound.2 * d ≤ (x * bound.2 + bound.1 * d) * b.den)
      && decide ((x * bound.2 - bound.1 * d) * b.den ≤ b.lo * bound.2 * d)
  | .nan | .inf _ => false

/-- The result bits of an approximated case: the implementation's own where they keep the bound (log entry 11), and the
nearest value otherwise, which keeps it. UF is judged on the delivered result (R164), which is tiny only when it is not
zero (R87). -/
def approxResult (fn : Config.ApproxFn) (v : Word) (neg : Bool) (n d : Nat) : Rounded :=
  let b := bracketOf fn neg n d
  let c := (Config.approxBits fn v).toNat
  let bits :=
    if withinBound (decodeFloat .f32 c) b (errorBound fn n d b) then c
    else (roundFloat .f32 (.mode .rne) true (.fin (decide (b.lo < 0)) b.lo.natAbs b.den)).bits
  let tiny := decide (bits / 2 ^ 23 % 256 = 0) && decide (bits % 2 ^ 23 ≠ 0)
  { bits := bits, flags := flagNX ||| flagIf tiny flagUF }

/-- An approximated function of an encoding read as R159 reads it (R163, R164). -/
def approxOf (fn : Config.ApproxFn) (v : Word) (x : XVal) : Rounded :=
  match specialOf fn x with
  | .exact y => roundFloat .f32 (.mode .rne) false y
  | .flagged y fl => { bits := (roundFloat .f32 (.mode .rne) false y).bits, flags := fl }
  | .approx =>
    match x with
    | .fin s n d => approxResult fn v s n d
    | .nan | .inf _ => { bits := nanBits .f32, flags := noFlags }

/-- An approximated function as an instruction. The operand's bits that choose among the allowed results are those of the
value after flush and negation, so one input gives one result (R163). -/
def approx1 (gd : Guard) (d : Dest) (a : Src) (fn : Config.ApproxFn) (na : Bool) (s : State) :
    Outcome State Fault Refusal :=
  .next (result gd d 1 (fun t => do
    let x ← readSrc s t a
    let v := floatOperand s t .f32 na x.toNat
    let bits := BitVec.ofNat 32 (roundFloat .f32 (.mode .rne) false v).bits
    .ok (flushOut (oflOf s t) .f32 (approxOf fn bits v)).toResult) s)

/-! ### The dot product -/

/-- The element format of an FDOT8 operand (R165). -/
def fmtOfDot : DotFmt → Fmt
  | .e4m3 => .e4m3
  | .e5m2 => .e5m2
  | .e2m1 => .e2m1

/-- FDOT8 (R165): one exact sum, one rounding; no flush of the narrow elements (R86). -/
def dotOp (rm : RMode) (fa fb : DotFmt) (na nb : Bool) (x y : Nat) (c : XVal) : OpResult :=
  sumX rm ((List.range 8).map fun k =>
    mulX ((decodeFloat (fmtOfDot fa) (elemOf (fmtOfDot fa) x k)).negIf na)
      ((decodeFloat (fmtOfDot fb) (elemOf (fmtOfDot fb) y k)).negIf nb)) c

/-! ### Meanings -/

/-- FADD (R161). -/
def execFadd (gd : Guard) (d : Dest) (a b : Src) (rm : RMode) (sat na nb : Bool) (s : State) :
    Outcome State Fault Refusal :=
  float2 gd d a b rm sat na nb (addX rm) s

/-- FSUB (R161). -/
def execFsub (gd : Guard) (d : Dest) (a b : Src) (rm : RMode) (sat na nb : Bool) (s : State) :
    Outcome State Fault Refusal :=
  float2 gd d a b rm sat na nb (fun x y => addX rm x y.neg) s

/-- FMUL (R161). -/
def execFmul (gd : Guard) (d : Dest) (a b : Src) (rm : RMode) (sat na nb : Bool) (s : State) :
    Outcome State Fault Refusal :=
  float2 gd d a b rm sat na nb mulX s

/-- FFMA (R161). -/
def execFfma (gd : Guard) (d : Dest) (a b c : Src) (rm : RMode) (sat na nb nc : Bool) (s : State) :
    Outcome State Fault Refusal :=
  .next (result gd d 1 (fun t => do
    let x ← readSrc s t a
    let y ← readSrc s t b
    let z ← readSrc s t c
    .ok (floatResult s t .f32 rm sat (fmaX rm (floatOperand s t .f32 na x.toNat) (floatOperand s t .f32 nb y.toNat)
      (floatOperand s t .f32 nc z.toNat))).toResult) s)

/-- FMIN (R162). -/
def execFmin (gd : Guard) (d : Dest) (a b : Src) (na nb : Bool) (s : State) : Outcome State Fault Refusal :=
  floatPick gd d a b false na nb s

/-- FMAX (R162). -/
def execFmax (gd : Guard) (d : Dest) (a b : Src) (na nb : Bool) (s : State) : Outcome State Fault Refusal :=
  floatPick gd d a b true na nb s

/-- PKADH (R160, R161). -/
def execPkadh (gd : Guard) (d : Dest) (a b : Src) (rm : RMode) (sat na nb : Bool) (s : State) :
    Outcome State Fault Refusal :=
  packed2 gd d a b .f16 rm sat na nb (addX rm) s

/-- PKMLH (R160, R161). -/
def execPkmlh (gd : Guard) (d : Dest) (a b : Src) (rm : RMode) (sat na nb : Bool) (s : State) :
    Outcome State Fault Refusal :=
  packed2 gd d a b .f16 rm sat na nb mulX s

/-- PKFMH (R160, R161). -/
def execPkfmh (gd : Guard) (d : Dest) (a b c : Src) (rm : RMode) (sat na nb nc : Bool) (s : State) :
    Outcome State Fault Refusal :=
  packed3 gd d a b c .f16 rm sat na nb nc s

/-- PKADB (R160, R161). -/
def execPkadb (gd : Guard) (d : Dest) (a b : Src) (rm : RMode) (sat na nb : Bool) (s : State) :
    Outcome State Fault Refusal :=
  packed2 gd d a b .bf16 rm sat na nb (addX rm) s

/-- PKMLB (R160, R161). -/
def execPkmlb (gd : Guard) (d : Dest) (a b : Src) (rm : RMode) (sat na nb : Bool) (s : State) :
    Outcome State Fault Refusal :=
  packed2 gd d a b .bf16 rm sat na nb mulX s

/-- PKFMB (R160, R161). -/
def execPkfmb (gd : Guard) (d : Dest) (a b c : Src) (rm : RMode) (sat na nb nc : Bool) (s : State) :
    Outcome State Fault Refusal :=
  packed3 gd d a b c .bf16 rm sat na nb nc s

/-- FRCP (R161). -/
def execFrcp (gd : Guard) (d : Dest) (a : Src) (rm : RMode) (sat na : Bool) (s : State) : Outcome State Fault Refusal :=
  float1 gd d a rm sat na (fun x => divX (.fin false 1 1) x) s

/-- FRSQ (R163). -/
def execFrsq (gd : Guard) (d : Dest) (a : Src) (na : Bool) (s : State) : Outcome State Fault Refusal :=
  approx1 gd d a .frsq na s

/-- FSQRT (R161). -/
def execFsqrt (gd : Guard) (d : Dest) (a : Src) (rm : RMode) (na : Bool) (s : State) : Outcome State Fault Refusal :=
  float1 gd d a rm false na sqrtOp s

/-- FEXP2 (R163). -/
def execFexp2 (gd : Guard) (d : Dest) (a : Src) (na : Bool) (s : State) : Outcome State Fault Refusal :=
  approx1 gd d a .fexp2 na s

/-- FLOG2 (R163). -/
def execFlog2 (gd : Guard) (d : Dest) (a : Src) (na : Bool) (s : State) : Outcome State Fault Refusal :=
  approx1 gd d a .flog2 na s

/-- FSIN (R163). -/
def execFsin (gd : Guard) (d : Dest) (a : Src) (na : Bool) (s : State) : Outcome State Fault Refusal :=
  approx1 gd d a .fsin na s

/-- FCOS (R163). -/
def execFcos (gd : Guard) (d : Dest) (a : Src) (na : Bool) (s : State) : Outcome State Fault Refusal :=
  approx1 gd d a .fcos na s

/-- FTANH (R163). -/
def execFtanh (gd : Guard) (d : Dest) (a : Src) (na : Bool) (s : State) : Outcome State Fault Refusal :=
  approx1 gd d a .ftanh na s

/-- FDIV (R161). -/
def execFdiv (gd : Guard) (d : Dest) (a b : Src) (rm : RMode) (sat na nb : Bool) (s : State) :
    Outcome State Fault Refusal :=
  float2 gd d a b rm sat na nb divX s

/-- FRND (R161). -/
def execFrnd (gd : Guard) (d : Dest) (a : Src) (rm : RMode) (na : Bool) (s : State) : Outcome State Fault Refusal :=
  float1 gd d a rm false na (roundOp rm) s

/-- FSCALE (R161): b is an integer and is neither flushed nor negated. -/
def execFscale (gd : Guard) (d : Dest) (a b : Src) (rm : RMode) (sat na : Bool) (s : State) :
    Outcome State Fault Refusal :=
  .next (result gd d 1 (fun t => do
    let x ← readSrc s t a
    let y ← readSrc s t b
    .ok (floatResult s t .f32 rm sat (scaleOp (floatOperand s t .f32 na x.toNat) y.toInt)).toResult) s)

/-- FDOT8 (R165). -/
def execFdot8 (gd : Guard) (d : Dest) (a b c : Src) (rm : RMode) (sat na nb nc : Bool) (fb fa : DotFmt) (s : State) :
    Outcome State Fault Refusal :=
  .next (result gd d 1 (fun t => do
    let x ← readNat s t a fa.regs
    let y ← readNat s t b fb.regs
    let z ← readSrc s t c
    .ok (floatResult s t .f32 rm sat (dotOp rm fa fb na nb x y (floatOperand s t .f32 nc z.toNat))).toResult) s)

end Sys2Proof.Machine
end

