-- ==== Sys2Proof/Machine/EventsColl.lean ====
section
/-!
DEFINITION. Steps of the collective engines (R525 to R540) and of CKSUM (R528, R542): the ring schedule, chunks with their checksums,
verification, re-requests and acknowledgements.
-/

namespace Sys2Proof.Machine

open Host (Outcome)

/-! ### Checksums -/

/-- The prime of R528. -/
def sumPrime : Nat := 2147483647

/-- S1 and S2 over words, from word i on (R528). -/
def sumWordsFrom (i s1 s2 : Nat) : List Word → Nat × Nat
  | [] => (s1, s2)
  | w :: rest => sumWordsFrom (i + 1) ((s1 + w.toNat) % sumPrime) ((s2 + (i + 1) * w.toNat) % sumPrime) rest

/-- The checksum of a chunk (R528). -/
def chunkSum (bs : List Byte) : Nat :=
  let r := sumWordsFrom 0 0 0 (leWords bs)
  r.1 + 2 ^ 32 * r.2

/-- CKSUM_CHUNK (R542): a chunk's checksum written as an n64. -/
def execCksumChunk (id : Nat) (s : State) : Outcome State Fault Refusal :=
  match s.cmd id with
  | none => .next s
  | some c =>
    match c.op with
    | .cksum src dst =>
      if (s.acting id (src.inScratch || dst.inScratch)).isNone then .next s
      else
        match tensorPlace s c dst (8 * c.step) 8 with
        | (none, s1) => .next (s1.endCmd id 3)
        | (some ps, s1) =>
          match tensorRead s1 c src (4096 * c.step) 4096 with
          | (none, s2) => .next (s2.endCmd id 3)
          | (some bs, s2) =>
            .next ((tensorPut s2 c dst (8 * c.step) ps (leBytes 8 (chunkSum bs))).stepCmd c 1 (src.bytes / 4096))
    | _ => .next s

/-! ### The ring -/

/-- The module and die of a rank (R526). -/
def CollRec.partOf (d : CollRec) (rank : Nat) : Nat × Nat :=
  let dies := (List.range 4).filter fun i => d.dmask / 2 ^ i % 2 = 1
  (d.mbase + rank / dies.length, dies.getD (rank % dies.length) 0)

/-- Chunks of a segment (R525). -/
def CollRec.segment (d : CollRec) (k : Nat) : List Nat := (List.range d.nch).map fun i => k * d.nch + i

/-- The chunks that a rank sends at a step (R529), in ascending order. -/
def CollRec.sends (d : CollRec) (r st : Nat) : List Nat :=
  let p := d.parts
  match d.op with
  | .allReduce =>
    if st + 2 ≤ p then d.segment ((r + 2 * p - st - 1) % p)
    else if st + 3 ≤ 2 * p then d.segment ((r + 3 * p - st - 1) % p) else []
  | .reduceScatter => if st + 2 ≤ p then d.segment ((r + 2 * p - st - 1) % p) else []
  | .allGather => if st + 2 ≤ p then d.segment ((r + 2 * p - st) % p) else []
  | .broadcast =>
    if st = (r + p - d.root) % p ∧ r ≠ (d.root + p - 1) % p then List.range (p * d.nch) else []

/-- Steps of a collective (R529). -/
def CollRec.stepCount (d : CollRec) : Nat := if d.op = .allReduce then 2 * d.parts - 2 else d.parts - 1

/-- Whether a rank's reception at a step reduces (R529). -/
def CollRec.reduces (d : CollRec) (st : Nat) : Bool :=
  match d.op with
  | .allReduce => decide (st + 2 ≤ d.parts)
  | .reduceScatter => true
  | .allGather | .broadcast => false

/-- The rank before another (R526). -/
def CollRec.before (d : CollRec) (r : Nat) : Nat := (r + d.parts - 1) % d.parts

/-- The rank after another. -/
def CollRec.after (d : CollRec) (r : Nat) : Nat := (r + 1) % d.parts

/-- Chunks that a rank expects to receive, and that it is to send (R529, R537). -/
def CollRec.expects (d : CollRec) (r : Nat) : Nat :=
  match d.op with
  | .allReduce => 2 * (d.parts - 1) * d.nch
  | .reduceScatter | .allGather => (d.parts - 1) * d.nch
  | .broadcast => if r = d.root then 0 else d.parts * d.nch

/-- Chunks that a rank is to send. -/
def CollRec.sendsAll (d : CollRec) (r : Nat) : Nat :=
  match d.op with
  | .allReduce => 2 * (d.parts - 1) * d.nch
  | .reduceScatter | .allGather => (d.parts - 1) * d.nch
  | .broadcast => if r = d.before d.root then 0 else d.parts * d.nch

/-- The shape of a descriptor as it travels: bytes 0x08 to 0x1B (R527, R533). -/
def CollRec.shape (d : CollRec) : List Nat :=
  let op := match d.op with | .allReduce => 0 | .reduceScatter => 1 | .allGather => 2 | .broadcast => 3
  let ety := match d.elem with | .n32 => 2 | .s32 => 6 | .f32 => 8 | .f16 => 9 | _ => 10
  let rop := match d.rop with | .add => 0 | .min => 1 | .max => 2
  [d.cid, d.nch, d.dt, d.mbase + 256 * (d.mcnt - 1) + 65536 * d.dmask + 16777216 * op, ety + 256 * rop + 65536 * d.root]

/-! ### Runs -/

/-- A collective under way: its command, descriptor and run. -/
def State.coll (s : State) (id : Nat) : Option (Command × CollRec × CollRun) :=
  match s.cmd id, tget s.eng.colls id with
  | some c, some r =>
    match c.op with
    | .coll d => if c.st = .running then some (c, d, r) else none
    | _ => none
  | _, _ => none

/-- A run set. -/
def State.setColl (s : State) (id : Nat) (r : CollRun) : State := { s with eng := { s.eng with colls := tput s.eng.colls id r } }

/-- Copies that a die's retention buffer holds (R531). -/
def State.retained (s : State) (die : Nat) : Nat :=
  (s.eng.colls.map fun p => if (s.cmd p.1).any fun c => decide (c.core.die = die) then p.2.kept.length else 0).sum

/-- Where a participant stands: its module and die. -/
def State.here (s : State) (c : Command) : Nat × Nat := (s.moduleNo, c.core.die)

/-- A message to another participant (R526): to another module by the Umril profile. -/
def State.sendColl (s : State) (c : Command) (d : CollRec) (dst : Nat × Nat) (m : CollMsg) : State :=
  { s with eng := { s.eng with msgs := s.eng.msgs ++ [{ dst := dst, src := s.here c, msg := m }] },
           module := if dst.1 = s.moduleNo then s.module else s.module.fly s.moduleNo (m.flights d.nch dst.1) }

/-- What a message is about: its kind, step and chunk. -/
def CollMsg.about : CollMsg → Nat × Nat × Nat × Nat
  | .shape cid _ => (0, cid, 0, 0)
  | .chunk cid st g _ _ => (1, cid, st, g)
  | .ack cid st g => (2, cid, st, g)
  | .again cid st g => (3, cid, st, g)

/-- The first of some messages that a test picks, taken out. -/
def takeMsg (f : CollSend → Bool) : List CollSend → Option (List CollSend)
  | [] => none
  | m :: rest => if f m then some rest else (takeMsg f rest).map fun l => m :: l

/-- A message of another module taken, which has arrived and been accepted (R515, R533), with the port that it came by: of a chunk, both
its messages. -/
def State.takeRemote (s : State) (d : CollRec) (src : Nat) (k : Nat × Nat × Nat × Nat) : Option (Nat × State) :=
  let seq := if k.1 = 0 then shapeSeq else chunkSeq d.nch k.2.2.1 k.2.2.2
  let one (cls len : Nat) (word : Option Nat) (s : State) : Option (Nat × State) :=
    (s.takeUmril fun m => Umril.fits m src cls d.cid seq && decide (m.hdr.len = len) && word.all fun w => m.word = w).map fun x => (x.1.port, x.2)
  match k.1 with
  | 0 => one 4 32 none s
  | 1 => (one 4 4096 none s).bind fun x => (one 4 16 none x.2).map fun y => (x.1, y.2)
  | 2 => one 5 4 (some 1) s
  | _ => one 5 4 (some 0) s

/-- A message from a participant taken (R526), with its port (R534): 31 on a die-to-die link, where this module has sent it. -/
def State.takeColl (s : State) (c : Command) (d : CollRec) (src : Nat × Nat) (k : Nat × Nat × Nat × Nat) : Option (Nat × State) :=
  if src.1 ≠ s.moduleNo then s.takeRemote d src.1 k
  else (takeMsg (fun m => decide (m.src = src ∧ m.dst = s.here c ∧ m.msg.about = k)) s.eng.msgs).map fun l =>
    (31, { s with eng := { s.eng with msgs := l } })

/-- Status of a collective that completes (R537). -/
def CollRun.status (r : CollRun) : Nat := if r.tainted then 2 else 0

/-- A participant that has received what it expects and whose sends are acknowledged completes (R537). -/
def State.settleColl (s : State) (id : Nat) : State :=
  match s.coll id with
  | none => s
  | some (_, d, r) =>
    if decide (d.expects r.rank ≤ r.got.length ∧ d.sendsAll r.rank ≤ r.sent.length) && r.kept.isEmpty then s.endCmd id r.status else s

/-- The flat address of a chunk. -/
def CollRec.chunkAt (d : CollRec) (g : Nat) : Nat := d.buf + 4096 * g

/-- A chunk of a participant's buffer read; none where a fault or poison is met (R539). -/
def readChunk (s : State) (c : Command) (d : CollRec) (g : Nat) : Option (List Byte) × State :=
  match flatRange s c .read (d.chunkAt g) 4096 with
  | (some ps, s1) => engRead false c ps s1
  | (none, s1) => (none, s1)

/-! ### Sending -/

/-- Whether a chunk is final at its sender (R529). -/
def CollRec.final (d : CollRec) (r : CollRun) (st g : Nat) : Bool :=
  let first := if d.op = .broadcast then (r.rank + d.parts - d.root) % d.parts = 0 else st = 0
  if first then true else r.got.contains (st - 1, g)

/-- Whether a step's pace lets it send (R536). -/
def paced (c : Command) (d : CollRec) (now st : Nat) : Bool :=
  match c.notBefore with
  | none => true
  | some T => decide (T.toNat + st * d.dt ≤ now)

/-- The next chunk to send: of the earliest step that has one that is final and not sent, the lowest (R529). -/
def CollRec.nextSend (d : CollRec) (c : Command) (r : CollRun) (now : Nat) : Option (Nat × Nat) :=
  (List.range d.stepCount).findSome? fun st =>
    if paced c d now st then
      ((d.sends r.rank st).find? fun g => d.final r st g && !r.sent.contains (st, g)).map fun g => (st, g)
    else none

/-- One word of a chunk exclusive-ORed with a mask (R538). -/
def corrupt (j : Injection) (bs : List Byte) : List Byte :=
  patch bs (4 * j.word) (leBytes 4 ((BitVec.ofNat 32 (leNat ((bs.drop (4 * j.word)).take 4)) ^^^ j.mask).toNat))

/-- What travels of a chunk at its first send (R538). -/
def CollRec.onWire (d : CollRec) (st g : Nat) (bs : List Byte) : List Byte :=
  match d.inject with
  | some j => if j.chunk = g ∧ j.step = st then corrupt j bs else bs
  | none => bs

/-- A participant's shape sent before its first chunk (R533). -/
def State.sendShape (s : State) (c : Command) (d : CollRec) (r : CollRun) : State :=
  if r.shapeSent then s else s.sendColl c d (d.partOf (d.after r.rank)) (.shape d.cid d.shape)

/-- CHUNK_SEND (R529, R531, R533, R536, R538). -/
def execChunkSend (id : Nat) (s : State) : Outcome State Fault Refusal :=
  match s.coll id with
  | none => .next s
  | some (c, d, r) =>
    if c.cancelled || !s.engReady c false || decide (2048 ≤ s.retained c.core.die) then .next s
    else
      match d.nextSend c r s.ptc.toNat with
      | none => .next s
      | some (st, g) =>
        match readChunk s c d g with
        | (none, s1) => .next (s1.endCmd id 3)
        | (some bs, s1) =>
          let sum := (tget r.sums g).getD (chunkSum bs)
          let r1 := { r with sent := r.sent ++ [(st, g)], sums := tput r.sums g sum, kept := tput r.kept (st, g) (bs, sum), shapeSent := true }
          .next (((s1.sendShape c d r).sendColl c d (d.partOf (d.after r.rank)) (.chunk d.cid st g (d.onWire st g bs) sum)).setColl id r1)

/-! ### Receiving -/

/-- One element reduced (R530): incoming and own. -/
def reduceElem (f : Fmt) (op : RedOp) (a b : Nat) : Nat :=
  if f.isInt then
    match op with
    | .add => (a + b) % 2 ^ 32
    | .min => if decodeInt f a ≤ decodeInt f b then a else b
    | .max => if decodeInt f b ≤ decodeInt f a then a else b
  else
    let x := decodeFloat f a
    let y := decodeFloat f b
    match op with
    | .add => (roundFloat f (.mode .rne) false (addX .rne x y).val).bits
    | .min => (roundFloat f (.mode .rne) false (pickNumber false x y)).bits
    | .max => (roundFloat f (.mode .rne) false (pickNumber true x y)).bits

/-- A chunk reduced into the own one (R530). -/
def reduceChunk (f : Fmt) (op : RedOp) (a b : List Byte) : List Byte :=
  let elems (l : List Byte) : List Nat :=
    (leWords l).flatMap fun w => (List.range (32 / f.bits)).map fun i => elemOf f w.toNat i
  packElems f (((elems a).zip (elems b)).map fun x => reduceElem f op x.1 x.2)

/-- An error record written to a launch's queue on its die (R534, R535). -/
def ErrQueue.write (q : ErrQueue) (words : Nat → Nat → Vector Word 8) : ErrQueue :=
  if 64 ≤ q.records.length then { q with dropped := min 255 (q.dropped + 1) }
  else { records := q.records ++ [words (q.next % 64) q.dropped], next := q.next + 1, dropped := 0 }

/-- A mismatch recorded (R532, R534), with the port by which the chunk came: the sender's has the same number, since both attach to the
switch of one plane (R513). -/
def State.collError (s : State) (c : Command) (d : CollRec) (src : Nat × Nat) (port st g : Nat) (unrec : Bool) (es fs : Nat) : State :=
  let key := (c.core.die, s.gateLid c.coh.team.lid)
  let q := (tget s.eng.errs key).getD { records := [], next := 0, dropped := 0 }
  let rx := s.here c
  let w (n : Nat) : Word := BitVec.ofNat 32 n
  let record (sq drop : Nat) : Vector Word 8 :=
    #v[w (2 ^ 31 + (if unrec then 2 ^ 30 else 0) + sq * 2 ^ 24 + drop * 2 ^ 16 + st), w d.cid, w g,
      w (src.1 * 2 ^ 24 + src.2 * 2 ^ 22 + port * 2 ^ 17 + rx.1 * 2 ^ 8 + rx.2 * 2 ^ 6 + port * 2),
      w es, w (es / 2 ^ 32), w fs, w (fs / 2 ^ 32)]
  State.bump { s with eng := { s.eng with errs := tput s.eng.errs key (q.write record) } } (.die c.core.die) 7

/-- A chunk that fails its verification (R532): a fifth failure stops the command. -/
def State.badChunk (s : State) (c : Command) (d : CollRec) (r : CollRun) (port st g sum found : Nat) : State :=
  let src := d.partOf (d.before r.rank)
  let asked := (tget r.asked (st, g)).getD 0
  let s1 := s.collError c d src port st g (decide (4 ≤ asked)) sum found
  if 4 ≤ asked then s1.endCmd c.id 3
  else (s1.sendColl c d src (.again d.cid st g)).setColl c.id { r with tainted := true, asked := tput r.asked (st, g) (asked + 1) }

/-- A verified chunk written, stored with its checksum and acknowledged (R531, R539); a cancelled command stops after it (R540). -/
def State.goodChunk (s : State) (c : Command) (d : CollRec) (r : CollRun) (st g : Nat) (data : List Byte) (sum : Nat) : State :=
  let own : Option (List Byte × Nat) × State :=
    if d.reduces st then
      match readChunk s c d g with
      | (none, s1) => (none, s1)
      | (some mine, s1) => let out := reduceChunk d.elem d.rop data mine; (some (out, chunkSum out), s1)
    else (some (data, sum), s)
  match own with
  | (none, s1) => s1.endCmd c.id 3
  | (some (out, sum'), s1) =>
    match flatRange s1 c .write (d.chunkAt g) 4096 with
    | (none, s2) => s2.endCmd c.id 3
    | (some ps, s2) =>
      let s3 := engWrite c true ps out s2
      let r1 := { r with got := r.got ++ [(st, g)], sums := tput r.sums g sum', last := s.ptc.toNat }
      let s4 := ((s3.sendColl c d (d.partOf (d.before r.rank)) (.ack d.cid st g)).setColl c.id r1).modCmd c.id fun x =>
        { x with count := satCount (c.count + 1), step := c.step + 1 }
      s4.settleColl c.id

/-- CHUNK_RECEIVE (R531 to R533). What arrives is the event's: a span may have damaged it. A chunk already verified is discarded
unchecked, and none is taken before the sender's shape. -/
def execChunkReceive (id step chunk : Nat) (data : List Byte) (sum : Nat) (s : State) : Outcome State Fault Refusal :=
  match s.coll id with
  | none => .next s
  | some (c, d, r) =>
    let src := d.partOf (d.before r.rank)
    if !r.shapeIn || c.cancelled || !s.engReady c false || decide (data.length ≠ 4096) || !(d.sends (d.before r.rank) step).contains chunk
    then .next s
    else
      match s.takeColl c d src (1, d.cid, step, chunk) with
      | none => .next s
      | some (port, s1) =>
        if r.got.contains (step, chunk) then .next s1
        else if chunkSum data = sum then .next (s1.goodChunk c d r step chunk data sum)
        else .next (s1.badChunk c d r port step chunk sum (chunkSum data))

/-- CHUNK_RE_REQUEST (R532): the retained copy, verified, is sent again. -/
def execChunkReRequest (id step chunk : Nat) (s : State) : Outcome State Fault Refusal :=
  match s.coll id with
  | none => .next s
  | some (c, d, r) =>
    let dst := d.partOf (d.after r.rank)
    match tget r.kept (step, chunk), s.takeColl c d dst (3, d.cid, step, chunk) with
    | some (bs, sum), some (_, s1) =>
      let r1 := { r with tainted := true, last := s.ptc.toNat }
      if chunkSum bs = sum then .next ((s1.sendColl c d dst (.chunk d.cid step chunk bs sum)).setColl id r1)
      else .next ((s1.collError c d (s.here c) 31 step chunk true sum (chunkSum bs)).endCmd id 3)
    | _, _ => .next s

/-- CHUNK_ACKNOWLEDGE (R531, R537). -/
def execChunkAcknowledge (id step chunk : Nat) (s : State) : Outcome State Fault Refusal :=
  match s.coll id with
  | none => .next s
  | some (c, d, r) =>
    match tget r.kept (step, chunk), s.takeColl c d (d.partOf (d.after r.rank)) (2, d.cid, step, chunk) with
    | some _, some (_, s1) => .next ((s1.setColl id { r with kept := terase r.kept (step, chunk), last := s.ptc.toNat }).settleColl id)
    | _, _ => .next s

/-- SHAPE_RECEIVE (R533): a shape that differs from the own one stops the command. -/
def execShapeReceive (id : Nat) (shape : List Nat) (s : State) : Outcome State Fault Refusal :=
  match s.coll id with
  | none => .next s
  | some (c, d, r) =>
    match s.takeColl c d (d.partOf (d.before r.rank)) (0, d.cid, 0, 0) with
    | none => .next s
    | some (_, s1) => if shape = d.shape then .next (s1.setColl id { r with shapeIn := true }) else .next (s1.endCmd id 3)

/-- Whether a participant expects a chunk or an acknowledgement, or cannot send for want of retention (R540). -/
def State.collExpects (s : State) (c : Command) (d : CollRec) (r : CollRun) : Bool :=
  let full := decide (r.sent.length < d.sendsAll r.rank ∧ 2048 ≤ s.retained c.core.die)
  decide (r.got.length < d.expects r.rank) || !r.kept.isEmpty || full

/-- A participant that expects nothing: its 20 ms begin when it does (R540). -/
def State.clockColl (s : State) (id : Nat) (r : CollRun) : CollRun :=
  match s.coll id with
  | some (c, d, _) => if s.collExpects c d r then r else { r with last := s.ptc.toNat }
  | none => r

/-- A participant stops after 20 ms without a verified chunk, an acknowledgement or a re-request while it expects one (R540). -/
def State.noProgress (s : State) (id : Nat) : State :=
  match s.coll id with
  | none => s
  | some (c, d, r) => if s.collExpects c d r && decide (r.last + 20000000 ≤ s.ptc.toNat) then s.endCmd id 3 else s

/-- COLLECTIVE_NO_PROGRESS (R540). -/
def execCollectiveNoProgress (id : Nat) (s : State) : Outcome State Fault Refusal := .next (s.noProgress id)

end Sys2Proof.Machine
end

