-- ==== Sys2Proof/Machine/EventsCp.lean ====
section
/-!
DEFINITION. Steps of the command processor and of the repair engines: acceptance, eligibility and placement (R224, R235 to R251),
context saves (R450 to R454), ends of launches (R240, R241), snapshots (R499), scan tests (R501), the lehr (R492 to R494) and
rebuilds (R497). A step whose condition does not hold changes nothing.
-/

namespace Sys2Proof.Machine

open Host (Outcome)

/-! ### Launches -/

/-- A record with its argument word 0 replaced (R224). -/
def withArg0 (bs : List Byte) (w : Word) : List Byte := patch bs 0x80 (leBytes 4 w.toNat)

/-- The word that SPAWN returns (R224). -/
def spawnResult (r : Except Rejected Nat) : Word :=
  match r with
  | .ok lid => BitVec.ofNat 32 lid
  | .error .full => 0xFFFFFFFF#32
  | .error .illFormed => 0xFFFFFFFE#32

/-- LAUNCH_ACCEPTANCE (R224, R235 to R237, R242): the oldest record that SPAWN has named, once the writes before it have performed. -/
def execLaunchAcceptance (s : State) : Outcome State Fault Refusal :=
  match s.cp.spawns with
  | [] => .next s
  | x :: rest =>
    if x.after.any s.unperformed then .next s
    else
      let s0 := { s with cp := { s.cp with spawns := rest } }
      let (bs, s1) := if 2 ^ 57 < x.va + 512 then (none, s0) else cpRead s0 x.root x.va 512
      let (r, s2) : Except Rejected Nat × State :=
        match bs with
        | none => (.error .illFormed, s1)
        | some bs => s1.accept (withArg0 bs x.arg)
      .next (s2.arrive x.tid x.pend [spawnResult r] none)

/-- A metadata failure reported to the host, of a wait signal only once (R242). -/
def State.tellSignal (s : State) (lid addr : Nat) : State :=
  match s.launchOf lid with
  | none => s
  | some l =>
    if l.told.contains addr then s
    else
      State.modLaunch { s with cp := { s.cp with reports := s.cp.reports ++ [HostReport.metadata lid addr] } } lid fun l =>
        { l with told := l.told ++ [addr] }

/-- Wait signals tested in order (R238, R242): whether every word is at its threshold. -/
def testWaits (lid : Nat) (root : Option Nat) : List (Nat × Nat) → State → Bool × State
  | [], s => (true, s)
  | w :: rest, s =>
    match cpTranslate s root w.1 .read with
    | (none, s1) =>
      let (_, s2) := testWaits lid root rest (s1.tellSignal lid w.1)
      (false, s2)
    | (some pa, s1) =>
      let ((bs, _), s2) := homeRead s1 pa 8
      let (ok, s3) := testWaits lid root rest s2
      (ok && decide (w.2 ≤ leNat (bs.take 4)), s3)

/-- The launch at a queue's head tested (R238, R239). -/
def State.testHead (s : State) (queue : Nat) : State :=
  match s.queueHead queue with
  | none => s
  | some l =>
    match l.state, l.stages.head? with
    | .queued, some g =>
      let (ok, s1) := testWaits g.lid l.root l.desc.waits s
      if ok then s1.modLaunch g.lid fun l => { l with state := .eligible, since := s.ptc.toNat } else s1
    | _, _ => s

/-- ELIGIBILITY_TEST (R238). -/
def execEligibilityTest (queue : Nat) (s : State) : Outcome State Fault Refusal := .next (s.testHead queue)

/-- PLACEMENT_PASS (R246 to R250). -/
def execPlacementPass (s : State) : Outcome State Fault Refusal := .next s.placementPass

/-- Whether a launch is over but for its signal (R240, R369): normally, with its clusters ended and its commands reported, or
abnormally, with its started commands stopped; and its accesses have performed, and their notifications been acknowledged (R302). -/
def State.launchOver (s : State) (l : Launch) : Option Bool :=
  let lids := l.stages.map fun g => g.lid
  let busy := (s.eng.cmds.any fun c => lids.contains c.coh.team.lid) || (s.mem.accesses.any fun a => lids.contains a.tid.coh.team.lid) ||
    (s.mem.maints.any fun m => lids.contains m.tid.coh.team.lid) ||
    (s.mem.notices.any fun n => n.tid.all fun t => lids.contains t.coh.team.lid) || s.teams.any fun p => lids.contains p.1.lid
  if busy then none
  else
    match l.state with
    | .ending ok => some ok
    | .eligible => if l.stages.all fun g => decide (l.desc.ncl ≤ g.ended) then some true else none
    | .queued => none

/-- The add on the completion signal (R241, R242). -/
def State.signal (s : State) (lid : Nat) (l : Launch) (ok : Bool) : State :=
  if l.desc.sigp = 0 then s
  else
    match cpTranslate s l.root l.desc.sigp .write with
    | (none, s1) => { s1 with cp := { s1.cp with reports := s1.cp.reports ++ [HostReport.metadata lid l.desc.sigp] } }
    | (some pa, s1) =>
      let ((bs, _), s2) := homeRead s1 pa 8
      let (id, s3) := s2.fresh
      homeStore s3 id none pa (leBytes 8 (leNat bs + (if ok then 1 else 2 ^ 32))) true false

/-- A launch's objects gone with it: its gates, error queues and snapshot (R243, R535, R499). -/
def State.forgetLaunch (s : State) (lid : Nat) (l : Launch) : State :=
  let lids := l.stages.map fun g => g.lid
  State.clearCredit { s with
           launches := s.launches.filter fun x => !(x.stages.any fun g => lids.contains g.lid),
           mem := { s.mem with gates := s.mem.gates.filter fun g => g.lid ≠ lid, releases := s.mem.releases.filter fun r => r.lid ≠ lid },
           eng := { s.eng with errs := s.eng.errs.filter fun p => p.1.2 ≠ lid },
           rel := { s.rel with snapFree := s.rel.snapFree + l.snapshot.length } }

/-- LAUNCH_END (R240, R241, R238): the signal is added, and the queue heads tested after it. -/
def execLaunchEnd (lid : Nat) (s : State) : Outcome State Fault Refusal :=
  match s.launchOf lid with
  | none => .next s
  | some l =>
    match s.launchOver l, l.stages.head? with
    | some ok, some g => .next ((List.range 64).foldl State.testHead ((s.signal g.lid l ok).forgetLaunch g.lid l))
    | _, _ => .next s

/-! ### Context saves -/

/-- CONTEXT_SAVE_START (R450, R445): 100 us after the choice, or at once on a core out of service; not of a team that has exited (R252). -/
def execContextSaveStart (t : TeamId) (s : State) : Outcome State Fault Refusal :=
  match s.team t with
  | none => .next s
  | some m =>
    match m.preempt with
    | .chosen tick =>
      if s.teamExited t ∨ (s.ptc.toNat < tick + 100000 ∧ ¬ m.core ∈ s.rel.fenced) then .next s else .next (s.beginSave t)
    | .no | .saving | .discarded => .next s

/-- Whether a peer access waits at a word of its owner, or for an owner that has left its core. -/
def State.peerHeld (s : State) (id : Nat) : Bool :=
  s.mem.windows.any fun w =>
    decide (w.id = id) && w.answer.isNone && (w.place.isSome || (!w.arrived && (s.team w.owner).isNone && s.isAway w.owner))

/-- Whether a thread's wait ends its run for a save (R451). -/
def State.stalls (s : State) (w : WaitWhy) : Bool :=
  match w with
  | .word _ | .queue _ _ | .count _ _ | .slot _ => true
  | .window id => s.peerHeld id
  | .frame _ | .time _ | .refetch _ | .missTable | .rfq _ | .debug => false

/-- The threads of a team in a run that a wait on another agent holds (R451): none where one of them still awaits something else. -/
def State.stalled (s : State) (t : TeamId) (r : Run) : List Tid :=
  let mine := r.tids.filter fun x => decide (x.coh.team = t)
  let waits := mine.filterMap fun x => (s.thread x).wait
  if waits.isEmpty ∨ (waits.any fun w => !s.stalls w) ∨ (s.mem.passes.any fun p => mine.contains p.tid) then [] else mine

/-- Whether a thread's access waits in a word's list or at its owner. -/
def State.waiterOf (s : State) (ts : List Tid) (w : WordWaiter) : Bool :=
  match w with
  | .take t _ _ _ | .fill t _ => ts.contains t
  | .peer id => s.mem.windows.any fun x => decide (x.id = id) && ts.contains x.tid

/-- The runs of a team that are held so, ended at their slots: each thread of the group is saved Waiting there, without latches (R451). -/
def State.endStalls (s : State) (t : TeamId) : State :=
  let ts := s.parts.flatMap fun p => p.2.runs.flatMap fun r => s.stalled t r
  let thin (m : Team) : Team := { m with waiters := m.waiters.filter fun w => !s.waiterOf ts w.2 }
  let stop (p : Tid × Thread) : Tid × Thread :=
    if ts.contains p.1 then
      (p.1, { p.2 with status := .waiting, wait := none, latches := noLatches, kept := none, entry := .free })
    else p
  let s1 := { s with teams := s.teams.map fun (p : TeamId × Team) => (p.1, thin p.2), threads := s.threads.map stop,
                     mem := { s.mem with windows := s.mem.windows.filter fun w => !ts.contains w.tid } }
  s1.unseat fun x => ts.contains x

/-- Whether a team's save waits for nothing more (R450): its runs have ended, those a return or a replay continues among them (R452,
R62), its registers' writes have completed and its core-class commands stopped; and the host's pool has an area (R453). -/
def State.saveReady (s : State) (t : TeamId) : Bool :=
  let mine (x : Tid) : Bool := decide (x.coh.team = t)
  !(s.parts.any fun p => p.2.runs.any fun r => r.tids.any mine) && !(s.mem.passes.any fun p => mine p.tid) &&
  !(s.threads.any fun p => mine p.1 && p.2.kept.isSome && decide (p.2.status = .seated ∨ p.2.status = .arriving)) &&
  (s.threads.all fun p => !mine p.1 || p.2.pends.isEmpty) &&
  (s.cohorts.all fun p => decide (p.1.team ≠ t) || p.2.pends.isEmpty) &&
  !(s.eng.cmds.any fun c => decide (c.coh.team = t ∧ c.st = .running) && coreClass c.cls) && decide (1 ≤ s.rel.saveFree)

/-- A park record as a saved team keeps it (R452, R479): the reason it was declined for. -/
def ParkState.save : ParkState → ParkState
  | .declined n => .saved (some n) false
  | .answered => .saved none true
  | .waiting | .installed => .saved none false
  | .saved was b => .saved was b

/-- The park records of a saved team's groups take STATE 5 (R452); a group that holds threads of another team is parted, each
keeping its own. -/
def State.saveParks (s : State) (t : TeamId) : State :=
  let mine (x : Tid) : Bool := decide (x.coh.team = t)
  let hit := s.vnp.rfq.filter fun r => r.tids.any mine
  let groups := (hit.map fun r => r.group).eraseDups
  let save (x : ParkRec × Nat) : ParkRec :=
    { x.1 with tids := x.1.tids.filter mine, touch := x.1.touch.filter mine, st := x.1.st.save,
               order := s.nextId + x.2, group := s.nextId + hit.length + (groups.idxOf x.1.group) }
  let rest := (s.vnp.rfq.map fun r => { r with tids := r.tids.filter fun x => !mine x, touch := r.touch.filter fun x => !mine x }).filter
    fun r => !r.tids.isEmpty
  { s with vnp := { s.vnp with rfq := rest ++ hit.zipIdx.map save }, nextId := s.nextId + hit.length + groups.length }

/-- PARK of a saved thread (R454): the index of its group's first park record and its RFQ's die. -/
def State.parkField (s : State) (t : Tid) (th : Thread) : List Byte :=
  match th.status, s.vnp.rfq.find? fun r => r.tids.contains t with
  | .parked, some r => leBytes 2 r.idx ++ leBytes 1 r.die ++ List.replicate 13 0#8
  | _, _ => List.replicate 16 0#8

/-- STATUS [2:0] of a saved thread (R454); exited threads have no record. One that is seated is Ready or Waiting by what its instruction
awaits (R183). -/
def State.statusOf (s : State) (t : Tid) (th : Thread) : Nat :=
  match th.status with
  | .seated | .arriving => if th.stopped then 3 else if s.readyFor (s.ahead t th.pc) t then 0 else 1
  | .exited => 0
  | .waiting => 1
  | .blocked _ => 2
  | .inRun => 3
  | .parked => 4

/-- The sections of an image, each with its offset and its size (R453). -/
def sectionsFrom (at' : Nat) : List (ImageSection × Nat) → List (ImageSection × Nat × Nat)
  | [] => []
  | x :: rest => (x.1, at', x.2) :: sectionsFrom (at' + x.2) rest

/-- The sizes of the sections of a team's image, in order (R453). -/
def imageSizes (d : LaunchRec) (records cohorts commands : Nat) : List (ImageSection × Nat) :=
  [(.threads, records), (.cohorts, 512 * cohorts), (.engine, 64 * commands + 65536), (.tiles, 16384 * d.acc), (.handles, 336 * d.hndl),
   (.scratch, d.scr + d.scr / 32), (.header, 256)]

/-- Order of a team's threads in its image (R453). -/
def imageOrder (a b : Tid) : Bool := decide (a.coh.k1 < b.coh.k1 ∨ (a.coh.k1 = b.coh.k1 ∧ a.lane ≤ b.lane))

/-- A thread placed among saved ones. -/
def insertSaved (x : SavedThread) : List SavedThread → List SavedThread
  | [] => [x]
  | y :: rest => if imageOrder x.tid y.tid then x :: y :: rest else y :: insertSaved x rest

/-- A team's image (R453): its threads' records and its other sections. -/
def State.imageOf (s : State) (t : TeamId) (m : Team) : SavedTeam :=
  let own (k : BarKey) : Bool :=
    match k.owner with
    | .cohort c => decide (c.team = t)
    | .team u => decide (u = t)
    | .cluster _ _ => false
  let save (p : Tid × Thread) : SavedThread := { tid := p.1, record := threadRecord (s.parkField p.1 p.2) (s.statusOf p.1 p.2) p.2, rest := p.2 }
  let ths := ((s.threads.filter fun p => decide (p.1.coh.team = t ∧ p.2.status ≠ .exited)).map save).foldr insertSaved []
  let cos := (s.cohorts.filter fun p => decide (p.1.team = t)).map fun p => (p.1.k1, p.2)
  let cmds := s.eng.cmds.filter fun c => decide (c.coh.team = t) && coreClass c.cls
  let layout := ((s.launchOf t.lid).map fun l =>
    sectionsFrom 0 (imageSizes l.desc (ths.map fun x => x.record.length).sum cos.length cmds.length)).getD []
  .image t.k3 { m with preempt := .no } ths cos (s.barriers.filter fun p => own p.1) layout
    (s.threads.filter fun p => decide (p.1.coh.team = t ∧ p.2.status = .exited))

/-- CONTEXT_SAVE_COMPLETE (R450 to R454). A team that has exited meanwhile is not saved, and its commands go on (R252). -/
def execContextSaveComplete (t : TeamId) (s : State) : Outcome State Fault Refusal :=
  match (s.team t).map fun m => decide (m.preempt = .saving) with
  | some true =>
    let s1 := s.endStalls t
    match s1.team t with
    | none => .next s
    | some m =>
      if s1.teamExited t then .next (s1.modTeam t fun m => { m with preempt := .no })
      else if s1.saveReady t then
        let s2 := (s1.saveParks t).dropTeam t true
        .next (State.addGone { s2 with rel := { s2.rel with saveFree := s2.rel.saveFree - 1 } } t m.k4 m.k2.val (s1.imageOf t m))
      else .next s1
  | _ => .next s

/-! ### Snapshots -/

/-- A page read through its homes, or at its base die for MEMSIDE accesses: its bytes that are not 0, and whether a sector of it is
poisoned. -/
def readPage (side : Bool) (page : Nat) (s : State) : (List Host.Cell × Bool) × State :=
  (List.range 2048).foldl (fun (acc : (List Host.Cell × Bool) × State) i =>
    let a := page * 65536 + 32 * i
    let ((bs, poison), st) := if side then baseRead acc.2 a 32 else homeRead acc.2 a 32
    let cells := (bs.zipIdx.map fun x => (a + x.2, x.1)).filter fun p => p.2 ≠ 0#8
    ((acc.1.1 ++ cells, acc.1.2 || poison), st)) (([], false), s)

/-- What the next step of a core engine's command writes to memory, in order: offsets and lengths in a tensor. -/
def Command.nextWrites (c : Command) : List (TensorRec × Nat × Nat) :=
  let out (t : TensorRec) (l : List (Nat × Nat)) : List (TensorRec × Nat × Nat) := if t.inScratch then [] else l.map fun x => (t, x)
  match c.op with
  | .cpy dst _ _ => out dst [((cpyPiece dst c.step).1, (cpyPiece dst c.step).2.1)]
  | .cpy2d dst _ _ => out dst [(dst.rowAt c.step, dst.rowBytes)]
  | .accst _ t _ => out t ((List.range 64).map fun r => (t.rowAt r, t.rowBytes))
  | .accred _ t _ _ => out t [(0, t.rowBytes)]
  | .tcvp _ _ _ _ | .tmma _ _ _ _ _ _ _ _ _ | .accz _ | .accld _ _ | .accadd _ _ | .tselk _ _ _ | .bankrun _ _ _ _ | .bankst _ _ _ _
  | .walk _ _ _ _ | .coll _ | .cksum _ _ => []

/-- The places of some of a command's writes, up to the first that meets a fault. -/
def writePieces (c : Command) : List (TensorRec × Nat × Nat) → State → List EngPiece
  | [], _ => []
  | x :: rest, s =>
    match flatRange s c .write (x.1.base + x.2.1) x.2.2 with
    | (some ps, s1) => ps ++ writePieces c rest s1
    | (none, _) => []

/-- Whether a write of a launch waits for its page's copy (R499), by a thread's access or discard or by the next step of a core engine's
command; and whether at the base die. -/
def State.pageWanted (s : State) (lid page : Nat) : Option Bool :=
  let same (x : Nat) : Bool := decide (s.gateLid x = s.gateLid lid)
  let byThread := (s.mem.accesses.filter fun a => s.writesNow a && same a.tid.coh.team.lid && decide (a.pa / 65536 = page)).map fun a => a.memside
  let byEngine := (s.eng.cmds.filter fun c => decide (c.st = .running) && coreClass c.cls && same c.coh.team.lid).flatMap fun c =>
    ((writePieces c c.nextWrites s).filter fun p => decide (p.pa / 65536 = page)).map fun p => p.memside
  let byDiscard := (s.mem.maints.filter fun m => same m.tid.coh.team.lid &&
    m.sectors.any fun x => decide (x.2 / 2048 = page) && m.discards s x.2).map fun _ => false
  match byThread ++ byDiscard ++ byEngine with
  | [] => none
  | l => some (l.any id)

/-- SNAPSHOT_COPY (R498, R499): without room in the pool the launch is replayable no more. -/
def execSnapshotCopy (lid page : Nat) (s : State) : Outcome State Fault Refusal :=
  match s.launchOf lid with
  | none => .next s
  | some l =>
    match s.pageWanted lid page with
    | none => .next s
    | some side =>
    if !l.replayable || (l.snapshot.any fun x => x.page = page) || decide (dramLimit < 65536 * (page + 1)) then .next s
    else if s.rel.snapFree = 0 then
      let s1 := s.modLaunch lid fun l => { l with replayable := false, snapshot := [] }
      .next { s1 with rel := { s1.rel with snapFree := s1.rel.snapFree + l.snapshot.length } }
    else
      let ((cells, poison), s1) := readPage side page s
      let s2 := s1.modLaunch lid fun l => { l with snapshot := l.snapshot ++ [{ page := page, cells := cells, poison := poison }] }
      .next { s2 with rel := { s2.rel with snapFree := s2.rel.snapFree - 1 } }

/-! ### Scan tests -/

/-- The hardware clusters in ascending order from one on, wrapping (R501). -/
def clustersFrom (c : Nat × Nat) : List (Nat × Nat) :=
  let all := (List.range 4).flatMap fun d => (List.range 6).map fun h => (d, h)
  all.drop (6 * c.1 + c.2) ++ all.take (6 * c.1 + c.2)

/-- Whether a hardware cluster holds a floor placement (R501). -/
def State.holdsFloor (s : State) (c : Nat × Nat) : Bool :=
  s.launches.any fun l => l.stages.any fun g =>
    (g.floors.any fun f => decide ((f.die, f.hw) = c)) || g.placed.any fun p => p.floor && decide ((p.die, p.hw) = c)

/-- Whether the in-field test passes a cluster over: a floor (R501), or a scope in P3 or below (R554). -/
def State.passedOver (s : State) (c : Nat × Nat) : Bool :=
  s.holdsFloor c || decide (3 ≤ (s.powerOf (.die c.1)).state) || decide (3 ≤ (s.powerOf (.cluster c.1 c.2)).state)

/-- The clusters placed on some cores pre-empted (R449, R450). -/
def State.drain (s : State) (on : Nat → Nat → Bool) : State :=
  let hit := s.launches.flatMap fun l => l.stages.flatMap fun g =>
    (g.placed.filter fun p => on p.die p.hw).map fun p => (g.lid, p.k4)
  hit.foldl (fun st x => st.preemptCluster x.1 x.2) s

/-- SCAN_TEST (R501). -/
def execScanTest (s : State) : Outcome State Fault Refusal :=
  let r := s.rel
  if r.testMinutes = 0 ∨ r.draining.isSome = true ∨ s.ptc.toNat < r.lastTest + r.testMinutes * 60000000000 then .next s
  else
    match (clustersFrom r.nextCluster).find? fun c => !s.passedOver c with
    | none => .next { s with rel := { r with lastTest := s.ptc.toNat } }
    | some c =>
      let next := (clustersFrom c).getD 1 (0, 0)
      let s1 := { s with rel := { r with lastTest := s.ptc.toNat, draining := some c, nextCluster := next } }
      .next (s1.drain fun d h => decide ((d, h) = c))

/-- SCAN_TEST_COMPLETE (R501, R445): once its teams have left and the test has run, the cluster returns to service but for the cores
that failed. -/
def execScanTestComplete (failing : List CoreId) (s : State) : Outcome State Fault Refusal :=
  match s.rel.draining with
  | none => .next s
  | some c =>
    let inside (x : CoreId) : Bool := decide (x.die = c.1 ∧ x.core / 8 = c.2)
    if s.teams.any fun p => inside p.2.core then .next s
    else
      let s1 := { s with rel := { s.rel with draining := none } }
      .next ((failing.filter inside).foldl (fun st x => (st.report 11 0 (locCore x)).fence x 0) s1)

/-! ### The lehr -/

/-- PATROL_PASS_START (R492, R493): the write version moves on, with fresh keys. -/
def execPatrolPassStart (s : State) : Outcome State Fault Refusal :=
  let r := s.rel
  let vw := (r.vw + 1) % 4
  if r.passing then .next s
  else
    .next { s with rel := { r with vw := vw, keys := r.keys.set (vw % 4) (some r.keyGen) (Nat.mod_lt _ (by decide)), keyGen := r.keyGen + 1,
                                   passing := true, passStart := s.ptc.toNat, visited := [], bad := [] } }

/-- Sectors of a pseudo-channel (R293). -/
def channelSectors : Nat := 18750000

/-- Sectors of the module's arrays (R292, R293). -/
def arraySectors : Nat := 24 * 160 * channelSectors

/-- What a sector of the arrays is (R292, R293, R496): a data sector by its number, a parity sector by its stripe, or one that holds
neither. -/
inductive ArraySector where
  | data (sec : Nat)
  | parity (x : Stripe)
  | free
  deriving DecidableEq, Repr

/-- The sector at a row and column of a channel, numbered 32 row + column, in the layout of R292 (R293). -/
def plainSector (stack channel v : Nat) : ArraySector :=
  let g := channel / 5
  let pc := 5 * g + v / 32 % 5
  if channel = pc then .parity { stack := stack, group := g, row := v, moved := false }
  else .data (sectorAt stack g v (((List.range 4).filter fun k => dataChannel g pc k = channel).headD 0))

/-- The same on a channel that a retired group keeps (R496). -/
def Retired.sectorOf (r : Retired) (channel v : Nat) : ArraySector :=
  let h := ((List.range 5).map fun i => 5 * r.group + i).filter fun c => c ≠ r.channel
  let hp := h.getD (v / 32 % 4) 0
  if channel = hp then .parity { stack := r.stack, group := r.group, row := v, moved := true }
  else
    let t := 3 * v + (h.filter fun c => c ≠ hp).idxOf channel
    .data (sectorAt r.stack r.group (t / 4) (t % 4))

/-- The same in a reserve row of a donor (R496). -/
def Retired.reserveOf (r : Retired) (channel v : Nat) : ArraySector :=
  let d := channel / 5
  let pc := 5 * d + v / 32 % 5
  if channel = pc then .parity { stack := r.stack, group := d, row := v, moved := true }
  else
    let k := ((List.range 4).filter fun k => dataChannel d pc k = channel).headD 0
    let t := ownSectors + 4 * (r.donors.idxOf d * donorRows + (v - 18164062)) + k
    if t < groupSectors then .data (sectorAt r.stack r.group (t / 4) (t % 4)) else .free

/-- What a sector of the arrays is (R292, R293, R496), with whether the lehr skips it: its group, or the one it is a reserve of, is being
rebuilt (R497). -/
def State.arraySector (s : State) (n : Nat) : ArraySector × Bool :=
  let v := n % channelSectors
  let channel := n / channelSectors % 160
  let stack := n / channelSectors / 160
  let g := channel / 5
  match s.rel.retired.find? fun r => decide (r.stack = stack ∧ r.group = g) with
  | some r => (if channel = r.channel then .free else r.sectorOf channel v, !r.done)
  | none =>
    if v < 18164062 then (plainSector stack channel v, false)
    else
      match s.rel.retired.find? fun r => decide (r.stack = stack) && r.donors.contains g with
      | some r => (r.reserveOf channel v, !r.done)
      | none => (.free, false)

/-- A number put into a list of ranges of numbers, first and length, that rises and has gaps between its ranges. -/
def addRange (n : Nat) : List (Nat × Nat) → List (Nat × Nat)
  | [] => [(n, 1)]
  | (a, k) :: rest =>
    if n + 1 < a then (n, 1) :: (a, k) :: rest
    else if n + 1 = a then (n, k + 1) :: rest
    else if n < a + k then (a, k) :: rest
    else if n = a + k then
      match rest with
      | (b, m) :: more => if b = n + 1 then (a, k + 1 + m) :: more else (a, k + 1) :: rest
      | [] => [(a, k + 1)]
    else (a, k) :: addRange n rest

/-- A data sector read by the lehr, and re-encrypted where its key version is still the old one (R492 to R494). -/
def scrubData (sec : Nat) (s : State) : State :=
  let ((bs, poison), s1) := sectorRead s sec
  if s1.kvOf sec = (s1.rel.vw + 3) % 4 then s1.sectorPut sec bs poison else s1

/-- A parity sector checked against its stripe's data sectors, and where it differs rewritten from them if each passes its tag
(R492). -/
def scrubParity (x : Stripe) (s : State) : State :=
  let differs := (tget s.rel.sickParity x).isSome || (tget s.rel.parity x).any fun p => decide (p ≠ s.parityOf x)
  if differs && (s.membersOf x).all fun y => decide (tget s.rel.sick y ≠ some .broken) then
    let c := s.parityChannel x
    let s1 := { s with rel := { s.rel with parity := tput s.rel.parity x (s.parityOf x), sickParity := terase s.rel.sickParity x } }
    (s1.reportSector 2 0 x.stack (locChannel x.stack c)).countBad x.stack c
  else s

/-- LEHR_SECTOR_SCRUB (R492 to R494): a sector of the arrays, by its number (160 stack + channel) * 18,750,000 + 32 row + column. -/
def execLehrSectorScrub (sector : Nat) (s : State) : Outcome State Fault Refusal :=
  let (x, skipped) := s.arraySector sector
  if !s.rel.passing || decide (arraySectors ≤ sector) || skipped then .next s
  else
    let s1 := { s with rel := { s.rel with visited := addRange sector s.rel.visited } }
    match x with
    | .data sec => .next (scrubData sec s1)
    | .parity st => .next (scrubParity st s1)
    | .free => .next s1

/-- PASS_COMPLETE (R492, R493): after its time, with every sector visited and none left under the old version, whose keys are erased. -/
def execPassComplete (s : State) : Outcome State Fault Refusal :=
  let r := s.rel
  let old := (r.vw + 3) % 4
  if !r.passing || decide (s.ptc.toNat < r.passStart + r.passHours * 3600000000000 ∨ r.visited ≠ [(0, arraySectors)]) ||
      r.side.any fun p => decide (sideKv p.2 = old) then .next s
  else
    .next (State.report { s with rel := { r with passing := false, keys := r.keys.set (old % 4) none (Nat.mod_lt _ (by decide)) } } 7 0 0)

/-! ### Rebuilds -/

/-- Stripe rows of a group (R293). -/
def stripeRows : Nat := 18164062

/-- A retired group's entry changed. -/
def State.modRetired (s : State) (stack group : Nat) (f : Retired → Retired) : State :=
  { s with rel := { s.rel with retired := s.rel.retired.map fun r => if r.stack = stack ∧ r.group = group then f r else r } }

/-- A group whose rebuild has not ended. -/
def State.rebuildOf (s : State) (stack group : Nat) : Option Retired :=
  s.rel.retired.find? fun r => decide (r.stack = stack ∧ r.group = group) && !r.done

/-- REBUILD_LINE_MOVE (R497): the line's sectors are read in the old layout and written in the new one. -/
def execRebuildLineMove (stack group : Nat) (s : State) : Outcome State Fault Refusal :=
  match s.rebuildOf stack group with
  | none => .next s
  | some r =>
    if stripeRows ≤ r.boundary then .next s
    else
      let secs := (List.range 4).map (sectorAt stack group r.boundary)
      let read (acc : List (Nat × List Byte × Bool) × State) (sec : Nat) : List (Nat × List Byte × Bool) × State :=
        if (tget acc.2.rel.side sec).isNone && (tget acc.2.rel.sick sec).isNone && acc.2.dramSector sec = zeroSector then acc
        else
          let (x, st) := sectorRead acc.2 sec
          (acc.1 ++ [(sec, x)], st)
      let (got, s1) := secs.foldl read ([], s)
      let gone : Stripe := { stack := stack, group := group, row := r.boundary, moved := false }
      let s2 := s1.modRetired stack group fun r => { r with boundary := r.boundary + 1 }
      let s3 := { s2 with rel := { s2.rel with parity := terase s2.rel.parity gone, sickParity := terase s2.rel.sickParity gone } }
      .next (got.foldl (fun st x => st.sectorPut x.1 x.2.1 x.2.2) s3)

/-- REBUILD_COMPLETE (R497, R502). -/
def execRebuildComplete (stack group : Nat) (s : State) : Outcome State Fault Refusal :=
  match s.rebuildOf stack group with
  | none => .next s
  | some r =>
    if r.boundary < stripeRows then .next s
    else .next ((s.modRetired stack group fun r => { r with done := true }).report 9 0 (locChannel stack r.channel))

end Sys2Proof.Machine
end

