-- ==== Sys2Proof/Machine/EventsHost.lean ====
section
/-!
DEFINITION. Links, ports, planes and the clock (R507 to R522), host commands (R552), power states (R554), thermal limits (R555,
R556), event counters (R557) and power-up (R550, R551). A step whose condition does not hold changes nothing.
-/

namespace Sys2Proof.Machine

open Host (Outcome)

/-! ### Links, ports and planes -/

/-- Whether a link exists (R507): one for each pair of compute dies, and one from each to the IOD, 4. -/
def LinkId.ok (l : LinkId) : Bool := decide (l.die < 4 ∧ l.other ≤ 4 ∧ l.other ≠ l.die)

/-- A link by its lower end first: the ends of one between compute dies name the same link. -/
def LinkId.norm (l : LinkId) : LinkId := if l.other < l.die then { die := l.other, other := l.die } else l

/-- A link's state. -/
def State.link (s : State) (l : LinkId) : Link := (tget s.module.links (LinkId.norm l)).getD { mapped := 0, failed := false, retries := 0 }

/-- A link's state set. -/
def State.setLink (s : State) (l : LinkId) (x : Link) : State := { s with module := { s.module with links := tput s.module.links (LinkId.norm l) x } }

/-- LOC of a link (R502): its die and its other end. -/
def locLink (l : LinkId) : Nat := l.die * 2 ^ 30 + l.other * 2 ^ 27

/-- LINK_LANE_MAPPED_OUT (R510, R557). -/
def execLinkLaneMappedOut (l : LinkId) (s : State) : Outcome State Fault Refusal :=
  if LinkId.ok l then .next (((s.setLink l { s.link l with mapped := (s.link l).mapped + 1 }).report 15 0 (locLink l)).bump (.die l.die) 4) else .next s

/-- A launch with a team on a die replayed where it can be, else ended (R510). -/
def State.loseDie (s : State) (lid : Nat) : State :=
  match s.launchOf lid with
  | none => s
  | some l =>
    if l.mayReplay && !l.badSnapshot then s.replayLaunch l
    else if l.mayReplay || l.replayed then (s.report 14 0 0).abnormalEnd lid
    else s.abnormalEnd lid

/-- The cores of a die. -/
def coresOf (die : Nat) : List CoreId := (List.range 48).map fun c => { die := die, core := c }

/-- LINK_FAILURE (R510): a link between compute dies is routed around; one to the IOD takes its die's cores out of service. -/
def execLinkFailure (l : LinkId) (s : State) : Outcome State Fault Refusal :=
  if (s.link l).failed || !LinkId.ok l then .next s
  else
    let s1 := (s.setLink l { s.link l with failed := true }).report 6 0 (l.die * 2 ^ 30)
    if l.other ≠ 4 then .next s1
    else
      let lids := ((s1.teams.filter fun p => p.2.core.die = l.die).map fun p => s1.gateLid p.1.lid).eraseDups
      let s2 := { s1 with rel := { s1.rel with fenced := (s1.rel.fenced ++ coresOf l.die).eraseDups } }
      .next (lids.foldl State.loseDie s2)

/-- FLIT_RETRY (R507): no agent observes it. -/
def execFlitRetry (l : LinkId) (s : State) : Outcome State Fault Refusal :=
  if LinkId.ok l then .next (s.setLink l { s.link l with retries := (s.link l).retries + 1 }) else .next s

/-- UMRIL_MESSAGE_RECEIVE (R512, R514, R515): a packet outside R512's table is dropped, an ill-formed message discarded, each counted
on die 0; another waits for the unit that its class names. Nothing arrives at a port whose plane is not healthy (R516). -/
def execUmrilMessageReceive (m : Umril) (s : State) : Outcome State Fault Refusal :=
  if decide (20 ≤ m.port) || (decide (m.port < 16) && !s.module.planes.contains m.port) then .next s
  else if Umril.listed m = false then .next (s.bump (.die 0) 6)
  else if s.discards m then .next (s.bump (.die 0) 5)
  else .next { s with module := { s.module with inbox := s.module.inbox ++ [m] } }

/-- PLANE_HEALTH_CHANGE (R516). -/
def execPlaneHealthChange (plane : Nat) (up : Bool) (s : State) : Outcome State Fault Refusal :=
  let ps := (List.range 16).filter fun p => if p = plane then up else s.module.planes.contains p
  .next { s with module := Module.sendHeld { s.module with planes := ps } s.moduleNo }

/-- UET_RETRANSMISSION (R516): what was sent on a plane that has failed goes again on the plane that the list gives now. -/
def execUetRetransmission (plane : Nat) (s : State) : Outcome State Fault Refusal :=
  if s.module.planes.contains plane || s.module.planes.isEmpty then .next s
  else .next { s with module := s.module.refly s.moduleNo plane }

/-! ### The clock -/

/-- A clock changed. -/
def State.setClock (s : State) (c : Clock) : State := { s with module := { s.module with clock := c } }

/-- A clock whose alarm goes with its condition (R522). -/
def Clock.calm (now : Nat) (c : Clock) : Clock := { c with alarm := c.alarm && c.bad now }

/-- A module with an estimate of its offset from the grandmaster, which it is locked to (R519); the first lock makes a forward step where
it is behind (R521). -/
def State.estimate (s : State) (offset : Int) : State :=
  let c := s.module.clock
  let step := if !c.everLocked ∧ offset < 0 then offset.natAbs else 0
  let now := s.ptc + BitVec.ofNat 64 step
  let c1 := { c with locked := true, everLocked := true, offset := offset + step, sync := none }
  { s.setClock (c1.calm now.toNat) with ptc := now }

/-- PTP_MESSAGE (R519 to R522) on the port that the host has selected: the master of the lowest rank is the grandmaster; a two-step Sync
gives the offset of this module's PTC, less the link's delay, which the peer-delay messages give; lock is lost. -/
def execPtpMessage (m : Ptp) (s : State) : Outcome State Fault Refusal :=
  let c := s.module.clock
  let now := s.ptc.toNat
  if m.port ≠ c.port then .next s
  else
    match m.body with
    | .announce rank gm =>
      if c.rank.isSome ∧ gm = c.grandmaster then .next (s.setClock { c with rank := some rank })
      else if c.rank.all fun r => decide (rank < r) then .next (s.setClock { c with rank := some rank, grandmaster := gm, sync := none })
      else .next s
    | .sync gm seq => if c.rank.isSome ∧ gm = c.grandmaster then .next (s.setClock { c with sync := some (seq, now) }) else .next s
    | .followUp gm seq origin corr =>
      match c.sync with
      | some (q, at') =>
        if gm = c.grandmaster ∧ q = seq then .next (s.estimate ((at' : Int) - ((origin : Int) + corr) - c.delay)) else .next s
      | none => .next s
    | .delayResp asked got => .next (s.setClock { c with asked := some (asked, got, now) })
    | .delayFollowUp sent =>
      match c.asked with
      | some (t1, t2, t4) => .next (s.setClock { c with asked := none, delay := (((t4 : Int) - t1) - ((sent : Int) - t2)) / 2 })
      | none => .next s
    | .lost =>
      let c1 := { c with locked := false, rank := none, sync := none, asked := none, lostAt := if c.locked then now else c.lostAt }
      .next (s.setClock (c1.calm now))

/-- OFFSET_ALARM (R522). -/
def execOffsetAlarm (s : State) : Outcome State Fault Refusal :=
  let c := s.module.clock
  if c.bad s.ptc.toNat && !c.alarm then
    .next { s.setClock { c with alarm := true } with cp := { s.cp with reports := s.cp.reports ++ [HostReport.clock c.offset] } }
  else .next s

/-! ### Host commands -/

/-- SUBMIT (R235, R236, R242, R552). -/
def execSubmit (seq : Word) (pa : Nat) (s : State) : Outcome State Fault Refusal :=
  hostCommand (fun s =>
    if pa % 64 ≠ 0 ∨ dramLimit < pa + 512 then s.complete seq 1
    else
      let (bs, s1) := readSectors s pa 512
      match s1.accept bs with
      | (.ok _, s2) => s2.complete seq 0
      | (.error .illFormed, s2) => s2.complete seq 1
      | (.error .full, s2) => s2.complete seq 2) s

/-- CANCEL (R240, R552): refused where no launch has the identifier. -/
def execCancel (seq : Word) (lid : Nat) (s : State) : Outcome State Fault Refusal :=
  hostCommand (fun s =>
    match s.launchOf lid with
    | none => s.complete seq 2
    | some l => (match l.state with | .ending _ => s | .queued | .eligible => s.abnormalEnd lid).complete seq 0) s

/-- BIND (R457, R552). -/
def execBindQueue (seq : Word) (queue asid root : Nat) (s : State) : Outcome State Fault Refusal :=
  hostCommand (fun s =>
    if 64 ≤ queue ∨ 65536 ≤ asid ∨ root % 256 ≠ 0 ∨ 2 ^ 52 ≤ root then s.complete seq 1
    else State.complete { s with bindings := tput s.bindings queue (asid, root) } seq 0) s

/-- SHOOT (R464, R552): it completes with its shootdown. -/
def execShoot (seq : Word) (asid vpn pages : Nat) (s : State) : Outcome State Fault Refusal :=
  hostCommand (fun s => s.shootdown asid vpn pages (some seq)) s

/-- WLOAD (R287, R552): queued for its die. -/
def execWload (seq : Word) (die off pa len : Nat) (s : State) : Outcome State Fault Refusal :=
  hostCommand (fun s =>
    if 4 ≤ die ∨ off % 65536 ≠ 0 ∨ pa % 65536 ≠ 0 ∨ len % 65536 ≠ 0 ∨ 536870912 < off + len ∨ dramLimit < pa + len then s.complete seq 1
    else { s with cp := { s.cp with wloads := s.cp.wloads ++ [{ seq := seq, die := die, off := off, pa := pa, len := len }] } }) s

/-- Whether a team of a launch with a WEIGHT entry is resident on a die (R287). -/
def State.weightUser (s : State) (die : Nat) : Bool :=
  s.teams.any fun p => decide (p.2.core.die = die) && ((s.launchOf p.1.lid).map fun l => l.weighted).getD false

/-- WLOAD_COMPLETE (R287, R491, R552). -/
def execWloadComplete (die : Nat) (s : State) : Outcome State Fault Refusal :=
  match s.cp.wloads.find? fun w => w.die = die with
  | none => .next s
  | some w =>
    if s.weightUser die then .next s
    else
      let (bs, s1) := readSectors s w.pa w.len
      let inside (o : Nat) : Bool := decide (w.off ≤ o ∧ o < w.off + w.len)
      let old := ((tget s1.mem.weights die).getD []).filter fun p => !inside p.1
      let new := bs.zipIdx.map fun x => (w.off + x.2, x.1)
      let s2 := { s1 with mem := { s1.mem with weights := tput s1.mem.weights die (old ++ new) },
                          rel := { s1.rel with weightSick := s1.rel.weightSick.filter fun g => !(decide (g.1.1 = die) && inside (32 * g.1.2)) },
                          cp := { s1.cp with wloads := s1.cp.wloads.erase w } }
      .next (s2.complete w.seq 0)

/-- GRANT (R382, R552). -/
def execGrant (seq : Word) (queue stack first count : Nat) (s : State) : Outcome State Fault Refusal :=
  hostCommand (fun s =>
    if 64 ≤ queue ∨ 24 ≤ stack ∨ 80 < first + count then s.complete seq 1
    else
      let rest := terase s.cp.grants (queue, stack)
      State.complete { s with cp := { s.cp with grants := if count = 0 then rest else rest ++ [((queue, stack), (first, count))] } } seq 0) s

/-- RETIRE (R495, R552). -/
def execRetire (seq : Word) (stack channel : Nat) (s : State) : Outcome State Fault Refusal :=
  hostCommand (fun s =>
    if 24 ≤ stack ∨ 160 ≤ channel then s.complete seq 1
    else
      let s1 := s.retireChannel stack channel
      s1.complete seq (if s1.rel.retired.length = s.rel.retired.length then 2 else 0)) s

/-! ### Power -/

/-- A power scope's state set. -/
def State.setPower (s : State) (sc : PwrScope) (p : Power) : State := { s with module := { s.module with power := tput s.module.power sc p } }

/-- Whether a core lies in a scope. -/
def PwrScope.holds (sc : PwrScope) (c : CoreId) : Bool :=
  match sc with
  | .die d => decide (c.die = d)
  | .cluster d h => decide (c.die = d ∧ c.core / 8 = h)

/-- Whether a hardware cluster lies in a scope. -/
def PwrScope.covers (sc : PwrScope) (die hw : Nat) : Bool :=
  match sc with
  | .die d => decide (die = d)
  | .cluster d h => decide (die = d ∧ hw = h)

/-- Whether a scope exists. -/
def PwrScope.ok : PwrScope → Bool
  | .die d => decide (d < 4)
  | .cluster d h => decide (d < 4 ∧ h < 6)

/-- The die of a physical sector's stack (R283). -/
def dieOf (sec : Nat) : Nat := (placeOf (32 * sec)).stack / 6

/-- A die's write-backs accepted, its L2 slices and its memory-side caches written back. -/
def State.flushDie (s : State) (d : Nat) : State :=
  let mine := s.mem.writeBacks.filter fun w => dieOf w.sector = d
  let s1 := mine.foldl (fun st w => baseStore st w.sector w.data w.poison)
    { s with mem := { s.mem with writeBacks := s.mem.writeBacks.filter fun w => dieOf w.sector ≠ d } }
  let s2 := ((s1.mem.l2.map fun p => p.1).filter fun x => dieOf x = d).foldl evictSector s1
  ((s2.mem.counted.map fun p => p.1).filter fun n => dieOfLine n = d).foldl (fun st n => evictSide n st) s2

/-- A die's caches emptied: its L2 slices and memory-side caches, what they hold alone written back or lost, and its cores' L1s, lines and
TLBs. -/
def State.emptyDie (s : State) (d : Nat) (back : Bool) : State :=
  let s0 := if back then s.flushDie d else s
  let s1 := { s0 with mem := { s0.mem with l2 := s0.mem.l2.filter fun p => dieOf p.1 ≠ d, held := s0.mem.held.filter fun p => dieOf p.1 ≠ d,
                                           counted := s0.mem.counted.filter fun p => dieOfLine p.1 ≠ d } }
  { s1 with mem := { s1.mem with l1 := s1.mem.l1.filter fun p => p.1.core.die ≠ d, lines := s1.mem.lines.filter fun p => p.1.1.die ≠ d,
                                 coreTlb := s1.mem.coreTlb.filter fun p => p.1.die ≠ d, dieTlb := s1.mem.dieTlb.filter fun p => p.1 ≠ d } }

/-- What a die loses in P5 (R554): its caches, its stacks' DRAM with their keys, and its weight store. -/
def State.loseMemory (s : State) (d : Nat) : State :=
  let s1 := s.emptyDie d false
  let out (sec : Nat) : Bool := decide (dieOf sec = d)
  let lost (x : Stripe) : Bool := decide (x.stack / 6 = d)
  { s1 with mem := { s1.mem with dram := s1.mem.dram.filter fun c => !out (c.1 / 32),
                                 writeBacks := s1.mem.writeBacks.filter fun w => !out w.sector, weights := terase s1.mem.weights d },
            rel := { s1.rel with side := s1.rel.side.filter fun p => !out p.1, parity := s1.rel.parity.filter fun p => !lost p.1,
                                 sick := s1.rel.sick.filter fun p => !out p.1, sickParity := s1.rel.sickParity.filter fun p => !lost p.1,
                                 weightSick := s1.rel.weightSick.filter fun p => p.1.1 ≠ d,
                                 keyless := (s1.rel.keyless ++ [d]).eraseDups } }

/-- A power state entered (R554). -/
def State.enterPower (s : State) (sc : PwrScope) (target : Nat) : State :=
  let s1 := s.setPower sc { state := target, gating := decide (target = 3), returning := none }
  match target, sc with
  | 3, _ => s1.drain (PwrScope.covers sc)
  | 4, .die d => s1.emptyDie d true
  | 5, .die d => s1.loseMemory d
  | _, _ => s1

/-- PWRSET (R554, R552): a return from P4 or P5 completes later, by POWER_RETURN_COMPLETE. -/
def execPwrset (seq : Word) (scope : PwrScope) (target : Nat) (s : State) : Outcome State Fault Refusal :=
  hostCommand (fun s =>
    let isDie := match scope with | .die _ => true | .cluster _ _ => false
    if !PwrScope.ok scope || decide (5 < target) || (decide (4 ≤ target) && !isDie) then s.complete seq 1
    else if decide (4 ≤ target) && (!s.teams.isEmpty || s.launches.any fun l => decide (l.state = .eligible)) then s.complete seq 2
    else
      let old := s.powerOf scope
      let s1 := s.enterPower scope target
      if 4 ≤ old.state ∧ target ≤ 3 then s1.setPower scope { s1.powerOf scope with returning := some (old.state, seq) }
      else s1.complete seq 0) s

/-- POWER_GATE (R554): once the last team of a scope entering P3 has left. -/
def execPowerGate (scope : PwrScope) (s : State) : Outcome State Fault Refusal :=
  let p := s.powerOf scope
  if p.gating && !(s.teams.any fun t => PwrScope.holds scope t.2.core) then .next (s.setPower scope { p with gating := false }) else .next s

/-- POWER_RETURN_COMPLETE (R554, R552): DRAM is ready, and after P5 the boot stages have run, which give the die keys again (R550). -/
def execPowerReturnComplete (d : Nat) (s : State) : Outcome State Fault Refusal :=
  let p := s.powerOf (.die d)
  match p.returning with
  | none => .next s
  | some (old, seq) =>
    let s1 := s.setPower (.die d) { p with returning := none }
    let s2 := if old = 5 then { s1 with rel := { s1.rel with keyless := s1.rel.keyless.filter fun x => decide (x ≠ d) } } else s1
    .next (s2.complete seq 0)

/-! ### Parameters -/

/-- A parameter set within its limits, else status 1 (R552). -/
def setParam (seq : Word) (ok : Bool) (f : State → State) (s : State) : Outcome State Fault Refusal :=
  hostCommand (fun s => if ok then (f s).complete seq 0 else s.complete seq 1) s

/-- PARAM AGE (R246). -/
def execParamAge (seq : Word) (ms : Nat) (s : State) : Outcome State Fault Refusal :=
  setParam seq (decide (1 ≤ ms ∧ ms ≤ 1000)) (fun s => { s with cp := { s.cp with ageMs := ms } }) s

/-- PARAM lease (R480). -/
def execParamLease (seq : Word) (ms : Nat) (s : State) : Outcome State Fault Refusal :=
  setParam seq (decide (1 ≤ ms ∧ ms ≤ 100)) (fun s => { s with vnp := { s.vnp with leaseLen := ms * 1000000 } }) s

/-- PARAM pass (R492). -/
def execParamPass (seq : Word) (hours : Nat) (s : State) : Outcome State Fault Refusal :=
  setParam seq (decide (1 ≤ hours ∧ hours ≤ 720)) (fun s => { s with rel := { s.rel with passHours := hours } }) s

/-- PARAM test interval (R501): 1 minute to 24 hours, or off. -/
def execParamTestInterval (seq : Word) (minutes : Nat) (s : State) : Outcome State Fault Refusal :=
  setParam seq (decide (minutes ≤ 1440)) (fun s => { s with rel := { s.rel with testMinutes := minutes } }) s

/-- PARAM alert threshold (R555). -/
def execParamAlertThreshold (seq : Word) (die celsius : Nat) (s : State) : Outcome State Fault Refusal :=
  setParam seq (decide (die < 5 ∧ 60 ≤ celsius ∧ celsius ≤ 100)) (fun s =>
    { s with module := { s.module with threshold := s.module.threshold.set (die % 5) celsius (Nat.mod_lt _ (by decide)) } }) s

/-- MODE (R152, R153, R527). -/
def execMode (seq : Word) (queue : Nat) (collTest debug : Bool) (s : State) : Outcome State Fault Refusal :=
  setParam seq (decide (queue < 64)) (fun s => { s with cp := { s.cp with modes := tput s.cp.modes queue (collTest, debug) } }) s

/-- FWDSTEP (R521). -/
def execFwdstep (seq : Word) (ptc : BitVec 64) (s : State) : Outcome State Fault Refusal :=
  hostCommand (fun s => if ptc.toNat ≤ s.ptc.toNat then s.complete seq 1 else State.complete { s with ptc := ptc } seq 0) s

/-! ### Event counters -/

/-- Counters of a place (R557). -/
def CtrPlace.count : CtrPlace → Nat
  | .core c => if c.die < 4 ∧ c.core < 48 then 8 else 0
  | .die d => if d < 4 then 16 else 0
  | .vnp => 8

/-- A counter cleared (R557): the increments of this cycle leave it at 0. -/
def EvCounter.clear (cycle : Nat) (c : EvCounter) : EvCounter := { c with count := 0#48, cleared := some cycle }

/-- An event counter of a place. -/
def State.counter (s : State) (place : CtrPlace) (n : Nat) : EvCounter :=
  (tget s.module.counters (place, n)).getD { count := 0#48, ctl := 0#32, cleared := none }

/-- An event counter set. -/
def State.setCounter (s : State) (place : CtrPlace) (n : Nat) (c : EvCounter) : State :=
  { s with module := { s.module with counters := tput s.module.counters (place, n) c } }

/-- ECTL (R557): EN and SRC are written, and CLR, which reads 0, clears the count; OVF stays where the word keeps it and it was set;
reserved bits read 0. -/
def execEctl (seq : Word) (place : CtrPlace) (n : Nat) (ctl : Word) (s : State) : Outcome State Fault Refusal :=
  setParam seq (decide (n < CtrPlace.count place)) (fun s =>
    let c := s.counter place n
    let c1 := { c with ctl := (ctl &&& 0x800000FF#32) ||| (c.ctl &&& ctl &&& 0x40000000#32) }
    s.setCounter place n (if ctl.getLsbD 29 then c1.clear s.cycle else c1)) s

/-- COUNTER_CLEAR (R557): CLR = 1 is written to a counter. -/
def execCounterClear (place : CtrPlace) (n : Nat) (s : State) : Outcome State Fault Refusal :=
  if n < CtrPlace.count place then .next (s.setCounter place n ((s.counter place n).clear s.cycle)) else .next s

/-- Whether the first bytes of a command are those of one that R552 lists. -/
def CommandHead.ok (h : CommandHead) : Bool := decide (1 ≤ h.code ∧ h.code ≤ 14 ∧ h.reserved = 0)

/-- INVALID_HOST_COMMAND (R552): another code, or a reserved byte that is not 0, has status 1 and no effect. -/
def execInvalidHostCommand (seq : Word) (head : CommandHead) (s : State) : Outcome State Fault Refusal :=
  if CommandHead.ok head then .next s else hostCommand (fun s => s.complete seq 1) s

/-! ### Thermal limits and power-up -/

/-- A die's alert threshold (R555). -/
def State.thresholdOf (s : State) (die : Nat) : Nat := s.module.threshold[die % 5]'(Nat.mod_lt _ (by decide))

/-- The module tripped (R556): every die in P5, with nothing kept, saved or reported; the boot status word says stage 0, cause 5. -/
def State.trip (s : State) : State :=
  let off : Power := { state := 5, gating := false, returning := none }
  { s with threads := [], cohorts := [], teams := [], barriers := [], parts := [], traps := [], issue := none, late := [], mem := MemSys.reset,
           eng := Engines.reset,
           rel := { s.rel with side := [], parity := [], sick := [], sickParity := [], weightSick := [], keys := Vector.replicate 4 none,
                               keyless := List.range 4 },
           module := { s.module with booted := false, boot := 0x500#32, power := (List.range 4).map fun d => (PwrScope.die d, off) } }

/-- THERMAL_ALERT (R555): one alert until the sensor has fallen; a reading of 105 trips (R556). -/
def execThermalAlert (die sensor celsius : Nat) (s : State) : Outcome State Fault Refusal :=
  if 5 ≤ die ∨ 4 ≤ sensor then .next s
  else if 105 ≤ celsius then .next s.trip
  else if celsius < s.thresholdOf die ∨ (die, sensor) ∈ s.module.alerted then .next s
  else
    .next { s with module := { s.module with alerted := s.module.alerted ++ [(die, sensor)] },
                   cp := { s.cp with reports := s.cp.reports ++ [HostReport.thermal die sensor celsius] } }

/-- SENSOR_FALL_BELOW_THRESHOLD (R555). -/
def execSensorFallBelowThreshold (die sensor celsius : Nat) (s : State) : Outcome State Fault Refusal :=
  if celsius + 5 ≤ s.thresholdOf die then
    .next { s with module := { s.module with alerted := s.module.alerted.filter fun x => decide (x ≠ (die, sensor)) } }
  else .next s

/-- THERMAL_TRIP (R556). -/
def execThermalTrip (die sensor celsius : Nat) (s : State) : Outcome State Fault Refusal :=
  if 5 ≤ die ∨ 4 ≤ sensor ∨ celsius < 105 then .next s else .next s.trip

/-- The cause for which an image fails its verification (R550, R551): its signature, or a version below the fused counter. -/
def Image.fails (i : Image) (rollback : Nat) : Option Nat := if !i.signed then some 1 else if i.version < rollback then some 2 else none

/-- The stage that a boot stops at, and its cause (R550, R551): the ROM trains the links and DRAM, then verifies the host firmware, which
verifies what it loads. -/
def BootInput.fails (b : BootInput) (rollback : Nat) : Option (Nat × Nat) :=
  if !b.links then some (1, 3)
  else if !b.dram then some (1, 4)
  else
    match Image.fails b.firmware rollback with
    | some c => some (2, c)
    | none => (((Image.fails b.cp rollback).or (Image.fails b.vnp rollback)).or (Image.fails b.supervisor rollback)).map fun c => (3, c)

/-- POWER_UP (R550, R551, R556): everything starts as after reset, and the boot stages run, to the end or to the one that fails; the
second generates the first keys. The fuses stay, and the model's own counters and schedule go on. -/
def execPowerUp (b : BootInput) (s : State) : Outcome State Fault Refusal :=
  let r := State.reset
  let fault := BootInput.fails b s.module.rollback
  let boot := match fault with | none => 4#32 | some (stage, cause) => BitVec.ofNat 32 (stage + 256 * cause)
  let rel := if (fault.map fun x => x.1) = some 1 then r.rel else r.rel.firstKeys
  .next { r with module := { r.module with rollback := s.module.rollback, boot := boot, booted := fault.isNone }, rel := rel,
                 sched := s.sched, cycle := s.cycle, nextId := s.nextId, free := s.free }

end Sys2Proof.Machine
end

