-- ==== Sys2Proof/Machine/EventsVnp.lean ====
section
/-!
DEFINITION. The Virga network processor (R470 to R486, R559): page chains, this module as home of its keys, leases, ownership
and eviction, declined faults and the host's answers to them. A step whose condition does not hold changes nothing.
-/

namespace Sys2Proof.Machine

open Host (Outcome)

/-! ### Keys, homes and messages -/

/-- The VNP changed. -/
def State.modVnp (s : State) (f : Vnp → Vnp) : State := { s with vnp := f s.vnp }

/-- One bit of the reflected CRC-32C (RFC 3720). -/
def crcBit (c : Nat) : Nat := if c % 2 = 1 then (c / 2) ^^^ 0x82F63B78 else c / 2

/-- One byte of it. -/
def crcByte (c : Nat) (b : Byte) : Nat := (List.range 8).foldl (fun x _ => crcBit x) (c ^^^ b.toNat)

/-- The CRC-32C of some bytes. -/
def crc32c (bs : List Byte) : Nat := bs.foldl crcByte 0xFFFFFFFF ^^^ 0xFFFFFFFF

/-- K of a page (R471). -/
def keyCode (key : PageKey) : Nat := key.asid * 2 ^ 41 + key.vpn

/-- The bucket of a page (R471). -/
def bucketOf (key : PageKey) : Nat := crc32c (leBytes 8 (keyCode key)) % 4096

/-- The home module of a page (R471). -/
def State.homeOf (s : State) (key : PageKey) : Nat := s.vnp.hmap.getD (bucketOf key) 0

/-- Whether a write-back serves what another module asked for (R470, R484). -/
def State.writesForOther (s : State) (w : WriteOut) : Bool := w.tell.isSome && decide (s.homeOf w.key ≠ s.moduleNo)

/-- A message sent, and to another module on its way (R514, R516). -/
def State.sendVnp (s : State) (m : VnpMsg) : State :=
  { s with vnp := { s.vnp with sent := s.vnp.sent ++ [m] }, module := s.module.fly s.moduleNo (m.flights s.moduleNo) }

/-- The messages of a step from another module taken, one for each of some places (R473, R514). -/
def takeStep (src cls tag seq : Nat) (places : List Nat) (s : State) : Option State :=
  places.foldl (fun st _ => st.bind fun s => (s.takeUmril fun m => Umril.fits m src cls tag seq).map fun x => x.2) (some s)

/-- A message from a module: another's has arrived and been accepted (R515), and one that this module sends itself has been sent. -/
def State.takeVnp (s : State) (src : Nat) (m : VnpMsg) : Option State :=
  if src ≠ s.moduleNo then takeStep src m.cls (vnpTag m.step.1) m.step.2 m.places s
  else if s.vnp.sent.contains m then some (s.modVnp fun v => { v with sent := v.sent.erase m })
  else none

/-- VNP threads that serve requests of other modules (R470). -/
def State.guests (s : State) : Nat :=
  (s.vnp.reqs.filter fun r => r.begun && decide (r.src ≠ s.moduleNo)).length + (s.vnp.writeOuts.filter s.writesForOther).length

/-- Whether one of the 16 threads for them is free, where a request is another module's (R470). -/
def State.guestRoom (s : State) (src : Nat) : Bool := decide (src = s.moduleNo ∨ s.guests < 16)

/-- A request of a module: it is taken once a thread is free (R470). -/
def State.takeAsk (s : State) (src : Nat) (m : VnpMsg) : Option State := if s.guestRoom src then s.takeVnp src m else none

/-- The next sequence number of a step (R475). -/
def State.nextSeq (s : State) : Nat × State := (s.vnp.seq + 1, s.modVnp fun v => { v with seq := v.seq + 1 })

/-- The pause before the n-th retry (R475). -/
def backoff (n : Nat) : Nat := 500000 * 2 ^ n

/-- What a network step that awaits its reply comes to (R475): sent again up to three times, each 2 ms and a pause after the last. -/
inductive StepDue where | wait | again | failed
  deriving DecidableEq, Repr

/-- A step sent at a tick, with its retries. -/
def stepDue (now sent retries : Nat) : StepDue :=
  if retries < 3 then (if sent + 2000000 + backoff retries ≤ now then .again else .wait)
  else if sent + 2000000 ≤ now then .failed
  else .wait

/-! ### Chains -/

/-- The chain of a page. -/
def State.chain (s : State) (key : PageKey) : Option Chain := s.vnp.chains.find? fun c => c.key = key

/-- A chain changed. -/
def State.setChain (s : State) (key : PageKey) (f : Chain → Chain) : State :=
  s.modVnp fun v => { v with chains := v.chains.map fun c => if c.key = key then f c else c }

/-- A chain ended. -/
def State.dropChain (s : State) (key : PageKey) : State :=
  s.modVnp fun v => { v with chains := v.chains.filter fun c => c.key ≠ key }

/-- A page that is not declined as yet waits in its chain. -/
def ParkRec.waits (r : ParkRec) (key : PageKey) : Bool := decide (r.key = key ∧ r.st = .waiting)

/-- Records of a chain changed. -/
def State.modRecs (s : State) (p : ParkRec → Bool) (f : ParkRec → ParkRec) : State :=
  s.modVnp fun v => { v with rfq := v.rfq.map fun r => if p r then f r else r }

/-- Every waiting record of a chain declined (R474, R475, R485). -/
def State.declineChain (s : State) (key : PageKey) (reason : Nat) : State :=
  let n := (s.vnp.rfq.filter fun r => r.waits key).length
  let s1 := (s.modRecs (fun r => r.waits key) fun r => { r with st := .declined reason }).dropChain key
  (List.range n).foldl (fun st _ => st.bump .vnp 2) (s1.modVnp forwardDeclined)

/-- Every waiting record of a chain that a test holds of resolved, and the groups that this wakes woken (R477). -/
def State.resolveChain (s : State) (key : PageKey) (p : ParkRec → Bool) : State :=
  wakeGroups (s.modRecs (fun r => r.waits key && p r) fun r => { r with st := .installed })

/-- The 48 VNP threads that are taken (R470): by page chains, renewals that are asked for, and this module's own write-backs. -/
def State.running (s : State) : Nat :=
  let v := s.vnp
  (v.chains.filter fun c => decide (c.st ≠ .arrived)).length + (v.frames.filter fun f => f.renewing.isSome).length +
    (v.writeOuts.filter fun w => !s.writesForOther w).length

/-- A step of a chain begun: its message takes the next sequence number (R475). -/
def State.beginStep (s : State) (key : PageKey) (st : ChainState) (msg : Nat → VnpMsg) : State :=
  let (q, s1) := s.nextSeq
  (s1.setChain key fun c => { c with st := st, seq := q, sent := s.ptc.toNat, retries := 0 }).sendVnp (msg q)

/-- Whether the page of a key is being written back (R469, R484). -/
def State.writesOut (s : State) (key : PageKey) : Bool := s.vnp.writeOuts.any fun w => w.key = key

/-- The chain that the next free thread takes (R470): of those that wait, the one whose first record came first; one whose page is being
evicted waits for that (R469). -/
def State.firstChain (s : State) : Option Chain :=
  (s.vnp.chains.filter fun c => decide (c.st = .arrived) && !s.writesOut c.key).foldl (fun (acc : Option Chain) c =>
    match acc with
    | none => some c
    | some b => if c.first < b.first then some c else acc) none

/-- VNP_CHAIN_TAKE (R470, R474): the first chain that has no thread is taken, and DIRQ sent; under the alarm of R522 it is
declined. -/
def execVnpChainTake (key : PageKey) (s : State) : Outcome State Fault Refusal :=
  if (s.firstChain.map fun c => c.key) ≠ some key ∨ 48 ≤ s.running then .next s
  else if s.clockBad then .next (s.declineChain key 4)
  else
    let recs := s.vnp.rfq.filter fun r => decide (r.key = key ∧ (r.st = .waiting ∨ r.st = .saved none false))
    if recs.isEmpty then .next (s.dropChain key)
    else
      let write := recs.any fun r => decide (r.kind = .write)
      .next (s.beginStep key (.directory write) fun q => .dirq (s.homeOf key) key write q)

/-- Whether a page's source may be read (R473): a module of the domain, this one among them, or the storage service. -/
def State.sourceOk (s : State) (src : PageSource) : Bool :=
  match src with
  | .storage _ => true
  | .module m _ => decide (m = s.moduleNo) || s.module.maddr.any fun x => x.1 = m

/-- The page is asked for (R474). -/
def State.fetchPage (s : State) (key : PageKey) (src : PageSource) (lease : Nat) (owned : Bool) : State :=
  if s.sourceOk src then s.beginStep key (.fetch src lease owned []) fun q => .pageRead src key q
  else s.declineChain key 8

/-- Launches of a chain's write records: an ownership step ends their replayability (R498). -/
def State.ownLaunches (s : State) (key : PageKey) : State :=
  ((s.vnp.rfq.filter fun r => decide (r.key = key ∧ r.kind = .write)).map fun r => r.lid).eraseDups.foldl
    (fun st lid => st.endReplay lid) s

/-- DIRECTORY_REPLY (R474, R482). -/
def execDirectoryReply (key : PageKey) (seq : Nat) (r : DirReply) (s : State) : Outcome State Fault Refusal :=
  match s.chain key, s.takeVnp (s.homeOf key) (.reply s.moduleNo key seq r) with
  | some c, some s1 =>
    match c.st with
    | .directory _ =>
      if c.seq ≠ seq then .next s1
      else
        match r with
        | .shared src lease => .next (s1.fetchPage key src lease false)
        | .owned src carries =>
          let s2 := s1.ownLaunches key
          if carries then .next (s2.fetchPage key src 0 true)
          else .next (s2.setChain key fun c => { c with st := .install none src 0 true, sent := s.ptc.toNat })
        | .absent => .next (s1.declineChain key 5)
        | .refused => .next (s1.declineChain key 6)
    | _ => .next s1
  | none, some s1 => .next s1
  | _, none => .next s

/-- Bytes written into a frame below the caches (R474): none of its sectors is cached. -/
def State.fillFrame (s : State) (frame : Nat) (data : List Byte) : State :=
  (List.range 2048).foldl (fun st i => sectorStore st (2048 * frame + i) ((data.drop (32 * i)).take 32) false) s

/-- A frame taken from the free pool (R483): which, the device chooses. -/
def State.takeFrame (s : State) : Option (Nat × State) :=
  match s.vnp.pool with
  | [] => none
  | f :: rest =>
    let l := f :: rest
    let pick := l.getD (Config.freePick s.free % l.length) f
    some (pick, { s with free := s.free + 1, vnp := { s.vnp with pool := l.erase pick } })

/-- The bytes of a page whose messages have all arrived. -/
def pageBytes (got : List (Nat × List Byte)) : List Byte := (List.range 16).flatMap fun i => (tget got i).getD []

/-- The 16th message has arrived: a frame, and the data in it; or a wait for a frame (R474, R483). -/
def State.fetchDone (s : State) (key : PageKey) : State :=
  match s.chain key with
  | some c =>
    match c.st with
    | .fetch src lease owned got =>
      if got.length < 16 then s
      else
        match s.takeFrame with
        | some (f, s1) =>
          (s1.fillFrame f (pageBytes got)).setChain key fun c => { c with st := .install (some f) src lease owned, frameWait := none }
        | none => s.setChain key fun c => { c with frameWait := c.frameWait.or (some s.ptc.toNat) }
    | _ => s
  | none => s

/-- The module that answers for a source; 255 stands for the storage service (R472). -/
def sourceModule : PageSource → Nat
  | .module m _ => m
  | .storage _ => 255

/-- PAGE_DATA_MESSAGE (R473, R474). -/
def execPageDataMessage (key : PageKey) (seq idx : Nat) (data : List Byte) (s : State) : Outcome State Fault Refusal :=
  match s.chain key with
  | some c =>
    match c.st with
    | .fetch src lease owned got =>
      if c.seq ≠ seq ∨ 16 ≤ idx ∨ data.length ≠ 4096 ∨ (tget got idx).isSome then .next s
      else
        match (match src with | .module m _ => s.takeVnp m (.pageData s.moduleNo key seq idx data) | .storage _ => some s) with
        | none => .next s
        | some s1 =>
          .next ((s1.setChain key fun c => { c with st := .fetch src lease owned (got ++ [(idx, data)]) }).fetchDone key)
    | _ => .next s
  | none => .next s

/-! ### Leaves of remote pages -/

/-- The root table that a chain's first record was translated with, where its queue is still bound to the address space (R457, R559). -/
def State.rootOf (s : State) (c : Chain) : Option Nat :=
  if (tget s.bindings c.queue).any fun b => decide (b.1 = c.key.asid) then c.root else none

/-- The leaf of a remote page, as a walk finds it: its address and value. -/
def State.leafOf (s : State) (root : Nat) (key : PageKey) : Option (Nat × Nat) × State :=
  let (w, s1) := s.walk root (65536 * key.vpn)
  match w with
  | .leaf a pte big => (if big then none else some (a, pte), s1)
  | .unmapped | .malformed => (none, s1)

/-- A PTE with a bit set or cleared. -/
def pteSet (pte n : Nat) (v : Bool) : Nat := if pteBit pte n = v then pte else if v then pte + 2 ^ n else pte - 2 ^ n

/-- The leaf of an installed page (R474): WP, X and TAG kept. -/
def installedPte (pte frame : Nat) (owned : Bool) : Nat :=
  pteSet (pteSet (pteSet (pteSet (pteSet pte 0 true) 1 true) 2 owned) 5 false) 6 false + 65536 * frame

/-- The leaf of a page that is not here (R480, R483). -/
def remotePte (pte : Nat) : Nat := pteSet (pteSet (pteSet pte 0 false) 1 true) 2 false - pteFrame pte

/-- RELEASE to a page's home. -/
def State.sendRelease (s : State) (key : PageKey) : State :=
  let (q, s1) := s.nextSeq
  s1.sendVnp (.release (s.homeOf key) key q)

/-- An install abandoned (R559): the frame goes back, the home is told, and the records are resolved. -/
def State.abandon (s : State) (key : PageKey) (frame : Option Nat) : State :=
  let s1 := s.modVnp fun v => { v with pool := v.pool ++ frame.toList }
  ((s1.sendRelease key).resolveChain key fun _ => true).dropChain key

/-- INSTALL (R559): the leaf is written where the walk from the space of the chain's first record still finds it as the fault did. -/
def execInstall (key : PageKey) (s : State) : Outcome State Fault Refusal :=
  let s0 := s.fetchDone key
  match s0.chain key with
  | none => .next s
  | some c =>
    match c.st with
    | .install (some f) src lease owned =>
      match s0.rootOf c with
      | none => .next (s0.abandon key (some f))
      | some root =>
        match s0.leafOf root key with
        | (some (a, pte), s1) =>
          if pteBit pte 0 = false ∧ pteBit pte 1 = true ∧ pteFrame pte = 0 then
            let fr : Frame := { frame := f, key := key, root := root, owned := owned, lease := lease, renewing := none, src := src }
            .next (((s1.setPte a (installedPte pte f owned)).modVnp fun v => { v with frames := v.frames ++ [fr] }).setChain key
              fun c => { c with st := .wake })
          else .next (s1.abandon key (some f))
        | (none, s1) => .next (s1.abandon key (some f))
    | .install none _ _ _ =>
      match s0.vnp.frameOf key with
      | none => .next (s0.abandon key none)
      | some fr =>
        match s0.leafOf fr.root key with
        | (some (a, pte), s1) =>
          if pteBit pte 0 = true ∧ pteFrame pte = 65536 * fr.frame then
            let own (x : Frame) : Frame := if x.key = key then { x with owned := true, lease := 0, renewing := none } else x
            .next (((s1.setPte a (pteSet pte 2 true)).modVnp fun v => { v with frames := v.frames.map own }).setChain key
              fun c => { c with st := .wake })
          else .next (s1.abandon key none)
        | (none, s1) => .next (s1.abandon key none)
    | _ => .next s0

/-- WAKE (R474, R477): records resolved in the chain's order; a write record that finds the page installed without W begins a
chain of its own. -/
def execWake (key : PageKey) (s : State) : Outcome State Fault Refusal :=
  match s.chain key with
  | none => .next s
  | some c =>
    match c.st with
    | .wake =>
      let owned := ((s.vnp.frameOf key).map fun f => f.owned).getD true
      let s1 := ((s.resolveChain key fun r => owned || decide (r.kind ≠ .write)).dropChain key).bump .vnp 1
      match s1.vnp.rfq.find? fun r => r.waits key with
      | some r => .next (s1.modVnp fun v => v.startChain r (s1.queueOf r.lid))
      | none => .next s1
    | _ => .next s

/-! ### The directory of this home -/

/-- Bytes stored at their homes within sectors, from an aligned address. -/
def homePut (s : State) (pa : Nat) (bs : List Byte) : State :=
  (List.range (bs.length / 32)).foldl (fun st i => homeWrite st (pa + 32 * i) ((bs.drop (32 * i)).take 32) true) s

/-- A directory entry from its 64 bytes (R472). -/
def DirEntry.ofBytes (bs : List Byte) : DirEntry :=
  { state := field bs 8 1, owner := field bs 9 1, locm := field bs 0xB 1, ver := field bs 0xC 4, locf := field bs 0x10 8 / 65536 % 2 ^ 36,
    sharers := (List.range (min 8 (field bs 0xA 1))).map fun i => field bs (0x18 + i) 1,
    locator := { server := field bs 0x20 4, object := field bs 0x24 8, page := field bs 0x2C 4 } }

/-- The 64 bytes of a directory entry of a key (R472). -/
def DirEntry.bytes (key : PageKey) (e : DirEntry) : List Byte :=
  leBytes 8 (keyCode key % 2 ^ 57 + 2 ^ 63) ++ leBytes 1 e.state ++ leBytes 1 e.owner ++ leBytes 1 e.sharers.length ++ leBytes 1 e.locm ++
    leBytes 4 e.ver ++ leBytes 8 (65536 * e.locf) ++ ((List.range 8).map fun i => BitVec.ofNat 8 (e.sharers.getD i 255)) ++
    leBytes 4 e.locator.server ++ leBytes 8 e.locator.object ++ leBytes 4 e.locator.page ++ List.replicate 16 0#8

/-- Where the entry of a key stands in the area that the host has reserved (R472). -/
def State.dirSlot (s : State) (key : PageKey) : Option Nat :=
  s.vnp.dirArea.bind fun a => ((List.range a.2).map fun i => a.1 + 64 * i).find? fun pa =>
    decide (leNat (s.homeBytes pa 8) % 2 ^ 57 = keyCode key % 2 ^ 57) && (leNat (s.homeBytes pa 8)).testBit 63

/-- The directory entry of a key, read from its area; none where it is absent. -/
def State.dirEntry (s : State) (key : PageKey) : Option DirEntry × State :=
  match s.dirSlot key with
  | none => (none, s)
  | some pa =>
    let (bs, s1) := readSectors s pa 64
    (some (DirEntry.ofBytes bs), s1)

/-- A directory entry changed. -/
def State.modDir (s : State) (key : PageKey) (f : DirEntry → DirEntry) : State :=
  match s.dirSlot key with
  | none => s
  | some pa =>
    let (bs, s1) := readSectors s pa 64
    homePut s1 pa ((f (DirEntry.ofBytes bs)).bytes key)

/-- The master copy that an entry names (R472). -/
def DirEntry.source (e : DirEntry) : PageSource := if e.locm = 255 then .storage e.locator else .module e.locm e.locf

/-- Whether a key's address space permits writes to the page (R472). DESIGN CHOICE (log entry 42): it is what its leaf says in the tables that
a queue of this module is bound to, and it does where none of them has the leaf. -/
def State.permitsWrite (s : State) (key : PageKey) : Bool :=
  match s.bindings.find? fun b => b.2.1 = key.asid with
  | none => true
  | some b => ((s.leafOf b.2.2 key).1.map fun x => pteBit x.2 3).getD true

/-- A sharer behind the others, or at its place (R472, R481). -/
def DirEntry.share (e : DirEntry) (m : Nat) : DirEntry :=
  { e with state := 1, sharers := if e.sharers.contains m then e.sharers else e.sharers ++ [m] }

/-- STATE of a page that nobody owns or, with no sharer, that storage alone holds (R472, R483). -/
def DirEntry.rest (e : DirEntry) : DirEntry := { e with state := if e.sharers.isEmpty ∧ e.locm = 255 then 0 else 1 }

/-- A module's copy gone (R481, R482, R483). -/
def DirEntry.drop (e : DirEntry) (m : Nat) : DirEntry :=
  let e1 := { e with sharers := e.sharers.filter fun x => decide (x ≠ m) }
  if e.state = 2 then (if e.owner = m then e1.rest else e1) else e1.rest

/-- A lease granted by this home (R480). -/
def State.grantLease (s : State) (key : PageKey) (m t : Nat) : State := s.modVnp fun v => { v with leases := tput v.leases (key, m) t }

/-- A module no sharer of a page any more: its lease with it. -/
def State.dropSharer (s : State) (key : PageKey) (m : Nat) : State :=
  (s.modDir key fun e => e.drop m).modVnp fun v => { v with leases := terase v.leases (key, m) }

/-! ### Requests to this home -/

/-- The request of a key that is served (R484). -/
def State.headReq (s : State) (key : PageKey) : Option DirReq := s.vnp.reqs.find? fun r => r.key = key

/-- The request served of a key ended. -/
def State.popReq (s : State) (key : PageKey) : State :=
  s.modVnp fun v => { v with reqs := match v.reqs.find? fun r => r.key = key with | some r => v.reqs.erase r | none => v.reqs }

/-- The request served of a key changed. -/
def State.modReq (s : State) (key : PageKey) (f : DirReq → DirReq) : State :=
  match s.headReq key with
  | none => s
  | some r => s.modVnp fun v => { v with reqs := v.reqs.map fun x => if x = r then f r else x }

/-- A module asked to give a page up, which the request served waits for (R481, R482). -/
def State.askFor (s : State) (key : PageKey) (m : Nat) (a : HomeAsk) : State :=
  let (q, s1) := s.nextSeq
  (s1.modReq key fun r => { r with waits := r.waits ++ [{ module := m, ask := a, seq := q, sent := s.ptc.toNat, retries := 0 }] }).sendVnp
    (.ask m key a q)

/-- A request answered and over. -/
def State.replyTo (s : State) (r : DirReq) (a : DirReply) : State := (s.popReq r.key).sendVnp (.reply r.src r.key r.seq a)

/-- A renewal served (R480): a sharer's lease is extended by its full length from this tick; another request for one has no reply. -/
def State.renewFor (s0 : State) (r : DirReq) : State :=
  let now := s0.ptc.toNat
  let s := s0.popReq r.key
  match s.dirEntry r.key with
  | (some e, s1) =>
    if e.state = 1 ∧ e.sharers.contains r.src = true then
      (s1.grantLease r.key r.src (now + s.vnp.leaseLen)).sendVnp (.renewed r.src r.key r.seq now)
    else s1
  | (none, s1) => s1

/-- A request begun, or gone on with once nobody is waited for (R474, R480, R481, R482). -/
def State.beginReq (s0 : State) (r : DirReq) : State :=
  let key := r.key
  if r.kind = .renew then s0.renewFor r else
  match s0.dirEntry key with
  | (none, s) => s.replyTo r .absent
  | (some e, s) =>
    let lease := s.ptc.toNat + s.vnp.leaseLen
    let s1 := s.modReq key fun r => { r with begun := true }
    if r.kind = .write then
      if s.permitsWrite key then
        let s2 := (e.sharers.filter fun m => decide (m ≠ r.src)).foldl (fun st m => st.askFor key m .revoke) s1
        if e.state = 2 ∧ e.owner ≠ r.src then s2.askFor key e.owner .recall else s2
      else s.replyTo r .refused
    else if e.state = 2 ∧ e.owner ≠ r.src then s1.askFor key e.owner (.downgrade lease)
    else
      match e.sharers with
      | m :: _ =>
        if 8 ≤ e.sharers.length ∧ e.sharers.contains r.src = false then s1.askFor key m .revoke
        else ((s.modDir key fun e => e.share r.src).grantLease key r.src lease).replyTo r (.shared e.source lease)
      | [] => ((s.modDir key fun e => e.share r.src).grantLease key r.src lease).replyTo r (.shared e.source lease)

/-- The oldest request that may begin: the first of its key, with a thread for it (R470, R484). -/
def State.nextReq (s : State) : Option DirReq :=
  s.vnp.reqs.find? fun r => !r.begun && decide (s.headReq r.key = some r) && s.guestRoom r.src

/-- The requests that may begin, begun; fuel bounds their number. -/
def serveReqs (fuel : Nat) (s : State) : State :=
  match fuel with
  | 0 => s
  | n + 1 =>
    match s.nextReq with
    | none => s
    | some r => serveReqs n (s.beginReq r)

/-- The requests of this home so. -/
def State.serveHome (s : State) : State := serveReqs s.vnp.reqs.length s

/-- A request goes on once nobody is waited for; an ownership step has an event of its own (R482). -/
def State.resume (s : State) (key : PageKey) : State :=
  match s.headReq key with
  | none => s
  | some r => if r.begun && r.waits.isEmpty && decide (r.kind ≠ .write) then (s.beginReq r).serveHome else s

/-- A module has no copy any more (R481 to R483): nothing waits for it. -/
def State.moduleGone (s : State) (key : PageKey) (m : Nat) : State :=
  (((s.dropSharer key m).modReq key fun r => { r with waits := r.waits.filter fun w => w.module ≠ m })).resume key

/-- The acknowledgement of what this home asked a module for (R481, R482): a downgraded owner is SH0, another's copy is gone. -/
def State.homeAck (s : State) (src : Nat) (key : PageKey) (seq : Nat) : State :=
  match (s.headReq key).bind fun r => r.waits.find? fun w => w.module = src ∧ w.seq = seq with
  | none => s
  | some w =>
    let s1 := s.modReq key fun r => { r with waits := r.waits.filter fun x => decide (x ≠ w) }
    let s2 := match w.ask with
      | .downgrade lease => (s1.modDir key fun e => { e with state := 1, sharers := [src] }).grantLease key src lease
      | .revoke | .recall => s1.dropSharer key src
    s2.resume key

/-- An acknowledgement to a home; this module's own reaches it at once. -/
def State.ackHome (s : State) (key : PageKey) (seq : Nat) : State :=
  if s.homeOf key = s.moduleNo then s.homeAck s.moduleNo key seq else s.sendVnp (.ack (s.homeOf key) key seq)

/-- A request arrived (R484): those on one key are served one at a time, in the order of their arrival; one sent again keeps its place. -/
def State.queueReq (s : State) (key : PageKey) (src : Nat) (kind : ReqKind) (seq : Nat) : State :=
  match s.vnp.reqs.find? fun r => r.key = key ∧ r.src = src ∧ r.kind = kind with
  | some r => s.modVnp fun v => { v with reqs := v.reqs.map fun x => if x = r then { x with seq := seq } else x }
  | none =>
    let r : DirReq := { key := key, src := src, kind := kind, seq := seq, begun := false, waits := [] }
    (s.modVnp fun v => { v with reqs := v.reqs ++ [r] }).serveHome

/-- DIRQ (R474, R484). -/
def execDirq (src : Nat) (key : PageKey) (write : Bool) (seq : Nat) (s : State) : Outcome State Fault Refusal :=
  match s.takeVnp src (.dirq s.moduleNo key write seq) with
  | none => .next s
  | some s1 => .next (s1.queueReq key src (if write then .write else .read) seq)

/-- OWNERSHIP_STEP (R482, R484): every other copy is gone and what its owner had written is back, and the home grants ownership; the reply
carries the page unless the requester holds it. -/
def execOwnershipStep (key : PageKey) (s : State) : Outcome State Fault Refusal :=
  match s.headReq key with
  | none => .next s
  | some r =>
    if r.kind ≠ .write ∨ r.begun = false ∨ r.waits ≠ [] then .next s
    else
      match s.dirEntry key with
      | (none, s1) => .next ((s1.replyTo r .absent).serveHome)
      | (some e, s1) =>
        let carries := !e.sharers.contains r.src && !(decide (e.state = 2 ∧ e.owner = r.src))
        let own (e : DirEntry) : DirEntry := { e with state := 2, owner := r.src, sharers := [], ver := (e.ver + 1) % 2 ^ 32 }
        let s2 := (s1.modDir key own).modVnp fun v => { v with leases := terase v.leases (key, r.src) }
        .next ((s2.replyTo r (.owned e.source carries)).serveHome)

/-- RENEWAL_REQUEST (R480, R484): in its turn among the requests on its key. -/
def execRenewalRequest (m : PageStep) (src : Nat) (s : State) : Outcome State Fault Refusal :=
  match s.takeVnp src (.renew s.moduleNo m.key m.seq) with
  | none => .next s
  | some s1 => .next (s1.queueReq m.key src .renew m.seq)

/-- HOME_LEASE_END (R480, R481): 1 ms after its end tick. -/
def execHomeLeaseEnd (key : PageKey) (module : Nat) (s : State) : Outcome State Fault Refusal :=
  match tget s.vnp.leases (key, module) with
  | none => .next s
  | some t => if s.ptc.toNat < t + 1000000 then .next s else .next (s.moduleGone key module)

/-- RELEASE (R480, R483). -/
def execRelease (m : PageStep) (src : Nat) (s : State) : Outcome State Fault Refusal :=
  match s.takeAsk src (.release s.moduleNo m.key m.seq) with
  | none => .next s
  | some s1 => .next (s1.moduleGone m.key src)

/-! ### Leases and eviction of what is held here -/

/-- Whether something that was translated through a page is not over (R464). -/
def State.pageBusy (s : State) (key : PageKey) : Bool := !(s.translatedIn key.asid key.vpn 1).isEmpty

/-- A frame's cached sectors, fetch lines and subscriptions gone, dirty ones and its counted lines written back first. -/
def State.dropFrame (s : State) (frame : Nat) : State :=
  let mine (sec : Nat) : Bool := decide (sec / 2048 = frame)
  let s0 := (s.mem.writeBacks.filter fun w => mine w.sector).foldl (fun st w => baseStore st w.sector w.data w.poison)
    { s with mem := { s.mem with writeBacks := s.mem.writeBacks.filter fun w => !mine w.sector } }
  let s1 := (((s0.mem.l2.map fun p => p.1).filter mine).foldl evictSector s0)
  let s2 := ((s1.mem.counted.map fun p => p.1).filter fun n => decide (n / 512 = frame)).foldl (fun st n => evictSide n st) s1
  let s3 := s2.keepL1 fun _ sec => !mine sec
  let m := s3.mem
  { s3 with mem := { m with held := m.held.filter fun p => !mine p.1, lines := m.lines.filter fun l => decide (l.1.2 / 1024 ≠ frame),
                            subs := m.subs.filter fun x => decide (x.pa / 65536 ≠ frame), dir := m.dir.filter fun x => decide (x.pa / 65536 ≠ frame) } }

/-- A held page's frame changed. -/
def State.modFrame (s : State) (key : PageKey) (f : Frame → Frame) : State :=
  s.modVnp fun v => { v with frames := v.frames.map fun x => if x.key = key then f x else x }

/-- Whether a leaf is a held page's (R460): valid, remote-marked, and with its frame. -/
def Frame.owns (fr : Frame) (pte : Nat) : Bool := pteBit pte 0 && pteBit pte 1 && decide (pteFrame pte = 65536 * fr.frame)

/-- The page's leaf changed, where it still is the page's, with the shootdown that goes with it (R460, R464). -/
def State.changeLeaf (s : State) (fr : Frame) (f : Nat → Nat) : State :=
  let s1 :=
    match s.leafOf fr.root fr.key with
    | (some (a, pte), s1) => if fr.owns pte then s1.setPte a (f pte) else s1
    | (none, s1) => s1
  s1.dropTlb fr.key.asid fr.key.vpn 1

/-- A bit of the page's leaf, where it still is the page's. -/
def State.leafBit (s : State) (fr : Frame) (n : Nat) : Bool :=
  ((s.leafOf fr.root fr.key).1.map fun x => fr.owns x.2 && pteBit x.2 n).getD false

/-- What follows a page's giving up (R482, R483): its frame is free, and its home is told. -/
def State.gaveUp (s : State) (key : PageKey) (frame tell : Option Nat) : State :=
  let s1 := s.modVnp fun v => { v with pool := v.pool ++ frame.toList }
  match tell with
  | some q => s1.ackHome key q
  | none => s1.sendRelease key

/-- A page written back to its master copy (R484); what follows it waits for the acknowledgement. -/
def State.writeOut (s : State) (fr : Frame) (data : List Byte) (frame tell : Option Nat) : State :=
  let (q, s1) := s.nextSeq
  let w : WriteOut := { key := fr.key, dest := fr.src, data := data, frame := frame, tell := tell, seq := q, sent := s.ptc.toNat, retries := 0 }
  (s1.modVnp fun v => { v with writeOuts := v.writeOuts ++ [w] }).sendVnp (.writeBack fr.src fr.key q data)

/-- A held page given up (R480 to R484): its leaf changed with a shootdown, and written back where it is owned and dirty. A page that is
kept stays in its frame, shared; another's frame has no copy left above it. -/
def State.giveUpPage (s : State) (fr : Frame) (keep : Option Nat) (tell : Option Nat) : State :=
  let dirty := fr.owned && s.leafBit fr 6
  let (data, s0) := if dirty then readSectors s (65536 * fr.frame) 65536 else ([], s)
  let s1 :=
    match keep with
    | some lease =>
      (s0.changeLeaf fr fun p => pteSet (pteSet p 2 false) 6 false).modFrame fr.key fun x => { x with owned := false, lease := lease, renewing := none }
    | none =>
      ((s0.changeLeaf fr remotePte).dropFrame fr.frame).modVnp fun v => { v with frames := v.frames.filter fun x => x.key ≠ fr.key }
  let frame := if keep.isSome then none else some fr.frame
  if dirty then s1.writeOut fr data frame tell else s1.gaveUp fr.key frame tell

/-- The write-back of a number acknowledged (R484). -/
def State.writeBackDone (s : State) (src : Nat) (key : PageKey) (seq : Nat) : Option State :=
  (s.vnp.writeOuts.find? fun w => w.key = key ∧ w.seq = seq ∧ sourceModule w.dest = src).map fun w =>
    (s.modVnp fun v => { v with writeOuts := v.writeOuts.erase w }).gaveUp key w.frame w.tell

/-- An acknowledgement that reaches this module (R481 to R484): of a write-back, or of what this home asked for. -/
def State.takeAck (s : State) (src : Nat) (key : PageKey) (seq : Nat) : State :=
  (s.writeBackDone src key seq).getD (s.homeAck src key seq)

/-- Whether one of the 48 threads is free (R470). -/
def State.ownRoom (s : State) : Bool := decide (s.running < 48)

/-- LEASE_RENEWAL (R480): A is cleared with a shootdown, and the home asked. -/
def execLeaseRenewal (key : PageKey) (s : State) : Outcome State Fault Refusal :=
  match s.vnp.frameOf key with
  | none => .next s
  | some fr =>
    let now := s.ptc.toNat
    if fr.owned ∨ fr.renewing.isSome ∨ now + 2000000 < fr.lease ∨ fr.lease ≤ now ∨ s.leafBit fr 5 = false ∨ s.clockBad = true
        ∨ s.pageBusy key = true ∨ s.ownRoom = false then .next s
    else
      let (q, s1) := (s.changeLeaf fr fun p => pteSet p 5 false).nextSeq
      .next ((s1.modFrame key fun x => { x with renewing := some (q, now, 0) }).sendVnp (.renew (s.homeOf key) key q))

/-- LEASE_LAPSE (R480): at its end, or in its last 2 ms where A = 0 and no renewal is asked for. -/
def execLeaseLapse (key : PageKey) (s : State) : Outcome State Fault Refusal :=
  match s.vnp.frameOf key with
  | none => .next s
  | some fr =>
    let now := s.ptc.toNat
    let due := decide (fr.lease ≤ now) || (decide (fr.lease ≤ now + 2000000) && !s.leafBit fr 5 && fr.renewing.isNone)
    if fr.owned = true ∨ due = false ∨ s.pageBusy key = true ∨ (fr.renewing.isNone = true ∧ s.ownRoom = false) then .next s
    else .next ((s.giveUpPage fr none none).bump .vnp 4)

/-- RENEWAL_REPLY (R480): of the step as it was sent last (R475); under the alarm of R522 it renews nothing. -/
def execRenewalReply (m : PageStep) (homeTick : Nat) (s : State) : Outcome State Fault Refusal :=
  match s.vnp.frameOf m.key, s.takeVnp (s.homeOf m.key) (.renewed s.moduleNo m.key m.seq homeTick) with
  | some fr, some s1 =>
    if (fr.renewing.any fun x => x.1 = m.seq) && !s.clockBad then
      .next (s1.modFrame m.key fun x => { x with renewing := none, lease := homeTick + s.vnp.leaseLen })
    else .next s1
  | none, some s1 => .next s1
  | _, none => .next s

/-- Whether a page's chain is in Fetch or Install (R483). -/
def State.pageMoves (s : State) (key : PageKey) : Bool :=
  match s.chain key with
  | some c =>
    (match c.st with
     | .fetch .. | .install .. => true
     | .arrived | .directory _ | .wake => false)
  | none => false

/-- The lowest of some frames. -/
def lowFrame (l : List Frame) : Option Frame :=
  l.foldl (fun (acc : Option Frame) f => match acc with | some g => if f.frame < g.frame then some f else some g | none => some f) none

/-- The frame that the clock's hand reaches (R483): the next in ascending order from where it stands, or the lowest. DESIGN CHOICE (log
entry 42): the clock goes over the pool's frames in ascending order. -/
def Vnp.atHand (v : Vnp) : Option Frame := (lowFrame (v.frames.filter fun f => decide (v.hand ≤ f.frame))).or (lowFrame v.frames)

/-- CLOCK_EVICTION (R483): one visit of the hand while free frames are below the low watermark. -/
def execClockEviction (s : State) : Outcome State Fault Refusal :=
  if s.vnp.low ≤ s.vnp.pool.length then .next s
  else
    match s.vnp.atHand with
    | none => .next s
    | some fr =>
      let on (st : State) : State := st.modVnp fun v => { v with hand := fr.frame + 1 }
      if s.pageMoves fr.key then .next (on s)
      else if s.pageBusy fr.key || !s.ownRoom then .next s
      else if s.leafBit fr 5 then .next (on (s.changeLeaf fr fun p => pteSet p 5 false))
      else .next ((on (s.giveUpPage fr none none)).bump .vnp 5)

/-- What a home asks of this module taken (R481, R482): a page that is held is given up, and one that is not acknowledged; one that is
being written back is acknowledged behind that (R484). -/
def State.yieldPage (s : State) (key : PageKey) (a : HomeAsk) (seq : Nat) : State :=
  match s.takeAsk (s.homeOf key) (.ask s.moduleNo key a seq) with
  | none => s
  | some s1 =>
    match s1.vnp.frameOf key with
    | some fr =>
      if s1.pageBusy key then s
      else s1.giveUpPage fr (match a with | .downgrade lease => some lease | .revoke | .recall => none) (some seq)
    | none =>
      if s1.writesOut key then
        s1.modVnp fun v => { v with writeOuts := v.writeOuts.map fun w => if w.key = key then { w with tell := some seq } else w }
      else s1.ackHome key seq

/-- DOWNGRADE (R481): the owner keeps a shared copy under a lease, its writes written back. -/
def execDowngrade (m : PageStep) (lease : Nat) (s : State) : Outcome State Fault Refusal := .next (s.yieldPage m.key (.downgrade lease) m.seq)

/-- REVOKE (R482). -/
def execRevoke (m : PageStep) (s : State) : Outcome State Fault Refusal := .next (s.yieldPage m.key .revoke m.seq)

/-- RECALL (R482): the owner writes the page back first. -/
def execRecall (m : PageStep) (s : State) : Outcome State Fault Refusal := .next (s.yieldPage m.key .recall m.seq)

/-- PAGE_READ_REQUEST (R473, R474): the master copy in 16 messages of 4,096 bytes. -/
def execPageReadRequest (src : Nat) (key : PageKey) (frame seq : Nat) (s : State) : Outcome State Fault Refusal :=
  match s.takeAsk src (.pageRead (.module s.moduleNo frame) key seq) with
  | none => .next s
  | some s1 =>
    .next ((List.range 16).foldl (fun st i =>
      let (bs, st1) := readSectors st (65536 * frame + 4096 * i) 4096
      st1.sendVnp (.pageData src key seq i bs)) s1)

/-- WRITE_BACK (R484, R319): a page written into the master copy's frame here, and acknowledged. -/
def execWriteBack (m : PageStep) (src frame : Nat) (data : List Byte) (s : State) : Outcome State Fault Refusal :=
  if data.length ≠ 65536 then .next s
  else
    match s.takeAsk src (.writeBack (.module s.moduleNo frame) m.key m.seq data) with
    | none => .next s
    | some s1 =>
      let s2 := (s1.dropFrame frame).fillFrame frame data
      .next (if src = s.moduleNo then s2.takeAck src m.key m.seq else s2.sendVnp (.ack src m.key m.seq))

/-! ### Timeouts -/

/-- A chain's step judged (R475): sent again under a new sequence number, or declined after its third retry. -/
def State.chainDue (s : State) (key : PageKey) : State :=
  match s.chain key with
  | none => s
  | some c =>
    let now := s.ptc.toNat
    let due (st : ChainState) (msg : Nat → VnpMsg) : State :=
      match stepDue now c.sent c.retries with
      | .wait => s
      | .failed => s.declineChain key 4
      | .again =>
        let (q, s1) := s.nextSeq
        ((s1.setChain key fun c => { c with st := st, seq := q, sent := now, retries := c.retries + 1 }).sendVnp (msg q)).bump .vnp 3
    match c.st with
    | .directory w => due (.directory w) fun q => .dirq (s.homeOf key) key w q
    | .fetch src lease owned got => if got.length < 16 then due (.fetch src lease owned []) fun q => .pageRead src key q else s
    | .arrived | .install .. | .wake => s

/-- A renewal judged (R475): one that has failed ends with its lease (R480), and under the alarm of R522 it is not sent again. -/
def State.renewalDue (s : State) (key : PageKey) : State :=
  match (s.vnp.frameOf key).bind fun f => f.renewing with
  | none => s
  | some (_, sent, n) =>
    match stepDue s.ptc.toNat sent n with
    | .wait | .failed => s
    | .again =>
      if s.clockBad then s else
      let (q, s1) := s.nextSeq
      ((s1.modFrame key fun x => { x with renewing := some (q, s.ptc.toNat, n + 1) }).sendVnp (.renew (s.homeOf key) key q)).bump .vnp 3

/-- A write-back judged (R475). DESIGN CHOICE (log entry 42): one that has failed is sent no more, and its frame and ownership stay. -/
def State.writeOutDue (s : State) (w : WriteOut) : State :=
  match stepDue s.ptc.toNat w.sent w.retries with
  | .wait | .failed => s
  | .again =>
    let (q, s1) := s.nextSeq
    let again : WriteOut := { w with seq := q, sent := s.ptc.toNat, retries := w.retries + 1 }
    ((s1.modVnp fun v => { v with writeOuts := v.writeOuts.map fun x => if x = w then again else x }).sendVnp (.writeBack w.dest w.key q w.data)).bump .vnp 3

/-- What this home waits for judged (R475, R481): a failed revoke waits for its sharer's lease to end; a request whose owner does not
answer ends without a reply, and times out in its turn. -/
def State.homeDue (s : State) (key : PageKey) (w : HomeWait) : State :=
  match stepDue s.ptc.toNat w.sent w.retries with
  | .wait => s
  | .failed => if w.ask = .revoke then s else (s.popReq key).serveHome
  | .again =>
    let (q, s1) := s.nextSeq
    let again : HomeWait := { w with seq := q, sent := s.ptc.toNat, retries := w.retries + 1 }
    ((s1.modReq key fun r => { r with waits := r.waits.map fun x => if x = w then again else x }).sendVnp (.ask w.module key w.ask q)).bump .vnp 3

/-- STEP_TIMEOUT (R475): the network steps of a page that are due. -/
def execStepTimeout (key : PageKey) (s : State) : Outcome State Fault Refusal :=
  let s1 := (s.chainDue key).renewalDue key
  let s2 := (s1.vnp.writeOuts.filter fun w => w.key = key).foldl State.writeOutDue s1
  let waits := ((s2.headReq key).map fun r => r.waits).getD []
  .next (waits.foldl (fun st w => st.homeDue key w) s2)

/-- A chain declined, a frame that it had taken going back to the pool. -/
def State.giveUp (s : State) (c : Chain) (reason : Nat) : State :=
  match c.st with
  | .install (some f) _ _ _ => (s.modVnp fun v => { v with pool := v.pool ++ [f] }).declineChain c.key reason
  | _ => s.declineChain c.key reason

/-- FAULT_HARD_TIMEOUT (R475, R476): never once the leaf is written, nor for a chain that waits for a frame, whose reason is R483's. -/
def execFaultHardTimeout (key : PageKey) (s : State) : Outcome State Fault Refusal :=
  match s.chain key with
  | none => .next s
  | some c => if c.st = .wake ∨ c.frameWait.isSome ∨ s.ptc.toNat < c.since + 20000000 then .next s else .next (s.giveUp c 4)

/-- NO_FRAME_DECLINE (R483): a chain that waits for a frame 20 ms after its first record. -/
def execNoFrameDecline (key : PageKey) (s : State) : Outcome State Fault Refusal :=
  match s.chain key with
  | none => .next s
  | some c =>
    if c.frameWait.isSome ∧ c.since + 20000000 ≤ s.ptc.toNat then .next (s.declineChain key 7) else .next s

/-! ### Declined faults -/

/-- Whether a record is declined. -/
def ParkRec.isDeclined (r : ParkRec) : Bool :=
  match r.st with
  | .declined _ => true
  | .waiting | .installed | .answered | .saved _ _ => false

/-- Whether a record awaits the host's response: declined, or declined and saved since (R479, R486). -/
def ParkRec.awaits (r : ParkRec) : Bool :=
  match r.st with
  | .declined _ | .saved (some _) false => true
  | .waiting | .installed | .answered | .saved _ _ => false

/-- DECLINED_QUEUE_FORWARD (R485): the oldest declined record that waits, where it is the die's. -/
def execDeclinedQueueForward (die : Nat) (s : State) : Outcome State Fault Refusal :=
  let waits (r : ParkRec) : Bool := r.isDeclined && r.asked.isNone
  match s.vnp.rfq.find? waits with
  | some r => if r.die = die then .next (s.modVnp forwardDeclined) else .next s
  | none => .next s

/-- The host's answer to a declined fault (R486): the entry goes, and what is done with its records, which a save may have parted, unless
they have been withdrawn (R479). -/
def dfresp (seq : Word) (die rfqi : Nat) (f : ParkRec → State → State) (s : State) : State :=
  match s.vnp.declined.find? fun d => d.die = die ∧ d.rfqi = rfqi with
  | none => s.complete seq 0
  | some d =>
    let s1 := (s.modVnp fun v => { v with declined := v.declined.erase d }).complete seq 0
    (s1.vnp.rfq.filter fun r => decide (r.asked = some d.id) && r.awaits).foldl (fun st r => f r st) s1

/-- A record's state once the host has answered it (R477, R486). -/
def ParkState.answer : ParkState → ParkState
  | .saved was _ => .saved was true
  | .waiting | .installed | .declined _ | .answered => .answered

/-- A declined record resolved by response (R477, R486). -/
def State.respond (s : State) (r : ParkRec) : State :=
  wakeGroups (s.modRecs (fun x => decide (x.order = r.order)) fun x => { x with st := x.st.answer })

/-- A thread of a save image changed. -/
def SavedTeam.modThread (t : Tid) (f : Thread → Thread) : SavedTeam → SavedTeam
  | .image k m ths cos bars layout left =>
    .image k m (ths.map fun x => if x.tid = t then { x with rest := f x.rest } else x) cos bars layout left
  | .restart k pc slots => .restart k pc slots
  | .done k => .done k

/-- A thread changed, on its core or in a save area. -/
def State.modAnywhere (s : State) (t : Tid) (f : Thread → Thread) : State :=
  let each (x : Fin 8 × SavedTeam) : Fin 8 × SavedTeam := (x.1, x.2.modThread t f)
  let stage (g : StageRun) : StageRun :=
    if g.lid = t.coh.team.lid then
      { g with saved := g.saved.map fun c => { c with teams := c.teams.map each }, placed := g.placed.map fun c => { c with gone := c.gone.map each } }
    else g
  let s1 := s.modThread t f
  { s1 with launches := s1.launches.map fun l => { l with stages := l.stages.map stage } }

/-- DFRESP_RETRY (R486). -/
def execDfrespRetry (seq : Word) (die rfqi : Nat) (s : State) : Outcome State Fault Refusal :=
  hostCommand (dfresp seq die rfqi fun r st => st.respond r) s

/-- DFRESP_TRAP (R486): at their replay, the threads whose access touches the page trap. -/
def execDfrespTrap (seq : Word) (die rfqi : Nat) (s : State) : Outcome State Fault Refusal :=
  hostCommand (dfresp seq die rfqi fun r st =>
    (r.touch.foldl (fun st t => st.modAnywhere t fun th => { th with replayTrap := th.replayTrap ++ [(r.key.asid, r.key.vpn)] }) st).respond r) s

/-- DFRESP_ABORT (R486, R240). -/
def execDfrespAbort (seq : Word) (die rfqi : Nat) (s : State) : Outcome State Fault Refusal :=
  hostCommand (dfresp seq die rfqi fun r st => st.abnormalEnd r.lid) s

/-! ### Tables -/

/-- TABLE_HMAP (R471, R552): the 4,096 module numbers at an address. -/
def execTableHmap (seq : Word) (pa : Nat) (s : State) : Outcome State Fault Refusal :=
  hostCommand (fun s =>
    if dramLimit < pa + 4096 then s.complete seq 1
    else
      let (bs, s1) := readSectors s pa 4096
      (s1.modVnp fun v => { v with hmap := bs.map BitVec.toNat }).complete seq 0) s

/-- Whether MADDR holds one IPv6 address for each pair of a module and a plane (R513). -/
def maddrOk (l : List (Nat × Nat × Nat)) : Bool :=
  l.all fun e => decide (e.1 < 256 ∧ e.2.1 < 16 ∧ e.2.2 < 2 ^ 128) && decide ((l.filter fun f => f.1 = e.1 ∧ f.2.1 = e.2.1).length = 1)

/-- TABLE_MADDR (R513, R552). -/
def execTableMaddr (seq : Word) (maddr : List (Nat × Nat × Nat)) (s : State) : Outcome State Fault Refusal :=
  hostCommand (fun s =>
    if maddrOk maddr then State.complete { s with module := { s.module with maddr := maddr } } seq 0 else s.complete seq 1) s

/-- TABLE_FRAME_POOL (R483, R552): the frames of the pool, those in use apart, and the low watermark. -/
def execTableFramePool (seq : Word) (frames : List Nat) (low : Nat) (s : State) : Outcome State Fault Refusal :=
  hostCommand (fun s =>
    let used := s.vnp.frames.map fun f => f.frame
    let moving := s.vnp.chains.filterMap fun c => match c.st with | .install f _ _ _ => f | _ => none
    let leaving := s.vnp.writeOuts.filterMap fun w => w.frame
    let free := frames.filter fun f => !used.contains f && !moving.contains f && !leaving.contains f
    (s.modVnp fun v => { v with pool := free, low := low }).complete seq 0) s

end Sys2Proof.Machine
end

