-- ==== Sys2Proof/Machine/Dispatch.lean ====
section
/-!
DEFINITION. The dispatch: one arm for every constructor of Instr, each a direct call of its meaning.
-/

namespace Sys2Proof.Machine

/-- The meaning of every instruction and step. -/
def exec (i : Instr) (s : State) : Host.Outcome State Fault Refusal :=
  match i with
  | .add gd d a b co => Sys2Proof.Machine.execAdd gd d a b co s
  | .sub gd d a b co => Sys2Proof.Machine.execSub gd d a b co s
  | .addc gd d a b c co => Sys2Proof.Machine.execAddc gd d a b c co s
  | .subb gd d a b c co => Sys2Proof.Machine.execSubb gd d a b c co s
  | .mul gd d a b => Sys2Proof.Machine.execMul gd d a b s
  | .mulhS gd d a b => Sys2Proof.Machine.execMulhS gd d a b s
  | .mulhN gd d a b => Sys2Proof.Machine.execMulhN gd d a b s
  | .mad gd d a b c => Sys2Proof.Machine.execMad gd d a b c s
  | .madw gd d a b c sg => Sys2Proof.Machine.execMadw gd d a b c sg s
  | .divS gd d a b => Sys2Proof.Machine.execDivS gd d a b s
  | .divN gd d a b => Sys2Proof.Machine.execDivN gd d a b s
  | .remS gd d a b => Sys2Proof.Machine.execRemS gd d a b s
  | .remN gd d a b => Sys2Proof.Machine.execRemN gd d a b s
  | .minS gd d a b => Sys2Proof.Machine.execMinS gd d a b s
  | .minN gd d a b => Sys2Proof.Machine.execMinN gd d a b s
  | .maxS gd d a b => Sys2Proof.Machine.execMaxS gd d a b s
  | .maxN gd d a b => Sys2Proof.Machine.execMaxN gd d a b s
  | .abs gd d a => Sys2Proof.Machine.execAbs gd d a s
  | .neg gd d a => Sys2Proof.Machine.execNeg gd d a s
  | .logt gd d a b c lut => Sys2Proof.Machine.execLogt gd d a b c lut s
  | .shl gd d a b => Sys2Proof.Machine.execShl gd d a b s
  | .shrN gd d a b => Sys2Proof.Machine.execShrN gd d a b s
  | .shrS gd d a b => Sys2Proof.Machine.execShrS gd d a b s
  | .rot gd d a b => Sys2Proof.Machine.execRot gd d a b s
  | .fshl gd d a b c => Sys2Proof.Machine.execFshl gd d a b c s
  | .bfx gd d a b sx => Sys2Proof.Machine.execBfx gd d a b sx s
  | .bfi gd d a b c => Sys2Proof.Machine.execBfi gd d a b c s
  | .popc gd d a => Sys2Proof.Machine.execPopc gd d a s
  | .clz gd d a => Sys2Proof.Machine.execClz gd d a s
  | .brev gd d a => Sys2Proof.Machine.execBrev gd d a s
  | .psel gd d a b k inv => Sys2Proof.Machine.execPsel gd d a b k inv s
  | .mov gd d a => Sys2Proof.Machine.execMov gd d a s
  | .movi gd d imm => Sys2Proof.Machine.execMovi gd d imm s
  | .lea gd d a off => Sys2Proof.Machine.execLea gd d a off s
  | .icmpS gd pp a b rel mode => Sys2Proof.Machine.execIcmpS gd pp a b rel mode s
  | .icmpN gd pp a b rel mode => Sys2Proof.Machine.execIcmpN gd pp a b rel mode s
  | .icmpW gd pp a b sg rel mode => Sys2Proof.Machine.execIcmpW gd pp a b sg rel mode s
  | .fcmp gd pp a b rel mode => Sys2Proof.Machine.execFcmp gd pp a b rel mode s
  | .fcmpH2 gd pp a b rel mode => Sys2Proof.Machine.execFcmpH2 gd pp a b rel mode s
  | .fcmpBf2 gd pp a b rel mode => Sys2Proof.Machine.execFcmpBf2 gd pp a b rel mode s
  | .fclass gd pp a fmt cmask mode => Sys2Proof.Machine.execFclass gd pp a fmt cmask mode s
  | .btest gd pp a b allBits mode => Sys2Proof.Machine.execBtest gd pp a b allBits mode s
  | .rchk gd pp a b c sg mode => Sys2Proof.Machine.execRchk gd pp a b c sg mode s
  | .pmix gd pd lut x y z => Sys2Proof.Machine.execPmix gd pd lut x y z s
  | .ppack gd d => Sys2Proof.Machine.execPpack gd d s
  | .psprd gd a mask => Sys2Proof.Machine.execPsprd gd a mask s
  | .fadd gd d a b rm sat na nb => Sys2Proof.Machine.execFadd gd d a b rm sat na nb s
  | .fsub gd d a b rm sat na nb => Sys2Proof.Machine.execFsub gd d a b rm sat na nb s
  | .fmul gd d a b rm sat na nb => Sys2Proof.Machine.execFmul gd d a b rm sat na nb s
  | .ffma gd d a b c rm sat na nb nc => Sys2Proof.Machine.execFfma gd d a b c rm sat na nb nc s
  | .fmin gd d a b na nb => Sys2Proof.Machine.execFmin gd d a b na nb s
  | .fmax gd d a b na nb => Sys2Proof.Machine.execFmax gd d a b na nb s
  | .pkadh gd d a b rm sat na nb => Sys2Proof.Machine.execPkadh gd d a b rm sat na nb s
  | .pkmlh gd d a b rm sat na nb => Sys2Proof.Machine.execPkmlh gd d a b rm sat na nb s
  | .pkfmh gd d a b c rm sat na nb nc => Sys2Proof.Machine.execPkfmh gd d a b c rm sat na nb nc s
  | .pkadb gd d a b rm sat na nb => Sys2Proof.Machine.execPkadb gd d a b rm sat na nb s
  | .pkmlb gd d a b rm sat na nb => Sys2Proof.Machine.execPkmlb gd d a b rm sat na nb s
  | .pkfmb gd d a b c rm sat na nb nc => Sys2Proof.Machine.execPkfmb gd d a b c rm sat na nb nc s
  | .frcp gd d a rm sat na => Sys2Proof.Machine.execFrcp gd d a rm sat na s
  | .frsq gd d a na => Sys2Proof.Machine.execFrsq gd d a na s
  | .fsqrt gd d a rm na => Sys2Proof.Machine.execFsqrt gd d a rm na s
  | .fexp2 gd d a na => Sys2Proof.Machine.execFexp2 gd d a na s
  | .flog2 gd d a na => Sys2Proof.Machine.execFlog2 gd d a na s
  | .fsin gd d a na => Sys2Proof.Machine.execFsin gd d a na s
  | .fcos gd d a na => Sys2Proof.Machine.execFcos gd d a na s
  | .ftanh gd d a na => Sys2Proof.Machine.execFtanh gd d a na s
  | .fdiv gd d a b rm sat na nb => Sys2Proof.Machine.execFdiv gd d a b rm sat na nb s
  | .frnd gd d a rm na => Sys2Proof.Machine.execFrnd gd d a rm na s
  | .fscale gd d a b rm sat na => Sys2Proof.Machine.execFscale gd d a b rm sat na s
  | .fdot8 gd d a b c rm sat na nb nc fb fa => Sys2Proof.Machine.execFdot8 gd d a b c rm sat na nb nc fb fa s
  | .cvt gd d a c tgt frm rm sat ks kd => Sys2Proof.Machine.execCvt gd d a c tgt frm rm sat ks kd s
  | .cvtsr gd d a b c tgt frm sat ks kd => Sys2Proof.Machine.execCvtsr gd d a b c tgt frm sat ks kd s
  | .cvti gd d a c tgt frm sat ks kd => Sys2Proof.Machine.execCvti gd d a c tgt frm sat ks kd s
  | .pack2 gd d a b tgt frm rm sat => Sys2Proof.Machine.execPack2 gd d a b tgt frm rm sat s
  | .unpk2 gd d a tgt frm => Sys2Proof.Machine.execUnpk2 gd d a tgt frm s
  | .lcdec gd d a b tgt rm ks => Sys2Proof.Machine.execLcdec gd d a b tgt rm ks s
  | .qnt gd d a b c tgt rm kd => Sys2Proof.Machine.execQnt gd d a b c tgt rm kd s
  | .dqnt gd d a b frm rm ks => Sys2Proof.Machine.execDqnt gd d a b frm rm ks s
  | .e8ext gd d a c tgt kd => Sys2Proof.Machine.execE8ext gd d a c tgt kd s
  | .cvtf gd d a b c deq ks kd slot => Sys2Proof.Machine.execCvtf gd d a b c deq ks kd slot s
  | .bra gd tgt => Sys2Proof.Machine.execBra gd tgt s
  | .brany gd k tgt => Sys2Proof.Machine.execBrany gd k tgt s
  | .brall gd k tgt => Sys2Proof.Machine.execBrall gd k tgt s
  | .brnone gd k tgt => Sys2Proof.Machine.execBrnone gd k tgt s
  | .brx gd a => Sys2Proof.Machine.execBrx gd a s
  | .call gd tgt => Sys2Proof.Machine.execCall gd tgt s
  | .callx gd a => Sys2Proof.Machine.execCallx gd a s
  | .ret gd a => Sys2Proof.Machine.execRet gd a s
  | .split gd tgt => Sys2Proof.Machine.execSplit gd tgt s
  | .join gd => Sys2Proof.Machine.execJoin gd s
  | .breakOut gd n tgt => Sys2Proof.Machine.execBreakOut gd n tgt s
  | .loopc gd d tgt => Sys2Proof.Machine.execLoopc gd d tgt s
  | .nop gd => Sys2Proof.Machine.execNop gd s
  | .yieldRun gd => Sys2Proof.Machine.execYieldRun gd s
  | .ld gd d a off sz => Sys2Proof.Machine.execLd gd d a off sz s
  | .st gd a b off sz => Sys2Proof.Machine.execSt gd a b off sz s
  | .lds gd d a off sz => Sys2Proof.Machine.execLds gd d a off sz s
  | .sts gd a b off sz => Sys2Proof.Machine.execSts gd a b off sz s
  | .ldsfe gd d a off keep trap => Sys2Proof.Machine.execLdsfe gd d a off keep trap s
  | .stsfe gd a b off fem => Sys2Proof.Machine.execStsfe gd a b off fem s
  | .ldw gd d a off win rank sz => Sys2Proof.Machine.execLdw gd d a off win rank sz s
  | .stw gd a b off win rank fem sz => Sys2Proof.Machine.execStw gd a b off win rank fem sz s
  | .wopen gd a win writer => Sys2Proof.Machine.execWopen gd a win writer s
  | .wclose gd win => Sys2Proof.Machine.execWclose gd win s
  | .subs gd d a off fmt => Sys2Proof.Machine.execSubs gd d a off fmt s
  | .unsub gd d a off => Sys2Proof.Machine.execUnsub gd d a off s
  | .upgr gd d a off fmt => Sys2Proof.Machine.execUpgr gd d a off fmt s
  | .ldsub gd d a off fmt => Sys2Proof.Machine.execLdsub gd d a off fmt s
  | .acq gd d gate => Sys2Proof.Machine.execAcq gd d gate s
  | .rel gd gate => Sys2Proof.Machine.execRel gd gate s
  | .fence gd scope bk acq rel => Sys2Proof.Machine.execFence gd scope bk acq rel s
  | .clnr gd a b off => Sys2Proof.Machine.execClnr gd a b off s
  | .invr gd a b off => Sys2Proof.Machine.execInvr gd a b off s
  | .dscr gd a b off => Sys2Proof.Machine.execDscr gd a b off s
  | .ldrc gd d a off sz => Sys2Proof.Machine.execLdrc gd d a off sz s
  | .strc gd a b off cnt sz => Sys2Proof.Machine.execStrc gd a b off cnt sz s
  | .prft gd a off lvl => Sys2Proof.Machine.execPrft gd a off lvl s
  | .rfwin gd d a => Sys2Proof.Machine.execRfwin gd d a s
  | .ldwt gd d a off sz => Sys2Proof.Machine.execLdwt gd d a off sz s
  | .stna gd a b off sz => Sys2Proof.Machine.execStna gd a b off sz s
  | .aadd gd d a b off sz => Sys2Proof.Machine.execAadd gd d a b off sz s
  | .amin gd d a b off sg sz => Sys2Proof.Machine.execAmin gd d a b off sg sz s
  | .amax gd d a b off sg sz => Sys2Proof.Machine.execAmax gd d a b off sg sz s
  | .alog gd d a b off op sz => Sys2Proof.Machine.execAlog gd d a b off op sz s
  | .axch gd d a b off sz => Sys2Proof.Machine.execAxch gd d a b off sz s
  | .acas gd d a b off sz => Sys2Proof.Machine.execAcas gd d a b off sz s
  | .afadd gd d a b off ft => Sys2Proof.Machine.execAfadd gd d a b off ft s
  | .ainc gd d a b off => Sys2Proof.Machine.execAinc gd d a b off s
  | .adec gd d a b off => Sys2Proof.Machine.execAdec gd d a b off s
  | .redi gd a b off op sg sz => Sys2Proof.Machine.execRedi gd a b off op sg sz s
  | .redf gd a b off ft => Sys2Proof.Machine.execRedf gd a b off ft s
  | .redlog gd a b off op sz => Sys2Proof.Machine.execRedlog gd a b off op sz s
  | .elect gd pp slp => Sys2Proof.Machine.execElect gd pp slp s
  | .electq gd pp slp => Sys2Proof.Machine.execElectq gd pp slp s
  | .poll gd d inv k kind => Sys2Proof.Machine.execPoll gd d inv k kind s
  | .matchLanes gd d a w => Sys2Proof.Machine.execMatchLanes gd d a w s
  | .bara gd bar => Sys2Proof.Machine.execBara gd bar s
  | .barw gd bar wo => Sys2Proof.Machine.execBarw gd bar wo s
  | .barwt gd pp a bar wo => Sys2Proof.Machine.execBarwt gd pp a bar wo s
  | .barx gd a bar arr => Sys2Proof.Machine.execBarx gd a bar arr s
  | .spawn gd d a b => Sys2Proof.Machine.execSpawn gd d a b s
  | .exit gd => Sys2Proof.Machine.execExit gd s
  | .enq gd d a => Sys2Proof.Machine.execEnq gd d a s
  | .deq gd d a => Sys2Proof.Machine.execDeq gd d a s
  | .rgn gd a n => Sys2Proof.Machine.execRgn gd a n s
  | .waitt gd a => Sys2Proof.Machine.execWaitt gd a s
  | .cpy gd a b e bar => Sys2Proof.Machine.execCpy gd a b e bar s
  | .cpy2d gd a b e bar => Sys2Proof.Machine.execCpy2d gd a b e bar s
  | .tseal gd d a ppr kind => Sys2Proof.Machine.execTseal gd d a ppr kind s
  | .tunsl gd a => Sys2Proof.Machine.execTunsl gd a s
  | .tcvp gd a b e fs sci => Sys2Proof.Machine.execTcvp gd a b e fs sci s
  | .tmma gd a b e fs acc q => Sys2Proof.Machine.execTmma gd a b e fs acc q s
  | .accz gd e acc => Sys2Proof.Machine.execAccz gd e acc s
  | .accld gd a e fs acc => Sys2Proof.Machine.execAccld gd a e fs acc s
  | .accst gd a e fs acc => Sys2Proof.Machine.execAccst gd a e fs acc s
  | .accadd gd a e acc => Sys2Proof.Machine.execAccadd gd a e acc s
  | .accred gd a e fs acc col => Sys2Proof.Machine.execAccred gd a e fs acc col s
  | .tselk gd a b e km1 => Sys2Proof.Machine.execTselk gd a b e km1 s
  | .bankrun gd a b e => Sys2Proof.Machine.execBankrun gd a b e s
  | .bankst gd a b e => Sys2Proof.Machine.execBankst gd a b e s
  | .walk gd a b e => Sys2Proof.Machine.execWalk gd a b e s
  | .coll gd a e => Sys2Proof.Machine.execColl gd a e s
  | .cksum gd a b e => Sys2Proof.Machine.execCksum gd a b e s
  | .gset gd slot => Sys2Proof.Machine.execGset gd slot s
  | .gres gd inv k slot => Sys2Proof.Machine.execGres gd inv k slot s
  | .waitcnt gd a n cls => Sys2Proof.Machine.execWaitcnt gd a n cls s
  | .ecanc gd last cls => Sys2Proof.Machine.execEcanc gd last cls s
  | .tstat gd d sel => Sys2Proof.Machine.execTstat gd d sel s
  | .trap gd imm => Sys2Proof.Machine.execTrap gd imm s
  | .rte gd => Sys2Proof.Machine.execRte gd s
  | .rdsys gd d reg => Sys2Proof.Machine.execRdsys gd d reg s
  | .wrsys gd a reg => Sys2Proof.Machine.execWrsys gd a reg s
  | .wsave gd => Sys2Proof.Machine.execWsave gd s
  | .wrstr gd => Sys2Proof.Machine.execWrstr gd s
  | .bkpt gd imm => Sys2Proof.Machine.execBkpt gd imm s
  | .rdtime gd d => Sys2Proof.Machine.execRdtime gd d s
  | .cerq7Read gd d => Sys2Proof.Machine.execCerq7Read gd d s
  | .unassignedOpcode w => Sys2Proof.Machine.execUnassignedOpcode w s
  | .cksumChunk id => Sys2Proof.Machine.execCksumChunk id s
  | .chunkSend id => Sys2Proof.Machine.execChunkSend id s
  | .chunkReceive id step chunk data sum => Sys2Proof.Machine.execChunkReceive id step chunk data sum s
  | .chunkReRequest id step chunk => Sys2Proof.Machine.execChunkReRequest id step chunk s
  | .chunkAcknowledge id step chunk => Sys2Proof.Machine.execChunkAcknowledge id step chunk s
  | .shapeReceive id shape => Sys2Proof.Machine.execShapeReceive id shape s
  | .launchAcceptance => Sys2Proof.Machine.execLaunchAcceptance s
  | .eligibilityTest queue => Sys2Proof.Machine.execEligibilityTest queue s
  | .placementPass => Sys2Proof.Machine.execPlacementPass s
  | .contextSaveStart t => Sys2Proof.Machine.execContextSaveStart t s
  | .contextSaveComplete t => Sys2Proof.Machine.execContextSaveComplete t s
  | .launchEnd lid => Sys2Proof.Machine.execLaunchEnd lid s
  | .snapshotCopy lid page => Sys2Proof.Machine.execSnapshotCopy lid page s
  | .wloadComplete die => Sys2Proof.Machine.execWloadComplete die s
  | .fetchParityRefetch p line => Sys2Proof.Machine.execFetchParityRefetch p line s
  | .replayAdmission p => Sys2Proof.Machine.execReplayAdmission p s
  | .registerWriteComplete id => Sys2Proof.Machine.execRegisterWriteComplete id s
  | .barwtDeadline t => Sys2Proof.Machine.execBarwtDeadline t s
  | .waittExpiry t => Sys2Proof.Machine.execWaittExpiry t s
  | .cohortRelease c => Sys2Proof.Machine.execCohortRelease c s
  | .windowAccessArrival id => Sys2Proof.Machine.execWindowAccessArrival id s
  | .windowAnswer id => Sys2Proof.Machine.execWindowAnswer id s
  | .subscriptionUpdate id => Sys2Proof.Machine.execSubscriptionUpdate id s
  | .subscriptionInvalidation id => Sys2Proof.Machine.execSubscriptionInvalidation id s
  | .gateReleaseApply lid gate => Sys2Proof.Machine.execGateReleaseApply lid gate s
  | .homeAccessPerform id => Sys2Proof.Machine.execHomeAccessPerform id s
  | .maintenanceComplete id => Sys2Proof.Machine.execMaintenanceComplete id s
  | .writeBackAccept id => Sys2Proof.Machine.execWriteBackAccept id s
  | .weightRefreshEnd die bank => Sys2Proof.Machine.execWeightRefreshEnd die bank s
  | .missTableWaitEnd core => Sys2Proof.Machine.execMissTableWaitEnd core s
  | .translationShootdown id => Sys2Proof.Machine.execTranslationShootdown id s
  | .rfqWaitEnd die => Sys2Proof.Machine.execRfqWaitEnd die s
  | .vnpChainTake key => Sys2Proof.Machine.execVnpChainTake key s
  | .install key => Sys2Proof.Machine.execInstall key s
  | .wake key => Sys2Proof.Machine.execWake key s
  | .ownershipStep key => Sys2Proof.Machine.execOwnershipStep key s
  | .engineCommandStart core cls => Sys2Proof.Machine.execEngineCommandStart core cls s
  | .notBeforeMet id => Sys2Proof.Machine.execNotBeforeMet id s
  | .commandForward core cls => Sys2Proof.Machine.execCommandForward core cls s
  | .commandReport c cls => Sys2Proof.Machine.execCommandReport c cls s
  | .cancelStop id => Sys2Proof.Machine.execCancelStop id s
  | .cpyStep id => Sys2Proof.Machine.execCpyStep id s
  | .tcvpStep id => Sys2Proof.Machine.execTcvpStep id s
  | .tmmaStep id => Sys2Proof.Machine.execTmmaStep id s
  | .accCommandRun id => Sys2Proof.Machine.execAccCommandRun id s
  | .tselkRun id => Sys2Proof.Machine.execTselkRun id s
  | .bankRowStep b => Sys2Proof.Machine.execBankRowStep b s
  | .bankEngineResume b => Sys2Proof.Machine.execBankEngineResume b s
  | .bankstSample id b => Sys2Proof.Machine.execBankstSample id b s
  | .walkStep id => Sys2Proof.Machine.execWalkStep id s
  | .walkOutput id => Sys2Proof.Machine.execWalkOutput id s
  | .residueRetry p t unit passes => Sys2Proof.Machine.execResidueRetry p t unit passes s
  | .l2Eviction line => Sys2Proof.Machine.execL2Eviction line s
  | .memsideCapacityEviction line => Sys2Proof.Machine.execMemsideCapacityEviction line s
  | .weightRefreshStart die bank => Sys2Proof.Machine.execWeightRefreshStart die bank s
  | .pageWalk core queue va kind => Sys2Proof.Machine.execPageWalk core queue va kind s
  | .dirq src key write seq => Sys2Proof.Machine.execDirq src key write seq s
  | .directoryReply key seq r => Sys2Proof.Machine.execDirectoryReply key seq r s
  | .pageDataMessage key seq idx data => Sys2Proof.Machine.execPageDataMessage key seq idx data s
  | .stepTimeout key => Sys2Proof.Machine.execStepTimeout key s
  | .faultHardTimeout key => Sys2Proof.Machine.execFaultHardTimeout key s
  | .declinedQueueForward die => Sys2Proof.Machine.execDeclinedQueueForward die s
  | .leaseRenewal key => Sys2Proof.Machine.execLeaseRenewal key s
  | .leaseLapse key => Sys2Proof.Machine.execLeaseLapse key s
  | .renewalRequest m src => Sys2Proof.Machine.execRenewalRequest m src s
  | .homeLeaseEnd key module => Sys2Proof.Machine.execHomeLeaseEnd key module s
  | .downgrade m lease => Sys2Proof.Machine.execDowngrade m lease s
  | .revoke m => Sys2Proof.Machine.execRevoke m s
  | .recallPage m => Sys2Proof.Machine.execRecall m s
  | .release m src => Sys2Proof.Machine.execRelease m src s
  | .writeBack m src frame data => Sys2Proof.Machine.execWriteBack m src frame data s
  | .clockEviction => Sys2Proof.Machine.execClockEviction s
  | .noFrameDecline key => Sys2Proof.Machine.execNoFrameDecline key s
  | .collectiveNoProgress id => Sys2Proof.Machine.execCollectiveNoProgress id s
  | .scanTest => Sys2Proof.Machine.execScanTest s
  | .scanTestComplete failing => Sys2Proof.Machine.execScanTestComplete failing s
  | .patrolPassStart => Sys2Proof.Machine.execPatrolPassStart s
  | .lehrSectorScrub sector => Sys2Proof.Machine.execLehrSectorScrub sector s
  | .passComplete => Sys2Proof.Machine.execPassComplete s
  | .rebuildLineMove stack group => Sys2Proof.Machine.execRebuildLineMove stack group s
  | .rebuildComplete stack group => Sys2Proof.Machine.execRebuildComplete stack group s
  | .linkLaneMappedOut l => Sys2Proof.Machine.execLinkLaneMappedOut l s
  | .linkFailure l => Sys2Proof.Machine.execLinkFailure l s
  | .flitRetry l => Sys2Proof.Machine.execFlitRetry l s
  | .umrilMessageReceive m => Sys2Proof.Machine.execUmrilMessageReceive m s
  | .planeHealthChange plane up => Sys2Proof.Machine.execPlaneHealthChange plane up s
  | .uetRetransmission plane => Sys2Proof.Machine.execUetRetransmission plane s
  | .ptpMessage m => Sys2Proof.Machine.execPtpMessage m s
  | .offsetAlarm => Sys2Proof.Machine.execOffsetAlarm s
  | .submit seq pa => Sys2Proof.Machine.execSubmit seq pa s
  | .cancel seq lid => Sys2Proof.Machine.execCancel seq lid s
  | .bindQueue seq queue asid root => Sys2Proof.Machine.execBindQueue seq queue asid root s
  | .shoot seq asid vpn pages => Sys2Proof.Machine.execShoot seq asid vpn pages s
  | .wload seq die off pa len => Sys2Proof.Machine.execWload seq die off pa len s
  | .grant seq queue stack first count => Sys2Proof.Machine.execGrant seq queue stack first count s
  | .retire seq stack channel => Sys2Proof.Machine.execRetire seq stack channel s
  | .pwrset seq scope target => Sys2Proof.Machine.execPwrset seq scope target s
  | .powerGate scope => Sys2Proof.Machine.execPowerGate scope s
  | .powerReturnComplete d => Sys2Proof.Machine.execPowerReturnComplete d s
  | .dfrespRetry seq die rfqi => Sys2Proof.Machine.execDfrespRetry seq die rfqi s
  | .dfrespTrap seq die rfqi => Sys2Proof.Machine.execDfrespTrap seq die rfqi s
  | .dfrespAbort seq die rfqi => Sys2Proof.Machine.execDfrespAbort seq die rfqi s
  | .tableHmap seq hmap => Sys2Proof.Machine.execTableHmap seq hmap s
  | .tableMaddr seq maddr => Sys2Proof.Machine.execTableMaddr seq maddr s
  | .tableFramePool seq frames low => Sys2Proof.Machine.execTableFramePool seq frames low s
  | .paramAge seq ms => Sys2Proof.Machine.execParamAge seq ms s
  | .paramLease seq ms => Sys2Proof.Machine.execParamLease seq ms s
  | .paramPass seq hours => Sys2Proof.Machine.execParamPass seq hours s
  | .paramTestInterval seq minutes => Sys2Proof.Machine.execParamTestInterval seq minutes s
  | .paramAlertThreshold seq die celsius => Sys2Proof.Machine.execParamAlertThreshold seq die celsius s
  | .mode seq queue collTest debug => Sys2Proof.Machine.execMode seq queue collTest debug s
  | .fwdstep seq ptc => Sys2Proof.Machine.execFwdstep seq ptc s
  | .ectl seq place n ctl => Sys2Proof.Machine.execEctl seq place n ctl s
  | .counterClear place n => Sys2Proof.Machine.execCounterClear place n s
  | .invalidHostCommand seq code => Sys2Proof.Machine.execInvalidHostCommand seq code s
  | .thermalAlert die sensor celsius => Sys2Proof.Machine.execThermalAlert die sensor celsius s
  | .thermalTrip die sensor celsius => Sys2Proof.Machine.execThermalTrip die sensor celsius s
  | .powerUp f => Sys2Proof.Machine.execPowerUp f s
  | .pageReadRequest src key frame seq => Sys2Proof.Machine.execPageReadRequest src key frame seq s
  | .renewalReply m homeTick => Sys2Proof.Machine.execRenewalReply m homeTick s
  | .sensorFallBelowThreshold die sensor celsius => Sys2Proof.Machine.execSensorFallBelowThreshold die sensor celsius s

end Sys2Proof.Machine
end

