-- ==== Sys2Proof/Machine/Issue.lean ====
section
/-!
DEFINITION. The issue of a slot or a pair (R40 to R44, R57, R68, R186 to R196): how a partition chooses its group (R190, R191, R193), the
checks of the slots it issues, and what becomes of the threads of the run afterwards (R187, R189).
-/

namespace Sys2Proof.Machine

open Host (Outcome)

/-- An outcome carried on. -/
def andThen (o : Outcome State Fault Refusal) (f : State → Outcome State Fault Refusal) : Outcome State Fault Refusal :=
  match o with
  | .next s => f s
  | .fault r => .fault r
  | .refused r => .refused r

/-! ### Runs and groups -/

/-- Whether every thread of a group is Ready for its slot (R187). -/
def State.groupReady (s : State) (pc : Pc) (ts : List Tid) : Bool :=
  match ts with
  | [] => false
  | t :: _ => ts.all (s.readyFor (s.ahead t pc))

/-- The entry of a thread's wait inside its slot, or of its second slot to come (R189). -/
def State.lateOf (s : State) (t : Tid) : Option Late := s.late.find? fun l => decide (l.tid = t)

/-- The threads of a run that its next slot issues for: those that stand at it and wait inside no slot. -/
def State.hereOf (s : State) (r : Run) : List Tid :=
  r.tids.filter fun t => decide ((s.thread t).pc = r.pc) && (s.lateOf t).isNone

/-- Whether a thread that stands apart from its run's next slot lets that slot issue (R187, R189): it has been through the slot, or
waits inside it, inside the first of its pair, or ahead of it inside the second. -/
def State.apart (s : State) (r : Run) (t : Tid) : Bool :=
  match s.lateOf t with
  | some l =>
    decide (l.issue.pc = r.pc) || (l.issue.second && decide (l.issue.pc = nextPc r.pc)) || l.second.any fun x => decide (x.pc = r.pc)
  | none => true

/-- Whether a run may issue its next slot (R187, R189). -/
def State.runReady (s : State) (r : Run) : Bool :=
  let here := s.hereOf r
  s.groupReady r.pc here && r.tids.all fun t => here.contains t || s.apart r t

/-- The opcodes marked † in the opcode map (R120). -/
def daggerOp (op : Nat) : Bool :=
  [0x71, 0x72, 0x73, 0x78, 0x7A, 0xBC].contains op || decide (0xB0 ≤ op ∧ op ≤ 0xB7) || decide (0xC0 ≤ op ∧ op ≤ 0xD5)

/-- Whether a word's dst field is the place of a result and names an s-register (R22, R121). -/
def dstShared (w : IWord) : Bool :=
  let r := unpack w
  (shapeOf r.op (fld r.low 0 25)).any fun sh =>
    match sh.dst with
    | .result _ | .late => decide (48 ≤ r.dst ∧ r.dst < 80)
    | .none | .predPair | .pred => false

/-- Whether a word is cohort-scoped (R121). DESIGN CHOICE (log entry 26): one whose encoding is illegal is so by its opcode's mark and by
its dst field. -/
def wordScoped (w : IWord) : Bool :=
  match viewAt w with
  | some v => v.scoped
  | none => daggerOp (unpack w).op || dstShared w

/-- Whether a run from a PC holds a cohort-scoped slot (R193): its hold and pair codes are followed for n slots. DESIGN CHOICE (log
entry 26): a slot whose line cannot be looked at counts as cohort-scoped. -/
def State.runScoped (s : State) (n : Nat) (t : Tid) (pc : Pc) : Bool :=
  match n with
  | 0 => false
  | k + 1 =>
    match s.peekLine t pc with
    | none => true
    | some bs =>
      let here := wordScoped (slotWord bs (slotOf pc))
      let tpl := lineTpl bs (slotOf pc)
      here || (decide (tpl = 1 ∨ tpl = 2) && s.runScoped k t (nextPc pc))

/-! ### Choosing a group -/

/-- Whether a thread may begin or go on with a run: its team is not being saved, or it continues a run that the save waits for (R450,
R452, R62). -/
def State.mayBegin (s : State) (t : Tid) : Bool :=
  ((s.team t.coh.team).map fun m => !m.preempt.saves s.ptc.toNat || (s.thread t).kept.isSome).getD false

/-- The run a thread continues (R62), by the slots it has counted. -/
def Thread.keptSlots (th : Thread) : Option Nat := th.kept.map fun k => k.rsl

/-- The group that an entry gives (R186, R193): its Ready threads, those that continue a run together, and of the lowest cohort where
the run has a cohort-scoped slot. Threads of a replayed group issue with that group (R191). -/
def State.entryGroup (s : State) (q : Part) (e : GEntry) : List Tid :=
  match e.tids.filter fun t => !(q.replays.any fun r => r.tids.contains t) with
  | [] => []
  | t0 :: rest =>
    let ready := sortTids ((t0 :: rest).filter fun t => s.mayBegin t && s.readyFor (s.ahead t0 e.pc) t)
    match ready with
    | [] => []
    | t :: _ =>
      let same := ready.filter fun u => (s.thread u).keptSlots = (s.thread t).keptSlots
      let mixed := same.any fun u => u.coh ≠ t.coh
      sortLanes (if mixed && s.runScoped 16 t e.pc then same.filter fun u => u.coh = t.coh else same)

/-- A thread as it joins a run: with the latches of the run it continues, or none valid (R59, R62). -/
def Thread.join (th : Thread) : Thread :=
  { th with status := .inRun, kept := none, latches := (th.kept.map fun k => k.latches).getD noLatches }

/-- A run begun or continued by threads of one PC. -/
def State.beginRun (s : State) (pc : Pc) (ts : List Tid) : Run × State :=
  let rsl := ((ts.head?.bind fun t => (s.thread t).keptSlots)).getD 0
  ({ tids := ts, pc := pc, rsl := rsl, start := s.cycle },
   { s with threads := s.threads.map fun p => if p.1 ∈ ts then (p.1, p.2.join) else p })

/-- The least of a list by a measure, the first of equals. -/
def leastBy {α : Type} (f : α → List Nat) (l : List α) : Option α :=
  l.foldl (fun acc x => match acc with
    | none => some x
    | some y => if lexLe (f y) (f x) then acc else some x) none

/-- A group that a partition may issue: of a run, replayed, or of an entry. -/
inductive Pick where
  | run (r : Run)
  | replay (r : Replay)
  | entry (pc : Pc) (ts : List Tid)
  deriving DecidableEq, Repr

/-- The threads that a choice issues for. -/
def State.pickTids (s : State) : Pick → List Tid
  | .run r => s.hereOf r
  | .replay r => r.tids
  | .entry _ ts => ts

/-- The group of a partition that continues its run (R190 rule 1): the Ready one whose run began earliest. -/
def State.pickRun (s : State) (q : Part) : Option Run := leastBy (fun r => [r.start]) (q.runs.filter s.runReady)

/-- The replayed group at the head of those admitted (R190 rule 2, R191), where it is Ready. -/
def State.pickReplay (s : State) (q : Part) : Option Replay :=
  match leastBy (fun r => [r.admitted.getD 0]) (q.replays.filter fun r => r.admitted.isSome) with
  | some r => if r.tids.all s.mayBegin && s.groupReady r.pc r.tids then some r else none
  | none => none

/-- The entries that have a Ready thread, each with its group. -/
def State.entryGroups (s : State) (q : Part) : List (GEntry × List Tid) :=
  (q.entries.map fun e => (e, s.entryGroup q e)).filter fun x => !x.2.isEmpty

/-- The oldest entry that has a Ready thread (R190 rules 3 and 4), with its group. -/
def State.pickEntry (s : State) (q : Part) : Option Pick := (leastBy (fun x => x.1.key) (s.entryGroups q)).map fun x => .entry x.1.pc x.2

/-- The group whose execution issues again after a residue mismatch, ahead of every rule of R190 (R444). -/
def State.pickRetry (s : State) (q : Part) : Option Pick :=
  let all := ((q.runs.filter s.runReady).map Pick.run) ++ ((s.pickReplay q).toList.map Pick.replay) ++
    (s.entryGroups q).map fun x => .entry x.1.pc x.2
  q.retry.bind fun t => all.find? fun x => (s.pickTids x).contains t

/-- The group that a partition issues next (R190); none where nothing is Ready. -/
def State.pick (s : State) (q : Part) : Option Pick :=
  (s.pickRetry q).or (((s.pickRun q).map Pick.run).or (((s.pickReplay q).map Pick.replay).or (s.pickEntry q)))

/-- The run that a partition issues, taken out of its tables. -/
def State.select (s : State) (p : PartId) : Option (Run × State) :=
  let q := { s.partition p with retry := none }
  (s.pick (s.partition p)).map fun x =>
    match x with
    | .run r => (r, s.setPart p { q with runs := q.runs.filter fun x => x ≠ r })
    | .replay r => (s.setPart p (q.without fun t => r.tids.contains t)).beginRun r.pc r.tids
    | .entry pc ts => (s.setPart p (q.without fun t => ts.contains t)).beginRun pc ts

/-! ### The checks of a slot -/

/-- Whether a word names a resource that its launch does not declare; an index that breaks the alignment of its group of four keeps
its other fields (R349, R418). -/
def resourceWord (s : State) (is : Issue) : Bool :=
  let w := if lateRegister is.word then is.word &&& ~~~(0xFFF#96 <<< 37) else is.word
  match instrOf w, is.tids.head? with
  | some i, some t => resourceBad s t i
  | _, _ => false

/-- The cause of a slot by the tables after R177's, in the order in which they were added (R188, R209, R330, R349, R230, R418, R432). -/
def laterCause (s : State) (is : Issue) : Option Cause :=
  if 16 ≤ is.rsl then some .runLength
  else if resourceWord s is then some .resource
  else if decide (is.tpl = 2) && exitWord is.word then some .pair
  else if lateRegister is.word then some .register
  else none

/-- The cause that a slot of an issue group fails with (R57, R68, R432), in the order of the causes, and whether its table is one
after R177's; none where its instruction acts. A slot that issues as a pair's second is past the pair's own check. -/
def slotCause (s : State) (is : Issue) (bs : List Byte) : Option (Bool × Cause) :=
  match decode is.word with
  | .ok (.unassignedOpcode _) => none
  | r =>
    if is.tpl = 3 then some (false, .template)
    else if decide (is.tpl = 2) && pairClash bs (slotOf is.pc) then some (false, .pair)
    else
      match r with
      | .error c => if lateRegister is.word then (laterCause s is).map fun c => (true, c) else some (false, c)
      | .ok _ => (laterCause s is).map fun c => (true, c)

/-- The cause that an instruction itself finds in a thread before those of later tables (R432): the depth limits of R68, the registers
and the window of R156 in the order of its rows, and what R177 adds of a format slot, whatever the guards. -/
def earlyCause (s : State) (i : Instr) (t : Tid) : Option Cause :=
  let th := s.thread t
  if s.executes t i = false then (match i with | .cvtf _ _ _ _ _ deq ks kd slot => cvtfCause s slot (if deq then ks else kd) | _ => none)
  else
    match i with
    | .call _ _ | .callx _ _ => if th.wdep = 65535 then some .depthLimit else none
    | .ret _ _ => if th.wdep = 0 then some .returnAtBase else none
    | .rdsys _ _ r => if SysReg.inHandler r && !th.hnd then some .context else none
    | .wrsys _ _ r => if SysReg.readOnly r then some .sysreg else if SysReg.inHandler r && !th.hnd then some .context else none
    | .rte _ => if th.hnd then none else some .context
    | .wsave _ => if th.wres = 0 then some .window else none
    | .wrstr _ => if th.wres = th.frames - 2 ∨ th.wdep = th.wres then some .window else none
    | .cvtf _ _ _ _ _ deq ks kd slot => cvtfCause s slot (if deq then ks else kd)
    | _ => none

/-- The cause that a failing slot raises in a thread. -/
def threadCause (s : State) (is : Issue) (c : Bool × Cause) (t : Tid) : Cause :=
  if c.1 then (((instrOf is.word).bind fun i => earlyCause s i t).getD c.2) else c.2

/-- The threads of a slot whose retry fails there trapped (R444), and the slot's issue left to the others; none is left to fail again. -/
def failRetries (is : Issue) (s : State) : Issue × State :=
  let fails (t : Tid) : Option Nat := ((s.thread t).failing.filter fun x => x.1 = is.pc).map fun x => x.2
  let hit := is.tids.filter fun t => (fails t).isSome
  if hit.isEmpty then (is, s)
  else
    let clear (p : Tid × Thread) : Tid × Thread := if p.1 ∈ hit then (p.1, { p.2 with failing := none }) else p
    let s1 := { s with threads := s.threads.map clear }
    ({ is with tids := is.tids.filter fun t => t ∉ hit },
     trapEach (fun t => pipelineError ((fails t).getD 0)) { s1 with issue := some { is with tids := hit } })

/-- A slot carried out for its group (R44, R57): the trap of its encoding in every thread, or its instruction. -/
def runSlot (s : State) (is : Issue) (bs : List Byte) : Outcome State Fault Refusal :=
  let s1 := ({ s with issue := some is } : State).bump (.core is.part.core) 2
  match slotCause s is bs with
  | some c => .next (trapEach (fun t => illegal (threadCause s1 is c t)) s1)
  | none =>
    match decode is.word with
    | .ok i =>
      let (is1, s2) := failRetries is s1
      if is1.tids.isEmpty then .next s2 else exec i { s2 with issue := some is1 }
    | .error c => .next (trapGroup (illegal c) s1)

/-! ### After a slot -/

/-- A thread that has passed a slot in its run. -/
def passed (is : Issue) (th : Thread) : Bool := decide (th.status = .inRun ∧ th.pc = nextPc is.pc ∧ th.wait = none)

/-- A thread that stays at a slot. -/
def stays (is : Issue) (th : Thread) : Bool := decide (th.status = .inRun ∧ th.pc = is.pc)

/-- A thread that waits inside a slot for an answer of its own (R189). -/
def inSlot (is : Issue) (th : Thread) : Bool :=
  stays is th && (match th.wait with | some (.word _) | some (.window _) | some (.frame _) => true | _ => false)

/-- What the first slot of a pair leaves a thread to do after the second (R189): its block, its wait for a time, the join it
sleeps for, or an arrival; none for a thread that it trapped, parked, ended or sent elsewhere. -/
def owedBy (is : Issue) (s : State) (t : Tid) (was th : Thread) : Option Owed :=
  if th.hnd ≠ was.hnd then none
  else
    match th.status, th.wait with
    | .blocked (.bar k p dl), _ => some (.bar k p dl)
    | .blocked (.held k p), _ => some (.held k p)
    | .blocked .conv, _ => (s.cohort t.coh).conv.head?.map fun e => .conv e.join
    | .waiting, some (.time T) => some (.time T)
    | .arriving, _ => if th.pc = is.pc then none else if th.pc = nextPc is.pc then some .arrive else some (.past th.pc)
    | _, _ => none

/-- A thread that goes on to the second slot of its pair: with the run's latches, and what the first slot left it to do. -/
def toSecond (is : Issue) (was : Thread) (o : Owed) (th : Thread) : Thread :=
  { th with status := .inRun, wait := none, pc := nextPc is.pc, entry := .free, latches := was.latches, kept := none,
            owed := some (nextPc is.pc, o) }

/-- The threads that the first slot of a pair blocked or released, brought to its second (R189). -/
def afterFirst (is : Issue) (before : State) (s : State) : State :=
  { s with threads := s.threads.map fun p =>
      if p.1 ∈ is.tids then
        (let was := before.thread p.1
         match owedBy is s p.1 was p.2 with
         | some o => (p.1, toSecond is was o p.2)
         | none => p)
      else p }

/-- A thread whose run ends after its slot (R41). -/
def Thread.endRun (th : Thread) : Thread := { th with status := .arriving, latches := noLatches, kept := none }

/-- Threads whose run has ended after a slot, by the slot's template code or by what they owe (R41, R189). -/
def endRuns (is : Issue) (ts : List Tid) (s : State) : State :=
  { s with threads := s.threads.map fun p =>
      if p.1 ∈ ts ∧ passed is p.2 = true ∧ (is.tpl = 0 ∨ p.2.owed.isSome) then (p.1, p.2.endRun) else p }

/-- A run put back into its partition, with its threads that are still in it. -/
def State.keepRun (s : State) (p : PartId) (r : Run) : State :=
  let ts := r.tids.filter fun t => decide ((s.thread t).status = .inRun)
  if ts.isEmpty then s
  else
    let q := s.partition p
    s.setPart p { q with runs := q.runs ++ [{ r with tids := ts }] }

/-- Threads that wait inside their slot noted, with the pair's second slot that follows it (R189). -/
def State.noteLate (s : State) (is : Issue) (second : Option Issue) (ts : List Tid) : State :=
  let ls := (ts.filter fun t => inSlot is (s.thread t)).map fun t =>
    ({ tid := t, issue := is, second := second } : Late)
  { s with late := s.late ++ ls }

/-- Threads that have been through a slot, or the first of a pair, apart from their run, whose next slot is still to come for them
(R189, R419). -/
def State.noteAhead (s : State) (is : Issue) (second : Issue) (ts : List Tid) : State :=
  { s with late := s.late ++ ts.map fun t => { tid := t, issue := is, second := some second } }

/-- A translation trap that the host ordered is over once its thread has been replayed (R486). -/
def endReplayTraps (pc : Pc) (ts : List Tid) (s : State) : State :=
  { s with threads := s.threads.map fun p =>
      if p.1 ∈ ts ∧ p.2.replayTrap ≠ [] ∧ ¬ (p.2.pc = pc ∧ p.2.status ≠ .arriving) then (p.1, { p.2 with replayTrap := [] }) else p }

/-- After the last slot of an issue: threads that passed go on in the run or end it, the others wait at their slots. -/
def afterLast (p : PartId) (r : Run) (is : Issue) (ts : List Tid) (s : State) : State :=
  let s1 := endRuns is ts (s.noteLate is none ts)
  if ts.any fun t => stays is (s1.thread t) && !inSlot is (s1.thread t) then
    s1.keepRun p { r with pc := is.pc, rsl := is.rsl }
  else s1.keepRun p { r with pc := nextPc is.pc, rsl := is.rsl + 1 }

/-- The second slot of a pair as it issues for some threads. -/
def secondOf (bs : List Byte) (is : Issue) (ts : List Tid) : Issue :=
  { issueAt is.part (nextPc is.pc) bs ts (is.rsl + 1) with second := true }

/-- The second slot of a pair for threads that are through the first while the rest of the run waits at it (R189, R419): each goes on
ahead of the run, or waits at its second slot. -/
def secondAhead (p : PartId) (r : Run) (is is2 : Issue) (bs : List Byte) (ts : List Tid) (s : State) : Outcome State Fault Refusal :=
  if ts.all (s.readyFor (instrOf is2.word).toList) then
    andThen (runSlot s is2 bs) fun s1 =>
      let s2 := endRuns is2 ts (s1.noteLate is2 none ts)
      .next ((s2.noteAhead is is2 (ts.filter fun t => stays is2 (s2.thread t) && !inSlot is2 (s2.thread t))).keepRun p r)
  else .next ((s.noteAhead is is2 ts).keepRun p r)

/-- The slots of an issue carried out for the threads of a run that stand at it (R40, R44, R189): one, or a pair in slot order. DESIGN
CHOICE (log entry 38): a second slot that must itself wait lets the first take effect, and acts when its own wait ends. -/
def issueSlots (s : State) (p : PartId) (r : Run) (here : List Tid) (bs : List Byte) : Outcome State Fault Refusal :=
  let is := issueAt p r.pc bs here r.rsl
  andThen (runSlot s is bs) fun s1 =>
    let s1 := endReplayTraps r.pc here s1
    if is.tpl ≠ 2 then .next (afterLast p r is here s1)
    else
      let s2 := afterFirst is s s1
      let ts := here.filter fun t => passed is (s2.thread t)
      let is2 := secondOf bs is ts
      let s3 := s2.noteLate is (some is2) here
      if here.any fun t => stays is (s3.thread t) && !inSlot is (s3.thread t) then
        (if ts.isEmpty then .next (s3.keepRun p r) else secondAhead p r is is2 bs ts s3)
      else if ts.isEmpty then .next (s3.keepRun p { r with pc := nextPc is2.pc, rsl := is2.rsl + 1 })
      else if ts.all (s3.readyFor (instrOf is2.word).toList) then
        andThen (runSlot s3 is2 bs) fun s4 => .next (afterLast p r is2 ts s4)
      else .next (s3.keepRun p { r with pc := is2.pc, rsl := is2.rsl })

/-! ### Entering the slot -/

/-- A fetch that is refused or faults, as an issue: no word came (R434; log entry 21). -/
def fetchIssue (s : State) (p : PartId) (r : Run) (here : List Tid) : Issue :=
  { part := p, pc := r.pc, word := Config.fetchWord s.free, tids := here, second := false, rsl := r.rsl, tpl := 0, dpm := 0#8 }

/-- The traps of threads that enter a slot (R37, R38); the rest of the group stays at it. -/
def enterTraps (is : Issue) (bs : List Byte) (s : State) : State :=
  runGroup alwaysGuard (fun _ th =>
    match entryTrap bs is.pc th.entry with
    | some tr => .error tr
    | none => .ok (th, .stay none)) skipPlain { s with issue := some is }

/-- Threads that have entered their slot: it is not checked again (R37). -/
def entered (ts : List Tid) (s : State) : State :=
  { s with threads := s.threads.map fun p => if p.1 ∈ ts then (p.1, { p.2 with entry := .free }) else p }

/-- A run's issue: its line fetched, its threads' entry checked, its slots carried out, all for those of its threads that stand at
the slot. -/
def issueRun (s : State) (p : PartId) (r : Run) : Outcome State Fault Refusal :=
  let here := s.hereOf r
  match here with
  | [] => .next (s.keepRun p r)
  | t :: _ =>
    let check := here.any fun u => (s.thread u).entry.checked
    match fetchLine check s t r.pc with
    | (.mismatch, s1) =>
      let wait (st : State) (u : Tid) : State := st.modThread u fun th => { th with wait := some (.refetch (lineOf r.pc)) }
      .next ((here.foldl wait s1).keepRun p r)
    | (.busy, s1) => .next (s1.keepRun p r)
    | (.trap tr, s1) =>
      .next ((trapGroup tr { s1 with issue := some (fetchIssue s1 p r here), free := s1.free + 1 }).keepRun p r)
    | (.fault va n, s1) =>
      let f : PageFault := { key := { asid := (s1.spaceOf t).1, vpn := va / 65536 }, va := va, reason := n, touch := here }
      .next ((parkGroup .fetch [f] { s1 with issue := some (fetchIssue s1 p r here) }).keepRun p r)
    | (.line bs, s1) =>
      if here.any fun u => (entryTrap bs r.pc (s1.thread u).entry).isSome then
        .next ((enterTraps (issueAt p r.pc bs here r.rsl) bs s1).keepRun p r)
      else issueSlots (entered here s1) p r here bs

/-- A partition's issue in one cycle (R190): nothing where no group is Ready. -/
def issuePart (s : State) (p : PartId) : Outcome State Fault Refusal :=
  match s.select p with
  | some (r, s1) => issueRun (s1.bump (.core p.core) 1) p r
  | none => .next s

end Sys2Proof.Machine
end

