-- ==== Sys2Proof/Machine/Settle.lean ====
section
/-!
DEFINITION. What follows every step: waits that have ended (R346, R413, R415), slots that threads waited inside of (R189), phases
whose writes have performed (R311), times that are met (R11), what a pair left its threads to do (R189), the arrivals of the cycle (R185), and the traps
and pre-emptions of the cycle (R441, R450).
-/

namespace Sys2Proof.Machine

open Host (Outcome)

/-! ### Waits -/

/-- Whether a wait at an engine instruction has ended: room (R346), a count (R415), a guard slot (R413). -/
def State.waitOver (s : State) (t : Tid) (w : WaitWhy) : Bool :=
  match w with
  | .queue cls n => s.engineRoom t cls n
  | .count cls n => decide ((s.cohort t.coh).counters[classIdx cls] ≤ n)
  | .slot n =>
    decide (s.guardOf t.coh.team n = .unset) || !(s.eng.cmds.any fun c => decide (c.coh.team = t.coh.team ∧ c.guard = some n))
  | .word _ | .window _ | .frame _ | .time _ | .refetch _ | .missTable | .rfq _ | .debug => false

/-! ### Slots that threads wait inside of -/

/-- A late entry taken off. -/
def State.dropLate (s : State) (l : Late) : State := { s with late := s.late.filter fun x => decide (x ≠ l) }

/-- The second slot of a late thread's pair carried out for it (R189); where it must wait in its turn the thread stays at it. -/
def lateSecond (l : Late) (is : Issue) (s : State) : Outcome State Fault Refusal :=
  if s.readyFor (instrOf is.word).toList l.tid then
    andThen (runSlot s is []) fun s1 =>
      let th := s1.thread l.tid
      if inSlot is th then
        .next { s1.dropLate l with late := (s1.dropLate l).late ++ [({ tid := l.tid, issue := is, second := none } : Late)] }
      else if stays is th then .next s1
      else .next (endRuns is [l.tid] (s1.dropLate l))
  else .next s

/-- A thread whose wait inside its slot has ended goes past it, and through its pair's second slot (R189). -/
def settleLate (l : Late) (s : State) : Outcome State Fault Refusal :=
  let th := s.thread l.tid
  if l ∉ s.late then .next s
  else if th.status ≠ .inRun then .next (s.dropLate l)
  else if th.wait.isSome then .next s
  else
    let s1 := if th.pc = l.issue.pc then s.modThread l.tid (advance l.issue) else s
    match l.second with
    | none => .next (endRuns l.issue [l.tid] (s1.dropLate l))
    | some is2 => lateSecond l { is2 with tids := [l.tid] } s1

/-- Every late thread, in turn. -/
def settleLates (ls : List Late) (s : State) : Outcome State Fault Refusal :=
  match ls with
  | [] => .next s
  | l :: rest => andThen (settleLate l s) (settleLates rest)

/-- A run whose next slot is behind all of its threads goes on where they stand (R189): those it would have issued for have left it. -/
def State.caughtUp (s : State) (r : Run) : Run :=
  if r.tids.any fun t => decide ((s.thread t).pc = r.pc) || (s.lateOf t).isSome then r
  else
    match r.tids.head? with
    | some t => { r with pc := (s.thread t).pc, rsl := r.rsl + (if (s.thread t).pc = nextPc r.pc then 1 else 2) }
    | none => r

/-- Every run so. -/
def State.catchUp (s : State) : State :=
  { s with parts := s.parts.map fun x => (x.1, { x.2 with runs := x.2.runs.map s.caughtUp }) }

/-! ### What a pair left -/

/-- What a thread owes, once it has passed its pair (R189). -/
def payOwed (s : State) (t : Tid) (th : Thread) (o : Owed) : Thread × Option BarKey :=
  let th0 := { th with owed := none }
  match o with
  | .arrive => (th0, none)
  | .past pc => ({ th0 with pc := pc, entry := .line }, none)
  | .time T => (if T.toNat ≤ s.ptc.toNat then th0 else { th0 with status := .waiting, wait := some (.time T) }, none)
  | .bar k p dl =>
    if (s.bar k).phase ≤ p then ({ th0 with status := .blocked (.bar k p dl) }, none)
    else (releaseBar k p { th0 with status := .blocked (.bar k p dl) }, some k)
  | .held k p => (if (s.bar k).phase ≤ p then { th0 with status := .blocked (.held k p) } else th0, none)
  | .conv join =>
    if (s.cohort t.coh).conv.any fun e => inMask e.arrived t.lane then ({ th0 with status := .blocked .conv }, none)
    else ({ th0 with pc := nextPc join, entry := .line }, none)

/-- The threads that have arrived past a pair and owe something. -/
def State.owing (s : State) : List (Tid × Owed) :=
  s.threads.filterMap fun p =>
    match p.2.status, p.2.owed with
    | .arriving, some (pc, o) => if p.2.pc = pc then none else some (p.1, o)
    | _, _ => none

/-- One of them pays; released by its phase, it acquires (R311). -/
def payOne (s : State) (x : Tid × Owed) : State :=
  let (th, k) := payOwed s x.1 (s.thread x.1) x.2
  let s1 := s.modThread x.1 fun _ => th
  match k with
  | some b => s1.acquireL1 x.1 (s.barCovers b)
  | none => s1

/-! ### Arrivals -/

/-- The lowest index that no entry holds. -/
def Part.freeIdx (q : Part) : Nat := ((List.range 64).find? fun i => q.entries.all fun e => e.idx ≠ i).getD 0

/-- A thread at a PC, which arrived in a cycle, put into a partition's table (R184, R185): into the oldest entry of its team and PC
whose lane is clear, else a new one, else not. late is the new entry's place among those of its age. -/
def Part.enter (age late : Nat) (t : Tid) (pc : Pc) (q : Part) : Option Part :=
  let fits (e : GEntry) : Bool := decide (e.team = t.coh.team ∧ e.pc = pc) && e.tids.all fun u => u.lane ≠ t.lane
  match leastBy GEntry.key (q.entries.filter fits) with
  | some e => some { q with entries := q.entries.map fun x => if x = e then { x with tids := x.tids ++ [t] } else x }
  | none =>
    if q.entries.length < 64 then
      some { q with entries := q.entries ++ [{ idx := q.freeIdx, team := t.coh.team, pc := pc, tids := [t], age := age, late := late }] }
    else none

/-- One more than the place of any entry that came from the arrival queue. -/
def Part.nextLate (q : Part) : Nat := q.entries.foldl (fun n e => max n e.late) 0 + 1

/-- The head of the arrival queue enters while it can (R185): its entry has the age of its arrival, and is younger than those of that
age in the table. -/
def Part.drain (pcOf : Tid → Pc) (l : List (Tid × Nat)) (q : Part) : Part :=
  match l with
  | [] => { q with queue := [] }
  | x :: rest =>
    match q.enter x.2 q.nextLate x.1 (pcOf x.1) with
    | some q1 => q1.drain pcOf rest
    | none => { q with queue := x :: rest }

/-- A thread's arrival (R185): behind those that wait in the arrival queue. -/
def Part.arrival (now : Nat) (t : Tid) (pc : Pc) (q : Part) : Part :=
  match q.enter now 0 t pc with
  | some q1 => q1
  | none => { q with queue := q.queue ++ [(t, now)] }

/-- A partition rid of the threads that have left their runs and seats. -/
def Part.tidy (st : Tid → Status) (q : Part) : Part :=
  let seated (l : List Tid) : List Tid := l.filter fun t => decide (st t = .seated)
  let here (t : Tid) : Bool := decide (st t = .seated ∨ st t = .arriving)
  { q with
    entries := (q.entries.map fun e => { e with tids := seated e.tids }).filter fun e => !e.tids.isEmpty,
    queue := q.queue.filter fun x => decide (st x.1 = .seated),
    runs := (q.runs.map fun r => { r with tids := r.tids.filter fun t => decide (st t = .inRun) }).filter fun r => !r.tids.isEmpty,
    replays := (q.replays.map fun r => { r with tids := r.tids.filter here }).filter fun r => !r.tids.isEmpty }

/-- Every thread that arrives takes its seat (R185), those of the arrival queues first, which enter once an entry has become empty. -/
def State.seatAll (s : State) : State :=
  let st (t : Tid) : Status := (s.thread t).status
  let pcOf (t : Tid) : Pc := (s.thread t).pc
  let s1 := { s with parts := s.parts.map fun x => let q := x.2.tidy st; (x.1, if q.entries.length < 64 then q.drain pcOf q.queue else q) }
  let news := sortTids ((s.threads.filter fun p => decide (p.2.status = .arriving)).map fun p => p.1)
  let seat (a : State) (t : Tid) : State :=
    let p := (s.cohort t.coh).part
    a.setPart p ((a.partition p).arrival s.cycle t (pcOf t))
  let s2 := news.foldl seat s1
  { s2 with threads := s2.threads.map fun p =>
      if p.2.status = .arriving then (p.1, { p.2 with status := .seated, wait := none }) else p }

/-! ### Settling -/

/-- Barriers that wait for writes judged again (R311). -/
def State.settleWaits (s : State) : State :=
  ((s.barriers.filter fun p => !p.2.waits.isEmpty).map fun p => p.1).foldl (fun st k => st.settleBar k) s

/-- The collectives at a tick (R11, R540): the 20 ms of each run while it expects something, and end it. -/
def State.settleColls (s : State) : State :=
  let colls : Tbl Nat CollRun := s.eng.colls.map fun p => (p.1, s.clockColl p.1 p.2)
  (colls.map fun p => p.1).foldl State.noProgress { s with eng := { s.eng with colls := colls } }

/-- What waits for a time goes on at the tick that meets it (R11): threads (R221, R228), and commands (R358). -/
def State.settleTimes (s : State) : State :=
  let ths := s.threads.map fun p => (p.1, timeOut s.ptc (wakeTime s.ptc p.2))
  let cmds := s.eng.cmds.map (Command.ripen s.ptc)
  State.settleColls { s with threads := ths, eng := { s.eng with cmds := cmds } }

/-- What remains of a step once its late threads have gone on. -/
def settleRest (s : State) : State :=
  let s1 := s.runPasses.sendReleases.settleWaits
  let s2 := s1.owing.foldl payOne s1
  let s3 := s2.settlePreempt.settleTraps.settleTimes.seatAll
  State.settleTurns { s3.fuseHeads with issue := none }

/-- What follows every step. -/
def settle (s : State) : Outcome State Fault Refusal :=
  let s1 := ({ s with issue := none } : State).endWaits s.waitOver
  andThen (settleLates s1.late s1) fun s2 => .next (settleRest s2.catchUp)

end Sys2Proof.Machine
end

