-- ==== Sys2Proof/Machine/Pending.lean ====
section
/-!
DEFINITION. What a machine with an empty schedule does next (log entry 1): the work its own units have pending, listed so that the
first step of it that has an effect can be taken.
-/

namespace Sys2Proof.Machine

open Host (Outcome)

/-- Steps of the memory system that are pending. -/
def pendingMem (s : State) : List Instr :=
  let m := s.mem
  (m.arrivals.map fun a => Instr.registerWriteComplete a.pend) ++
  (m.windows.flatMap fun w => [Instr.windowAnswer w.id, .windowAccessArrival w.id]) ++
  (m.notices.map fun n => if n.update then Instr.subscriptionUpdate n.id else .subscriptionInvalidation n.id) ++
  (m.accesses.flatMap fun a =>
    [Instr.homeAccessPerform a.id, .snapshotCopy (s.gateLid a.tid.coh.team.lid) (a.pa / 65536)]) ++
  (m.releases.map fun r => Instr.gateReleaseApply r.lid r.num) ++
  (m.maints.flatMap fun x =>
    Instr.maintenanceComplete x.id :: x.ranges.map fun r => .snapshotCopy (s.gateLid x.tid.coh.team.lid) (r.2.1 / 65536)) ++
  (m.writeBacks.map fun w => Instr.writeBackAccept w.id) ++ (m.refreshing.map fun r => Instr.weightRefreshEnd r.1 r.2) ++
  (m.shootdowns.map fun d => Instr.translationShootdown d.id)

/-- Steps that waiting threads, groups and cohorts are pending for. -/
def pendingCore (s : State) : List Instr :=
  (s.threads.filterMap fun p =>
    match p.2.wait with
    | some (.refetch line) => some (Instr.fetchParityRefetch (s.cohort p.1.coh).part line)
    | some .missTable => some (.missTableWaitEnd (s.coreOf p.1))
    | some (.rfq die) => some (.rfqWaitEnd die)
    | some (.word _) | some (.time _) | some (.window _) | some (.frame _) | some .debug | some (.queue _ _) | some (.count _ _) | some (.slot _) | none => none) ++
  ((s.parts.filter fun p => p.2.replays.any fun r => r.admitted.isNone).map fun p => Instr.replayAdmission p.1) ++
  (s.cohorts.map fun p => Instr.cohortRelease p.1)

/-- The step of a running command of a core engine, the walkers or a collective engine. -/
def commandStep (c : Command) : List Instr :=
  match c.op with
  | .cpy _ _ _ | .cpy2d _ _ _ => [.cpyStep c.id]
  | .tcvp _ _ _ _ => [.tcvpStep c.id]
  | .tmma _ _ _ _ _ _ _ _ _ => [.tmmaStep c.id]
  | .accz _ | .accld _ _ | .accst _ _ _ | .accadd _ _ | .accred _ _ _ _ => [.accCommandRun c.id]
  | .tselk _ _ _ => [.tselkRun c.id]
  | .walk _ _ _ _ => [.walkStep c.id, .walkOutput c.id]
  | .coll _ => [.chunkSend c.id, .collectiveNoProgress c.id]
  | .cksum _ _ => [.cksumChunk c.id]
  | .bankrun _ _ _ _ | .bankst _ _ _ _ => []

/-- The receipt of a collective message by a command. -/
def takeMessage (id : Nat) (m : CollMsg) : Instr :=
  match m with
  | .shape _ ws => .shapeReceive id ws
  | .chunk _ st g bs sum => .chunkReceive id st g bs sum
  | .ack _ st g => .chunkAcknowledge id st g
  | .again _ st g => .chunkReRequest id st g

/-- Steps of the engines that are pending. -/
def pendingEngines (s : State) : List Instr :=
  let e := s.eng
  (e.cmds.flatMap fun c =>
    [Instr.commandReport c.coh c.cls, .cancelStop c.id, .notBeforeMet c.id, .engineCommandStart c.core c.cls,
      .commandForward c.core c.cls] ++ commandStep c) ++
  (e.banks.flatMap fun b => [Instr.bankEngineResume b.1, .bankRowStep b.1] ++ e.cmds.map fun c => Instr.bankstSample c.id b.1) ++
  (e.msgs.flatMap fun m => e.cmds.map fun c => takeMessage c.id m.msg)

/-- The receipt of a message of the VNP that this module has sent itself. -/
def ownMessage (me : Nat) (m : VnpMsg) : List Instr :=
  match m with
  | .dirq home key w q => if home = me then [.dirq me key w q] else []
  | .pageRead (.module x frame) key q => if x = me then [.pageReadRequest me key frame q] else []
  | .pageRead (.storage _) _ _ => []
  | .reply x key q r => if x = me then [.directoryReply key q r] else []
  | .pageData x key q i bs => if x = me then [.pageDataMessage key q i bs] else []
  | .ask x key .revoke q => if x = me then [.revoke ⟨key, q⟩] else []
  | .ask x key .recall q => if x = me then [.recallPage ⟨key, q⟩] else []
  | .ask x key (.downgrade lease) q => if x = me then [.downgrade ⟨key, q⟩ lease] else []
  | .ack _ _ _ => []
  | .renew home key q => if home = me then [.renewalRequest ⟨key, q⟩ me] else []
  | .renewed x key q tick => if x = me then [.renewalReply ⟨key, q⟩ tick] else []
  | .release home key q => if home = me then [.release ⟨key, q⟩ me] else []
  | .writeBack (.module x frame) key q bs => if x = me then [.writeBack ⟨key, q⟩ me frame bs] else []
  | .writeBack (.storage _) _ _ _ => []

/-- The step that ends a die's return from P4 or P5 (R554). -/
def powerSteps : PwrScope → List Instr
  | .die d => [.powerReturnComplete d]
  | .cluster _ _ => []

/-- Steps of the CP, the VNP and the power controller that are pending. -/
def pendingCp (s : State) : List Instr :=
  (if s.cp.spawns.isEmpty then [] else [.launchAcceptance]) ++
  (s.launches.flatMap fun l => [Instr.eligibilityTest l.desc.queue, .launchEnd ((l.stages.head?.map fun g => g.lid).getD 0)]) ++
  (if s.launches.isEmpty then [] else [.placementPass]) ++
  (s.teams.flatMap fun t => [Instr.contextSaveStart t.1, .contextSaveComplete t.1]) ++
  (s.cp.wloads.map fun w => Instr.wloadComplete w.die) ++
  (s.vnp.chains.flatMap fun c => [Instr.vnpChainTake c.key, .install c.key, .wake c.key, .stepTimeout c.key, .faultHardTimeout c.key]) ++
  (s.vnp.reqs.flatMap fun r => [Instr.ownershipStep r.key, .stepTimeout r.key]) ++
  (s.vnp.frames.flatMap fun f => [Instr.leaseRenewal f.key, .leaseLapse f.key, .stepTimeout f.key]) ++
  (s.vnp.writeOuts.map fun w => Instr.stepTimeout w.key) ++ (s.vnp.leases.map fun p => Instr.homeLeaseEnd p.1.1 p.1.2) ++
  (s.vnp.rfq.map fun r => Instr.declinedQueueForward r.die) ++ (if s.vnp.frames.isEmpty then [] else [.clockEviction]) ++
  s.vnp.sent.flatMap (ownMessage s.moduleNo) ++
  (s.module.power.flatMap fun p => powerSteps p.1) ++ [.offsetAlarm]

/-- Whether a step has an effect. -/
def hasEffect (s : State) (i : Instr) : Bool :=
  match exec i s with
  | .next s' => decide (s' ≠ s)
  | .fault _ | .refused _ => true

/-- The first pending step that has an effect. -/
def State.pendingStep (s : State) : Option Instr :=
  (pendingCore s ++ pendingMem s ++ pendingEngines s ++ pendingCp s).find? (hasEffect s)

/-- The partition that issues next of those with a Ready group, taken in turn. -/
def State.nextPart (s : State) : Option PartId :=
  let n := if s.parts.isEmpty then 0 else s.cycle / 2 % s.parts.length
  ((s.parts.drop n ++ s.parts.take n).find? fun p => (s.select p.1).isSome).map fun p => p.1

/-- What a machine does next of its own accord: pending work first, else in turn an issue and a tick of the PTC. -/
def State.ownTurn (s : State) : Turn :=
  match s.pendingStep with
  | some i => .event i
  | none =>
    if s.cycle % 2 = 0 then
      (match s.nextPart with
       | some p => .issue p
       | none => .pass 1)
    else .pass 1

end Sys2Proof.Machine
end

