-- ==== Sys2Proof/Machine/Turns.lean ====
section
/-!
DEFINITION. The turns of a schedule: a unit's or the host's step, a partition's issue, time, and what reaches the machine from
outside without a step of its own: the host's writes (R549, R461, R472), its debugger (R153), the pools it provides (R453, R499),
its reads of the report queue (R502), replacement in a core's caches (R39, R276), and errors (R445, R489, R491, R495, R501).
-/

namespace Sys2Proof.Machine

open Host (Outcome)

/-! ### The host -/

/-- Bytes written to physical memory through the homes, sector by sector, with the elements that they touch; fuel bounds their number. -/
def hostPut (fuel : Nat) (pa : Nat) (bs : List Byte) (s : State) : List Touched × State :=
  match fuel with
  | 0 => ([], s)
  | k + 1 =>
    match bs with
    | [] => ([], s)
    | _ :: _ =>
      let n := 32 - pa % 32
      let (es, s1) := homeTouch s pa (bs.take n) true
      let (more, s2) := hostPut k (pa + n) (bs.drop n) s1
      (es ++ more, s2)

/-- The host writes physical memory (R549); beyond DRAM there is none. -/
def State.hostWrites (s : State) (pa : Nat) (bs : List Byte) : State :=
  if pa + bs.length ≤ dramLimit then
    (let (id, s1) := s.fresh
     let (es, s2) := hostPut (bs.length + 1) pa bs s1
     s2.notify id none es true)
  else s

/-- The host's debugger lets a halted thread go on (R153). DESIGN CHOICE (log entry 65): the halt has ended the run, so the thread
arrives at the slot after its BKPT with no latch valid, and the debugger changes nothing of it. -/
def State.resumeThread (s : State) (t : Tid) : State :=
  s.modThread t fun th =>
    if th.status = .waiting ∧ th.wait = some .debug then { th with status := .arriving, wait := none, latches := noLatches } else th

/-! ### Errors -/

/-- Every command in a bank engine's queue ended there, with a fault (R410, R445). -/
def failBank (b : BankId) (ids : List Nat) (s : State) : State :=
  ids.foldl (fun st id =>
    match st.cmd id with
    | some c => st.bankFail b c
    | none => st) s

/-- An off-core engine out of service (R445, R501, R502): the commands that have been forwarded to it end with STAT = 3; a walk ends so
at its next read there. -/
def State.outOfService (s : State) (o : Outage) : State :=
  if s.rel.out.contains o then s
  else
    let s1 := { s with rel := { s.rel with out := s.rel.out ++ [o] } }
    match o with
    | .bank b => failBank b (s1.bank b).queue (s1.report 12 0 (locChannel b.stack (2 * b.eng)))
    | .walker k => s1.report 12 0 (locChannel k 0)
    | .collective die =>
      let hit := s1.eng.cmds.filter fun c => c.forwarded && decide (c.cls = .cle ∧ c.core.die = die ∧ (c.st = .running ∨ c.st = .queued))
      (hit.map fun c => c.id).foldl (fun st id => st.endCmd id 3) (s1.report 12 0 (die * 2 ^ 30))

/-- A lasting error in a sequencer step of a core engine (R445): the command ends with STAT = 3 and its core is fenced. -/
def State.coreEngineError (s : State) (id : Nat) : State :=
  match s.cmd id with
  | some c =>
    if c.st = .running ∧ coreClass c.cls = true then ((s.endCmd id 3).report 6 0 (locCore c.core)).fence c.core 0 else s
  | none => s

/-! ### Turns -/

/-- A machine's time goes on by some ticks of the PTC (R517), slewed while it is locked (R520). -/
def State.tick (s : State) (n : Nat) : State :=
  { s with ptc := s.ptc + BitVec.ofNat 64 n, cycle := s.cycle + n, module := { s.module with clock := s.module.clock.slewed n } }

/-- An acknowledgement of another module, or of the storage service, 255 (R481 to R484). -/
def State.otherAck (s : State) (src : Nat) (key : PageKey) (seq : Nat) : State :=
  if src = s.moduleNo then s
  else if src = 255 then s.takeAck src key seq
  else match s.takeVnp src (.ack s.moduleNo key seq) with
    | some s1 => s1.takeAck src key seq
    | none => s

/-- Host commands that a ring delivers (R552). -/
def isCommand : Instr → Bool
  | .submit .. | .cancel .. | .bindQueue .. | .shoot .. | .wload .. | .grant .. | .retire .. | .pwrset .. | .dfrespRetry .. | .dfrespTrap ..
  | .dfrespAbort .. | .tableHmap .. | .tableMaddr .. | .tableFramePool .. | .paramAge .. | .paramLease .. | .paramPass .. | .paramTestInterval ..
  | .paramAlertThreshold .. | .mode .. | .fwdstep .. | .ectl .. | .invalidHostCommand .. => true
  | _ => false

/-- An event: a host command waits in the ring behind those that have not completed (R552). -/
def runEvent (i : Instr) (s : State) : Outcome State Fault Refusal :=
  if isCommand i && (s.ringBusy || !s.cp.ring.isEmpty) then .next { s with cp := { s.cp with ring := s.cp.ring ++ [i] } } else exec i s

/-- The next command of the ring, once every earlier one has completed (R552), while the CP runs (R551, R556). -/
def State.nextCommand (s : State) : Option (Instr × State) :=
  match s.cp.ring with
  | [] => none
  | i :: rest => if s.ringBusy || !s.module.booted then none else some (i, { s with cp := { s.cp with ring := rest } })

/-- One turn. -/
def runTurn (t : Turn) (s : State) : Outcome State Fault Refusal :=
  match t with
  | .event i => runEvent i s
  | .issue p => issuePart { s with cycle := s.cycle + 1 } p
  | .pass n => .next (s.tick n)
  | .evictL1 core asid sector =>
    .next (s.keepL1 fun k _ => !(decide (k.core = core ∧ k.asid = asid ∧ k.sector = sector)))
  | .dropLine core line => .next (s.dropLine core line)
  | .resume t => .next (s.resumeThread t)
  | .snapRoom n => .next { s with rel := { s.rel with snapFree := s.rel.snapFree + n } }
  | .saveRoom n => .next { s with rel := { s.rel with saveFree := s.rel.saveFree + n } }
  | .hostWrite pa bs => .next (s.hostWrites pa bs)
  | .hostDirectory pa n => .next { s with vnp := { s.vnp with dirArea := if pa % 64 = 0 ∧ pa + 64 * n ≤ dramLimit then some (pa, n) else s.vnp.dirArea } }
  | .vnpAck src key seq => .next (s.otherAck src key seq)
  | .uetAck f => .next { s with module := s.module.landed s.moduleNo f }
  | .hostNumber n => .next (if n < 256 then { s with moduleNo := n } else s)
  | .ptpPort n => .next (if n ≤ 16 then { s with module := { s.module with clock := { s.module.clock with port := n } } } else s)
  | .readErrors n => .next { s with rel := { s.rel with reports := s.rel.reports.drop n } }
  | .decay sector h => .next { s with rel := { s.rel with sick := tput s.rel.sick sector h } }
  | .decayParity x h => .next { s with rel := { s.rel with sickParity := tput s.rel.sickParity x h } }
  | .training stack channel => .next (s.trainingFails stack channel)
  | .weightDecay die granule h => .next { s with rel := { s.rel with weightSick := tput s.rel.weightSick (die, granule) h } }
  | .outage o => .next (s.outOfService o)
  | .engineError id => .next (s.coreEngineError id)

/-- Power-up, which alone acts on a module that is not up (R550, R556). -/
def Turn.isPowerUp : Turn → Bool
  | .event (.powerUp _) => true
  | _ => false

/-- The machine's next turn, and the machine with it taken off the schedule. -/
def State.takeTurn (s : State) : Turn × State :=
  match s.sched with
  | [] => (s.ownTurn, s)
  | t :: rest => (t, { s with sched := rest })

/-- One turn, a command of the ring first, and what follows it. -/
def turn (s : State) : Outcome State Fault Refusal :=
  match s.nextCommand with
  | some (i, s1) => andThen (exec i s1) settle
  | none =>
    let (t, s1) := s.takeTurn
    if !s.module.booted && !t.isPowerUp then .next s1
    else andThen (runTurn t s1) settle

end Sys2Proof.Machine
end

