-- ==== Sys2Proof/Machine/Setup.lean ====
section
/-!
DEFINITION. A module that has booted and whose next step issues one instruction word (log entry 23): one launch of one team of one
cohort on core 0 of die 0, its first page mapped to frame 0, the word in slot 0 of a line at address 0 and NOPs after it.
-/

namespace Sys2Proof.Machine

/-- NOP (R145). -/
def nopWord : IWord := 0x7CFF00000000000000000000#96

/-- A fetch line of five words with a line word, its parity set (R34 to R36). -/
def lineWith (ws : List IWord) (lw : Nat) : List Byte :=
  let bare := (ws.flatMap fun w => leBytes 12 w.toNat) ++ leBytes 4 (lw / 16 * 16)
  bare.take 60 ++ leBytes 4 (lw / 16 * 16 + lineParity bare)

/-- A line that holds one word in slot 0, with slot 0 a branch target and every template code end. -/
def lineOfWord (w : IWord) : List Byte := lineWith [w, nopWord, nopWord, nopWord, nopWord] (2 ^ 19)

/-- A launch record of one team of one cohort with every resource that a team may have. -/
def setupRec : LaunchRec :=
  { entry := 0#57, cpt := 1, tpc := 1, ncl := 1, regs := 64, acc := 128, gsl := 16, scr := 1048576, obar := 4, tbar := 16, cbar := 8,
    hndl := 64, gates := 4095, queue := 0, prio := 0, repl := false, ten := 0#5, ofl := false, ifl := false, sigp := 0, waits := [],
    args := Vector.replicate 16 0#32,
    fmts := Vector.replicate 8 { valid := false, elem := .n8, scale := none, block := 16, rm := .rne, planes := 0 }, stages := [] }

/-- The place of its team. -/
def setupPlace : Place := { core := { die := 0, core := 0 }, base := 0, scrBase := 0, slices := [0] }

/-- The launch. -/
def setupLaunch : Launch :=
  { desc := setupRec, asid := 0, root := some 0, regions := [], tvt := [], state := .eligible, left := true, grant := [], told := [],
    since := 0, record := [],
    stages := [{ lid := 1, entry := 0#57, nextK4 := 1, ended := 0,
                 placed := [{ k4 := 0, places := [setupPlace], floor := false, order := 0, die := 0, hw := 0, victim := false, gone := [] }],
                 saved := [], floors := [], items := [] }],
    admitted := true, gateDies := [0], trapCount := 0, replayable := false, replayed := false, snapshot := [] }

/-- The leaf of the first page: V, R, W, WP, X, A and D set, frame 0 (R459). -/
def setupLeaf : TlbEntry := { asid := 0, vpn := 0, pages := 1, pte := 127 }

/-- The machine with the launch resident and a line at address 0. -/
def State.withLine (s : State) (bs : List Byte) : State :=
  let core : CoreId := setupPlace.core
  let s1 : State :=
    { s with threads := [], cohorts := [], teams := [], parts := [], launches := [setupLaunch], late := [], issue := none,
             sched := [.issue { core := core, part := 0 }], module := { s.module with booted := true, boot := 4#32 }, rel := s.rel.firstKeys,
             cp := { s.cp with ring := [] },
             mem := { s.mem with dram := cellPutAll 0#8 0 bs s.mem.dram, l2 := [], lines := [((core, 0), bs)], accesses := [], maints := [],
                                 notices := [], passes := [], coreTlb := tput s.mem.coreTlb core [setupLeaf] } }
  (s1.startTeam setupRec 1 0 0 0 setupPlace 0#57 .transfer noSlots).seatAll

end Sys2Proof.Machine
end

