-- ==== Sys2Proof/Machine/Step.lean ====
section
/-!
DEFINITION. The step of the machine: its next turn and what follows it; and the placing of one instruction word where the next step
fetches it.
-/

namespace Sys2Proof.Machine

/-- One step: the next turn of the schedule, or of the machine's own accord, and what follows it (log entry 1). -/
def step (s : State) : Host.Outcome State Fault Refusal := turn s

/-- The machine with an instruction's bits where the next step fetches them, and that step a partition's issue (log entry 23). -/
def State.withFetchWord (s : State) (nbits w : Nat) : State := s.withLine (lineOfWord (BitVec.ofNat 96 (w % 2 ^ nbits)))

end Sys2Proof.Machine
end

