-- ==== Sys2Proof/Laws/PerInstr.lean ====
section
/-!
SUPPORT. What is shown instruction by instruction: the opcode that an instruction's view names is the one its word carries, it is one
of those that the opcode map assigns (R119), and its form is the one that the decoder gives that opcode (R46).
-/

namespace Sys2Proof.Laws.Encoding

/-- An instruction's word carries the opcode and the form of its view. -/
def Statement (i : Instr) : Prop :=
  ∀ v, viewOf i = some v →
    v.op < 0xF0 ∧ (rawOfInstr i).map (fun r => r.op) = some v.op ∧ ∀ m, (shapeOf v.op m).map (fun x => x.form) = some v.form

theorem add (gd : Guard) (d : Dest) (a : Src) (b : SrcB) (co : Bool) : Statement (.add gd d a b co) := fun _ h => by cases h; exact ⟨Nat.le_of_ble_eq_true rfl, rfl, fun _ => rfl⟩
theorem sub (gd : Guard) (d : Dest) (a : Src) (b : SrcB) (co : Bool) : Statement (.sub gd d a b co) := fun _ h => by cases h; exact ⟨Nat.le_of_ble_eq_true rfl, rfl, fun _ => rfl⟩
theorem addc (gd : Guard) (d : Dest) (a : Src) (b : SrcB) (c : Src) (co : Bool) : Statement (.addc gd d a b c co) := fun _ h => by cases h; exact ⟨Nat.le_of_ble_eq_true rfl, rfl, fun _ => rfl⟩
theorem subb (gd : Guard) (d : Dest) (a : Src) (b : SrcB) (c : Src) (co : Bool) : Statement (.subb gd d a b c co) := fun _ h => by cases h; exact ⟨Nat.le_of_ble_eq_true rfl, rfl, fun _ => rfl⟩
theorem mul (gd : Guard) (d : Dest) (a : Src) (b : SrcB) : Statement (.mul gd d a b) := fun _ h => by cases h; exact ⟨Nat.le_of_ble_eq_true rfl, rfl, fun _ => rfl⟩
theorem mulhS (gd : Guard) (d : Dest) (a : Src) (b : SrcB) : Statement (.mulhS gd d a b) := fun _ h => by cases h; exact ⟨Nat.le_of_ble_eq_true rfl, rfl, fun _ => rfl⟩
theorem mulhN (gd : Guard) (d : Dest) (a : Src) (b : SrcB) : Statement (.mulhN gd d a b) := fun _ h => by cases h; exact ⟨Nat.le_of_ble_eq_true rfl, rfl, fun _ => rfl⟩
theorem mad (gd : Guard) (d : Dest) (a : Src) (b : SrcB) (c : Src) : Statement (.mad gd d a b c) := fun _ h => by cases h; exact ⟨Nat.le_of_ble_eq_true rfl, rfl, fun _ => rfl⟩
theorem madw (gd : Guard) (d : Dest) (a : Src) (b : SrcB) (c : Src) (sg : Bool) : Statement (.madw gd d a b c sg) := fun _ h => by cases h; exact ⟨Nat.le_of_ble_eq_true rfl, rfl, fun _ => rfl⟩
theorem divS (gd : Guard) (d : Dest) (a : Src) (b : SrcB) : Statement (.divS gd d a b) := fun _ h => by cases h; exact ⟨Nat.le_of_ble_eq_true rfl, rfl, fun _ => rfl⟩
theorem divN (gd : Guard) (d : Dest) (a : Src) (b : SrcB) : Statement (.divN gd d a b) := fun _ h => by cases h; exact ⟨Nat.le_of_ble_eq_true rfl, rfl, fun _ => rfl⟩
theorem remS (gd : Guard) (d : Dest) (a : Src) (b : SrcB) : Statement (.remS gd d a b) := fun _ h => by cases h; exact ⟨Nat.le_of_ble_eq_true rfl, rfl, fun _ => rfl⟩
theorem remN (gd : Guard) (d : Dest) (a : Src) (b : SrcB) : Statement (.remN gd d a b) := fun _ h => by cases h; exact ⟨Nat.le_of_ble_eq_true rfl, rfl, fun _ => rfl⟩
theorem minS (gd : Guard) (d : Dest) (a : Src) (b : SrcB) : Statement (.minS gd d a b) := fun _ h => by cases h; exact ⟨Nat.le_of_ble_eq_true rfl, rfl, fun _ => rfl⟩
theorem minN (gd : Guard) (d : Dest) (a : Src) (b : SrcB) : Statement (.minN gd d a b) := fun _ h => by cases h; exact ⟨Nat.le_of_ble_eq_true rfl, rfl, fun _ => rfl⟩
theorem maxS (gd : Guard) (d : Dest) (a : Src) (b : SrcB) : Statement (.maxS gd d a b) := fun _ h => by cases h; exact ⟨Nat.le_of_ble_eq_true rfl, rfl, fun _ => rfl⟩
theorem maxN (gd : Guard) (d : Dest) (a : Src) (b : SrcB) : Statement (.maxN gd d a b) := fun _ h => by cases h; exact ⟨Nat.le_of_ble_eq_true rfl, rfl, fun _ => rfl⟩
theorem abs (gd : Guard) (d : Dest) (a : Src) : Statement (.abs gd d a) := fun _ h => by cases h; exact ⟨Nat.le_of_ble_eq_true rfl, rfl, fun _ => rfl⟩
theorem neg (gd : Guard) (d : Dest) (a : Src) : Statement (.neg gd d a) := fun _ h => by cases h; exact ⟨Nat.le_of_ble_eq_true rfl, rfl, fun _ => rfl⟩
theorem logt (gd : Guard) (d : Dest) (a : Src) (b : SrcB) (c : Src) (lut : BitVec 8) : Statement (.logt gd d a b c lut) := fun _ h => by cases h; exact ⟨Nat.le_of_ble_eq_true rfl, rfl, fun _ => rfl⟩
theorem shl (gd : Guard) (d : Dest) (a : Src) (b : SrcB) : Statement (.shl gd d a b) := fun _ h => by cases h; exact ⟨Nat.le_of_ble_eq_true rfl, rfl, fun _ => rfl⟩
theorem shrN (gd : Guard) (d : Dest) (a : Src) (b : SrcB) : Statement (.shrN gd d a b) := fun _ h => by cases h; exact ⟨Nat.le_of_ble_eq_true rfl, rfl, fun _ => rfl⟩
theorem shrS (gd : Guard) (d : Dest) (a : Src) (b : SrcB) : Statement (.shrS gd d a b) := fun _ h => by cases h; exact ⟨Nat.le_of_ble_eq_true rfl, rfl, fun _ => rfl⟩
theorem rot (gd : Guard) (d : Dest) (a : Src) (b : SrcB) : Statement (.rot gd d a b) := fun _ h => by cases h; exact ⟨Nat.le_of_ble_eq_true rfl, rfl, fun _ => rfl⟩
theorem fshl (gd : Guard) (d : Dest) (a : Src) (b : SrcB) (c : Src) : Statement (.fshl gd d a b c) := fun _ h => by cases h; exact ⟨Nat.le_of_ble_eq_true rfl, rfl, fun _ => rfl⟩
theorem bfx (gd : Guard) (d : Dest) (a : Src) (b : SrcB) (sx : Bool) : Statement (.bfx gd d a b sx) := fun _ h => by cases h; exact ⟨Nat.le_of_ble_eq_true rfl, rfl, fun _ => rfl⟩
theorem bfi (gd : Guard) (d : Dest) (a : Src) (b : SrcB) (c : Src) : Statement (.bfi gd d a b c) := fun _ h => by cases h; exact ⟨Nat.le_of_ble_eq_true rfl, rfl, fun _ => rfl⟩
theorem popc (gd : Guard) (d : Dest) (a : Src) : Statement (.popc gd d a) := fun _ h => by cases h; exact ⟨Nat.le_of_ble_eq_true rfl, rfl, fun _ => rfl⟩
theorem clz (gd : Guard) (d : Dest) (a : Src) : Statement (.clz gd d a) := fun _ h => by cases h; exact ⟨Nat.le_of_ble_eq_true rfl, rfl, fun _ => rfl⟩
theorem brev (gd : Guard) (d : Dest) (a : Src) : Statement (.brev gd d a) := fun _ h => by cases h; exact ⟨Nat.le_of_ble_eq_true rfl, rfl, fun _ => rfl⟩
theorem psel (gd : Guard) (d : Dest) (a : Src) (b : SrcB) (k : Fin 8) (inv : Bool) : Statement (.psel gd d a b k inv) := fun _ h => by cases h; exact ⟨Nat.le_of_ble_eq_true rfl, rfl, fun _ => rfl⟩
theorem mov (gd : Guard) (d : Dest) (a : Src) : Statement (.mov gd d a) := fun _ h => by cases h; exact ⟨Nat.le_of_ble_eq_true rfl, rfl, fun _ => rfl⟩
theorem movi (gd : Guard) (d : Dest) (imm : Word) : Statement (.movi gd d imm) := fun _ h => by cases h; exact ⟨Nat.le_of_ble_eq_true rfl, rfl, fun _ => rfl⟩
theorem lea (gd : Guard) (d : Dest) (a : Src) (off : BitVec 24) : Statement (.lea gd d a off) := fun _ h => by cases h; exact ⟨Nat.le_of_ble_eq_true rfl, rfl, fun _ => rfl⟩
theorem icmpS (gd : Guard) (pp : Fin 4) (a : Src) (b : SrcB) (rel : Rel) (mode : CmpMode) : Statement (.icmpS gd pp a b rel mode) := fun _ h => by cases h; exact ⟨Nat.le_of_ble_eq_true rfl, rfl, fun _ => rfl⟩
theorem icmpN (gd : Guard) (pp : Fin 4) (a : Src) (b : SrcB) (rel : Rel) (mode : CmpMode) : Statement (.icmpN gd pp a b rel mode) := fun _ h => by cases h; exact ⟨Nat.le_of_ble_eq_true rfl, rfl, fun _ => rfl⟩
theorem icmpW (gd : Guard) (pp : Fin 4) (a : Src) (b : Src) (sg : Bool) (rel : Rel) (mode : CmpMode) : Statement (.icmpW gd pp a b sg rel mode) := fun _ h => by cases h; exact ⟨Nat.le_of_ble_eq_true rfl, rfl, fun _ => rfl⟩
theorem fcmp (gd : Guard) (pp : Fin 4) (a : Src) (b : Src) (rel : Rel) (mode : CmpMode) : Statement (.fcmp gd pp a b rel mode) := fun _ h => by cases h; exact ⟨Nat.le_of_ble_eq_true rfl, rfl, fun _ => rfl⟩
theorem fcmpH2 (gd : Guard) (pp : Fin 4) (a : Src) (b : Src) (rel : Rel) (mode : CmpMode) : Statement (.fcmpH2 gd pp a b rel mode) := fun _ h => by cases h; exact ⟨Nat.le_of_ble_eq_true rfl, rfl, fun _ => rfl⟩
theorem fcmpBf2 (gd : Guard) (pp : Fin 4) (a : Src) (b : Src) (rel : Rel) (mode : CmpMode) : Statement (.fcmpBf2 gd pp a b rel mode) := fun _ h => by cases h; exact ⟨Nat.le_of_ble_eq_true rfl, rfl, fun _ => rfl⟩
theorem fclass (gd : Guard) (pp : Fin 4) (a : Src) (fmt : ClassFmt) (cmask : BitVec 9) (mode : CmpMode) : Statement (.fclass gd pp a fmt cmask mode) := fun _ h => by cases h; exact ⟨Nat.le_of_ble_eq_true rfl, rfl, fun _ => rfl⟩
theorem btest (gd : Guard) (pp : Fin 4) (a : Src) (b : SrcB) (allBits : Bool) (mode : CmpMode) : Statement (.btest gd pp a b allBits mode) := fun _ h => by cases h; exact ⟨Nat.le_of_ble_eq_true rfl, rfl, fun _ => rfl⟩
theorem rchk (gd : Guard) (pp : Fin 4) (a : Src) (b : SrcB) (c : Src) (sg : Bool) (mode : CmpMode) : Statement (.rchk gd pp a b c sg mode) := fun _ h => by cases h; exact ⟨Nat.le_of_ble_eq_true rfl, rfl, fun _ => rfl⟩
theorem pmix (gd : Guard) (pd : Fin 8) (lut : BitVec 8) (x : Fin 8) (y : Fin 8) (z : Fin 8) : Statement (.pmix gd pd lut x y z) := fun _ h => by cases h; exact ⟨Nat.le_of_ble_eq_true rfl, rfl, fun _ => rfl⟩
theorem ppack (gd : Guard) (d : Dest) : Statement (.ppack gd d) := fun _ h => by cases h; exact ⟨Nat.le_of_ble_eq_true rfl, rfl, fun _ => rfl⟩
theorem psprd (gd : Guard) (a : Src) (mask : BitVec 8) : Statement (.psprd gd a mask) := fun _ h => by cases h; exact ⟨Nat.le_of_ble_eq_true rfl, rfl, fun _ => rfl⟩
theorem fadd (gd : Guard) (d : Dest) (a : Src) (b : Src) (rm : RMode) (sat : Bool) (na : Bool) (nb : Bool) : Statement (.fadd gd d a b rm sat na nb) := fun _ h => by cases h; exact ⟨Nat.le_of_ble_eq_true rfl, rfl, fun _ => rfl⟩
theorem fsub (gd : Guard) (d : Dest) (a : Src) (b : Src) (rm : RMode) (sat : Bool) (na : Bool) (nb : Bool) : Statement (.fsub gd d a b rm sat na nb) := fun _ h => by cases h; exact ⟨Nat.le_of_ble_eq_true rfl, rfl, fun _ => rfl⟩
theorem fmul (gd : Guard) (d : Dest) (a : Src) (b : Src) (rm : RMode) (sat : Bool) (na : Bool) (nb : Bool) : Statement (.fmul gd d a b rm sat na nb) := fun _ h => by cases h; exact ⟨Nat.le_of_ble_eq_true rfl, rfl, fun _ => rfl⟩
theorem ffma (gd : Guard) (d : Dest) (a : Src) (b : Src) (c : Src) (rm : RMode) (sat : Bool) (na : Bool) (nb : Bool) (nc : Bool) : Statement (.ffma gd d a b c rm sat na nb nc) := fun _ h => by cases h; exact ⟨Nat.le_of_ble_eq_true rfl, rfl, fun _ => rfl⟩
theorem fmin (gd : Guard) (d : Dest) (a : Src) (b : Src) (na : Bool) (nb : Bool) : Statement (.fmin gd d a b na nb) := fun _ h => by cases h; exact ⟨Nat.le_of_ble_eq_true rfl, rfl, fun _ => rfl⟩
theorem fmax (gd : Guard) (d : Dest) (a : Src) (b : Src) (na : Bool) (nb : Bool) : Statement (.fmax gd d a b na nb) := fun _ h => by cases h; exact ⟨Nat.le_of_ble_eq_true rfl, rfl, fun _ => rfl⟩
theorem pkadh (gd : Guard) (d : Dest) (a : Src) (b : Src) (rm : RMode) (sat : Bool) (na : Bool) (nb : Bool) : Statement (.pkadh gd d a b rm sat na nb) := fun _ h => by cases h; exact ⟨Nat.le_of_ble_eq_true rfl, rfl, fun _ => rfl⟩
theorem pkmlh (gd : Guard) (d : Dest) (a : Src) (b : Src) (rm : RMode) (sat : Bool) (na : Bool) (nb : Bool) : Statement (.pkmlh gd d a b rm sat na nb) := fun _ h => by cases h; exact ⟨Nat.le_of_ble_eq_true rfl, rfl, fun _ => rfl⟩
theorem pkfmh (gd : Guard) (d : Dest) (a : Src) (b : Src) (c : Src) (rm : RMode) (sat : Bool) (na : Bool) (nb : Bool) (nc : Bool) : Statement (.pkfmh gd d a b c rm sat na nb nc) := fun _ h => by cases h; exact ⟨Nat.le_of_ble_eq_true rfl, rfl, fun _ => rfl⟩
theorem pkadb (gd : Guard) (d : Dest) (a : Src) (b : Src) (rm : RMode) (sat : Bool) (na : Bool) (nb : Bool) : Statement (.pkadb gd d a b rm sat na nb) := fun _ h => by cases h; exact ⟨Nat.le_of_ble_eq_true rfl, rfl, fun _ => rfl⟩
theorem pkmlb (gd : Guard) (d : Dest) (a : Src) (b : Src) (rm : RMode) (sat : Bool) (na : Bool) (nb : Bool) : Statement (.pkmlb gd d a b rm sat na nb) := fun _ h => by cases h; exact ⟨Nat.le_of_ble_eq_true rfl, rfl, fun _ => rfl⟩
theorem pkfmb (gd : Guard) (d : Dest) (a : Src) (b : Src) (c : Src) (rm : RMode) (sat : Bool) (na : Bool) (nb : Bool) (nc : Bool) : Statement (.pkfmb gd d a b c rm sat na nb nc) := fun _ h => by cases h; exact ⟨Nat.le_of_ble_eq_true rfl, rfl, fun _ => rfl⟩
theorem frcp (gd : Guard) (d : Dest) (a : Src) (rm : RMode) (sat : Bool) (na : Bool) : Statement (.frcp gd d a rm sat na) := fun _ h => by cases h; exact ⟨Nat.le_of_ble_eq_true rfl, rfl, fun _ => rfl⟩
theorem frsq (gd : Guard) (d : Dest) (a : Src) (na : Bool) : Statement (.frsq gd d a na) := fun _ h => by cases h; exact ⟨Nat.le_of_ble_eq_true rfl, rfl, fun _ => rfl⟩
theorem fsqrt (gd : Guard) (d : Dest) (a : Src) (rm : RMode) (na : Bool) : Statement (.fsqrt gd d a rm na) := fun _ h => by cases h; exact ⟨Nat.le_of_ble_eq_true rfl, rfl, fun _ => rfl⟩
theorem fexp2 (gd : Guard) (d : Dest) (a : Src) (na : Bool) : Statement (.fexp2 gd d a na) := fun _ h => by cases h; exact ⟨Nat.le_of_ble_eq_true rfl, rfl, fun _ => rfl⟩
theorem flog2 (gd : Guard) (d : Dest) (a : Src) (na : Bool) : Statement (.flog2 gd d a na) := fun _ h => by cases h; exact ⟨Nat.le_of_ble_eq_true rfl, rfl, fun _ => rfl⟩
theorem fsin (gd : Guard) (d : Dest) (a : Src) (na : Bool) : Statement (.fsin gd d a na) := fun _ h => by cases h; exact ⟨Nat.le_of_ble_eq_true rfl, rfl, fun _ => rfl⟩
theorem fcos (gd : Guard) (d : Dest) (a : Src) (na : Bool) : Statement (.fcos gd d a na) := fun _ h => by cases h; exact ⟨Nat.le_of_ble_eq_true rfl, rfl, fun _ => rfl⟩
theorem ftanh (gd : Guard) (d : Dest) (a : Src) (na : Bool) : Statement (.ftanh gd d a na) := fun _ h => by cases h; exact ⟨Nat.le_of_ble_eq_true rfl, rfl, fun _ => rfl⟩
theorem fdiv (gd : Guard) (d : Dest) (a : Src) (b : Src) (rm : RMode) (sat : Bool) (na : Bool) (nb : Bool) : Statement (.fdiv gd d a b rm sat na nb) := fun _ h => by cases h; exact ⟨Nat.le_of_ble_eq_true rfl, rfl, fun _ => rfl⟩
theorem frnd (gd : Guard) (d : Dest) (a : Src) (rm : RMode) (na : Bool) : Statement (.frnd gd d a rm na) := fun _ h => by cases h; exact ⟨Nat.le_of_ble_eq_true rfl, rfl, fun _ => rfl⟩
theorem fscale (gd : Guard) (d : Dest) (a : Src) (b : Src) (rm : RMode) (sat : Bool) (na : Bool) : Statement (.fscale gd d a b rm sat na) := fun _ h => by cases h; exact ⟨Nat.le_of_ble_eq_true rfl, rfl, fun _ => rfl⟩
theorem fdot8 (gd : Guard) (d : Dest) (a : Src) (b : Src) (c : Src) (rm : RMode) (sat : Bool) (na : Bool) (nb : Bool) (nc : Bool) (fb : DotFmt) (fa : DotFmt) : Statement (.fdot8 gd d a b c rm sat na nb nc fb fa) := fun _ h => by cases h; exact ⟨Nat.le_of_ble_eq_true rfl, rfl, fun _ => rfl⟩
theorem cvt (gd : Guard) (d : Dest) (a : Src) (c : Option Src) (tgt : Fmt) (frm : Fmt) (rm : RMode) (sat : Bool) (ks : Fin 8) (kd : Fin 8) : Statement (.cvt gd d a c tgt frm rm sat ks kd) := fun _ h => by cases h; exact ⟨Nat.le_of_ble_eq_true rfl, rfl, fun _ => rfl⟩
theorem cvtsr (gd : Guard) (d : Dest) (a : Src) (b : Src) (c : Option Src) (tgt : Fmt) (frm : Fmt) (sat : Bool) (ks : Fin 8) (kd : Fin 8) : Statement (.cvtsr gd d a b c tgt frm sat ks kd) := fun _ h => by cases h; exact ⟨Nat.le_of_ble_eq_true rfl, rfl, fun _ => rfl⟩
theorem cvti (gd : Guard) (d : Dest) (a : Src) (c : Option Src) (tgt : Fmt) (frm : Fmt) (sat : Bool) (ks : Fin 8) (kd : Fin 8) : Statement (.cvti gd d a c tgt frm sat ks kd) := fun _ h => by cases h; exact ⟨Nat.le_of_ble_eq_true rfl, rfl, fun _ => rfl⟩
theorem pack2 (gd : Guard) (d : Dest) (a : Src) (b : Src) (tgt : Fmt) (frm : Fmt) (rm : RMode) (sat : Bool) : Statement (.pack2 gd d a b tgt frm rm sat) := fun _ h => by cases h; exact ⟨Nat.le_of_ble_eq_true rfl, rfl, fun _ => rfl⟩
theorem unpk2 (gd : Guard) (d : Dest) (a : Src) (tgt : Fmt) (frm : Fmt) : Statement (.unpk2 gd d a tgt frm) := fun _ h => by cases h; exact ⟨Nat.le_of_ble_eq_true rfl, rfl, fun _ => rfl⟩
theorem lcdec (gd : Guard) (d : Dest) (a : Src) (b : Option Src) (tgt : Fmt) (rm : RMode) (ks : Fin 8) : Statement (.lcdec gd d a b tgt rm ks) := fun _ h => by cases h; exact ⟨Nat.le_of_ble_eq_true rfl, rfl, fun _ => rfl⟩
theorem qnt (gd : Guard) (d : Dest) (a : Src) (b : Src) (c : Option Src) (tgt : Fmt) (rm : RMode) (kd : Fin 8) : Statement (.qnt gd d a b c tgt rm kd) := fun _ h => by cases h; exact ⟨Nat.le_of_ble_eq_true rfl, rfl, fun _ => rfl⟩
theorem dqnt (gd : Guard) (d : Dest) (a : Src) (b : Src) (frm : Fmt) (rm : RMode) (ks : Fin 8) : Statement (.dqnt gd d a b frm rm ks) := fun _ h => by cases h; exact ⟨Nat.le_of_ble_eq_true rfl, rfl, fun _ => rfl⟩
theorem e8ext (gd : Guard) (d : Dest) (a : Src) (c : Option Src) (tgt : Fmt) (kd : Fin 8) : Statement (.e8ext gd d a c tgt kd) := fun _ h => by cases h; exact ⟨Nat.le_of_ble_eq_true rfl, rfl, fun _ => rfl⟩
theorem cvtf (gd : Guard) (d : Dest) (a : Src) (b : Src) (c : Option Src) (deq : Bool) (ks : Fin 8) (kd : Fin 8) (slot : Fin 8) : Statement (.cvtf gd d a b c deq ks kd slot) := fun _ h => by cases h; exact ⟨Nat.le_of_ble_eq_true rfl, rfl, fun _ => rfl⟩
theorem bra (gd : Guard) (tgt : Target) : Statement (.bra gd tgt) := fun _ h => by cases h; exact ⟨Nat.le_of_ble_eq_true rfl, rfl, fun _ => rfl⟩
theorem brany (gd : Guard) (k : Fin 8) (tgt : Target) : Statement (.brany gd k tgt) := fun _ h => by cases h; exact ⟨Nat.le_of_ble_eq_true rfl, rfl, fun _ => rfl⟩
theorem brall (gd : Guard) (k : Fin 8) (tgt : Target) : Statement (.brall gd k tgt) := fun _ h => by cases h; exact ⟨Nat.le_of_ble_eq_true rfl, rfl, fun _ => rfl⟩
theorem brnone (gd : Guard) (k : Fin 8) (tgt : Target) : Statement (.brnone gd k tgt) := fun _ h => by cases h; exact ⟨Nat.le_of_ble_eq_true rfl, rfl, fun _ => rfl⟩
theorem brx (gd : Guard) (a : Src) : Statement (.brx gd a) := fun _ h => by cases h; exact ⟨Nat.le_of_ble_eq_true rfl, rfl, fun _ => rfl⟩
theorem call (gd : Guard) (tgt : Target) : Statement (.call gd tgt) := fun _ h => by cases h; exact ⟨Nat.le_of_ble_eq_true rfl, rfl, fun _ => rfl⟩
theorem callx (gd : Guard) (a : Src) : Statement (.callx gd a) := fun _ h => by cases h; exact ⟨Nat.le_of_ble_eq_true rfl, rfl, fun _ => rfl⟩
theorem ret (gd : Guard) (a : Src) : Statement (.ret gd a) := fun _ h => by cases h; exact ⟨Nat.le_of_ble_eq_true rfl, rfl, fun _ => rfl⟩
theorem split (gd : Guard) (tgt : Target) : Statement (.split gd tgt) := fun _ h => by cases h; exact ⟨Nat.le_of_ble_eq_true rfl, rfl, fun _ => rfl⟩
theorem join (gd : Guard) : Statement (.join gd) := fun _ h => by cases h; exact ⟨Nat.le_of_ble_eq_true rfl, rfl, fun _ => rfl⟩
theorem breakOut (gd : Guard) (n : Fin 16) (tgt : Target) : Statement (.breakOut gd n tgt) := fun _ h => by cases h; exact ⟨Nat.le_of_ble_eq_true rfl, rfl, fun _ => rfl⟩
theorem loopc (gd : Guard) (d : Dest) (tgt : Target) : Statement (.loopc gd d tgt) := fun _ h => by cases h; exact ⟨Nat.le_of_ble_eq_true rfl, rfl, fun _ => rfl⟩
theorem nop (gd : Guard) : Statement (.nop gd) := fun _ h => by cases h; exact ⟨Nat.le_of_ble_eq_true rfl, rfl, fun _ => rfl⟩
theorem yieldRun (gd : Guard) : Statement (.yieldRun gd) := fun _ h => by cases h; exact ⟨Nat.le_of_ble_eq_true rfl, rfl, fun _ => rfl⟩
theorem ld (gd : Guard) (d : Dest) (a : Src) (off : BitVec 24) (sz : LdSize) : Statement (.ld gd d a off sz) := fun _ h => by cases h; exact ⟨Nat.le_of_ble_eq_true rfl, rfl, fun _ => rfl⟩
theorem st (gd : Guard) (a : Src) (b : Src) (off : BitVec 24) (sz : StSize) : Statement (.st gd a b off sz) := fun _ h => by cases h; exact ⟨Nat.le_of_ble_eq_true rfl, rfl, fun _ => rfl⟩
theorem lds (gd : Guard) (d : Dest) (a : Src) (off : BitVec 24) (sz : LdSize) : Statement (.lds gd d a off sz) := fun _ h => by cases h; exact ⟨Nat.le_of_ble_eq_true rfl, rfl, fun _ => rfl⟩
theorem sts (gd : Guard) (a : Src) (b : Src) (off : BitVec 24) (sz : StSize) : Statement (.sts gd a b off sz) := fun _ h => by cases h; exact ⟨Nat.le_of_ble_eq_true rfl, rfl, fun _ => rfl⟩
theorem ldsfe (gd : Guard) (d : Dest) (a : Src) (off : BitVec 24) (keep : Bool) (trap : Bool) : Statement (.ldsfe gd d a off keep trap) := fun _ h => by cases h; exact ⟨Nat.le_of_ble_eq_true rfl, rfl, fun _ => rfl⟩
theorem stsfe (gd : Guard) (a : Src) (b : Src) (off : BitVec 24) (fem : FillMode) : Statement (.stsfe gd a b off fem) := fun _ h => by cases h; exact ⟨Nat.le_of_ble_eq_true rfl, rfl, fun _ => rfl⟩
theorem ldw (gd : Guard) (d : Dest) (a : Src) (off : BitVec 24) (win : Fin 16) (rank : Fin 8) (sz : LdSize) : Statement (.ldw gd d a off win rank sz) := fun _ h => by cases h; exact ⟨Nat.le_of_ble_eq_true rfl, rfl, fun _ => rfl⟩
theorem stw (gd : Guard) (a : Src) (b : Src) (off : BitVec 24) (win : Fin 16) (rank : Fin 8) (fem : FillMode) (sz : StSize) : Statement (.stw gd a b off win rank fem sz) := fun _ h => by cases h; exact ⟨Nat.le_of_ble_eq_true rfl, rfl, fun _ => rfl⟩
theorem wopen (gd : Guard) (a : Src) (win : Fin 16) (writer : Option (Fin 8)) : Statement (.wopen gd a win writer) := fun _ h => by cases h; exact ⟨Nat.le_of_ble_eq_true rfl, rfl, fun _ => rfl⟩
theorem wclose (gd : Guard) (win : Fin 16) : Statement (.wclose gd win) := fun _ h => by cases h; exact ⟨Nat.le_of_ble_eq_true rfl, rfl, fun _ => rfl⟩
theorem subs (gd : Guard) (d : Dest) (a : Src) (off : BitVec 24) (fmt : SubFmt) : Statement (.subs gd d a off fmt) := fun _ h => by cases h; exact ⟨Nat.le_of_ble_eq_true rfl, rfl, fun _ => rfl⟩
theorem unsub (gd : Guard) (d : Dest) (a : Src) (off : BitVec 24) : Statement (.unsub gd d a off) := fun _ h => by cases h; exact ⟨Nat.le_of_ble_eq_true rfl, rfl, fun _ => rfl⟩
theorem upgr (gd : Guard) (d : Dest) (a : Src) (off : BitVec 24) (fmt : SubFmt) : Statement (.upgr gd d a off fmt) := fun _ h => by cases h; exact ⟨Nat.le_of_ble_eq_true rfl, rfl, fun _ => rfl⟩
theorem ldsub (gd : Guard) (d : Dest) (a : Src) (off : BitVec 24) (fmt : SubFmt) : Statement (.ldsub gd d a off fmt) := fun _ h => by cases h; exact ⟨Nat.le_of_ble_eq_true rfl, rfl, fun _ => rfl⟩
theorem acq (gd : Guard) (d : Dest) (gate : BitVec 12) : Statement (.acq gd d gate) := fun _ h => by cases h; exact ⟨Nat.le_of_ble_eq_true rfl, rfl, fun _ => rfl⟩
theorem rel (gd : Guard) (gate : BitVec 12) : Statement (.rel gd gate) := fun _ h => by cases h; exact ⟨Nat.le_of_ble_eq_true rfl, rfl, fun _ => rfl⟩
theorem fence (gd : Guard) (scope : Dom) (bk : Bool) (acq : Bool) (rel : Bool) : Statement (.fence gd scope bk acq rel) := fun _ h => by cases h; exact ⟨Nat.le_of_ble_eq_true rfl, rfl, fun _ => rfl⟩
theorem clnr (gd : Guard) (a : Src) (b : Src) (off : BitVec 24) : Statement (.clnr gd a b off) := fun _ h => by cases h; exact ⟨Nat.le_of_ble_eq_true rfl, rfl, fun _ => rfl⟩
theorem invr (gd : Guard) (a : Src) (b : Src) (off : BitVec 24) : Statement (.invr gd a b off) := fun _ h => by cases h; exact ⟨Nat.le_of_ble_eq_true rfl, rfl, fun _ => rfl⟩
theorem dscr (gd : Guard) (a : Src) (b : Src) (off : BitVec 24) : Statement (.dscr gd a b off) := fun _ h => by cases h; exact ⟨Nat.le_of_ble_eq_true rfl, rfl, fun _ => rfl⟩
theorem ldrc (gd : Guard) (d : Dest) (a : Src) (off : BitVec 24) (sz : LdSize) : Statement (.ldrc gd d a off sz) := fun _ h => by cases h; exact ⟨Nat.le_of_ble_eq_true rfl, rfl, fun _ => rfl⟩
theorem strc (gd : Guard) (a : Src) (b : Src) (off : BitVec 24) (cnt : BitVec 8) (sz : StSize) : Statement (.strc gd a b off cnt sz) := fun _ h => by cases h; exact ⟨Nat.le_of_ble_eq_true rfl, rfl, fun _ => rfl⟩
theorem prft (gd : Guard) (a : Src) (off : BitVec 24) (lvl : PfLevel) : Statement (.prft gd a off lvl) := fun _ h => by cases h; exact ⟨Nat.le_of_ble_eq_true rfl, rfl, fun _ => rfl⟩
theorem rfwin (gd : Guard) (d : Dest) (a : Src) : Statement (.rfwin gd d a) := fun _ h => by cases h; exact ⟨Nat.le_of_ble_eq_true rfl, rfl, fun _ => rfl⟩
theorem ldwt (gd : Guard) (d : Dest) (a : Src) (off : BitVec 24) (sz : LdSize) : Statement (.ldwt gd d a off sz) := fun _ h => by cases h; exact ⟨Nat.le_of_ble_eq_true rfl, rfl, fun _ => rfl⟩
theorem stna (gd : Guard) (a : Src) (b : Src) (off : BitVec 24) (sz : StSize) : Statement (.stna gd a b off sz) := fun _ h => by cases h; exact ⟨Nat.le_of_ble_eq_true rfl, rfl, fun _ => rfl⟩
theorem aadd (gd : Guard) (d : Dest) (a : Src) (b : Src) (off : BitVec 24) (sz : AtSize) : Statement (.aadd gd d a b off sz) := fun _ h => by cases h; exact ⟨Nat.le_of_ble_eq_true rfl, rfl, fun _ => rfl⟩
theorem amin (gd : Guard) (d : Dest) (a : Src) (b : Src) (off : BitVec 24) (sg : Bool) (sz : AtSize) : Statement (.amin gd d a b off sg sz) := fun _ h => by cases h; exact ⟨Nat.le_of_ble_eq_true rfl, rfl, fun _ => rfl⟩
theorem amax (gd : Guard) (d : Dest) (a : Src) (b : Src) (off : BitVec 24) (sg : Bool) (sz : AtSize) : Statement (.amax gd d a b off sg sz) := fun _ h => by cases h; exact ⟨Nat.le_of_ble_eq_true rfl, rfl, fun _ => rfl⟩
theorem alog (gd : Guard) (d : Dest) (a : Src) (b : Src) (off : BitVec 24) (op : LogOp) (sz : AtSize) : Statement (.alog gd d a b off op sz) := fun _ h => by cases h; exact ⟨Nat.le_of_ble_eq_true rfl, rfl, fun _ => rfl⟩
theorem axch (gd : Guard) (d : Dest) (a : Src) (b : Src) (off : BitVec 24) (sz : AtSize) : Statement (.axch gd d a b off sz) := fun _ h => by cases h; exact ⟨Nat.le_of_ble_eq_true rfl, rfl, fun _ => rfl⟩
theorem acas (gd : Guard) (d : Dest) (a : Src) (b : Src) (off : BitVec 24) (sz : AtSize) : Statement (.acas gd d a b off sz) := fun _ h => by cases h; exact ⟨Nat.le_of_ble_eq_true rfl, rfl, fun _ => rfl⟩
theorem afadd (gd : Guard) (d : Dest) (a : Src) (b : Src) (off : BitVec 24) (ft : AtFmt) : Statement (.afadd gd d a b off ft) := fun _ h => by cases h; exact ⟨Nat.le_of_ble_eq_true rfl, rfl, fun _ => rfl⟩
theorem ainc (gd : Guard) (d : Dest) (a : Src) (b : Src) (off : BitVec 24) : Statement (.ainc gd d a b off) := fun _ h => by cases h; exact ⟨Nat.le_of_ble_eq_true rfl, rfl, fun _ => rfl⟩
theorem adec (gd : Guard) (d : Dest) (a : Src) (b : Src) (off : BitVec 24) : Statement (.adec gd d a b off) := fun _ h => by cases h; exact ⟨Nat.le_of_ble_eq_true rfl, rfl, fun _ => rfl⟩
theorem redi (gd : Guard) (a : Src) (b : Src) (off : BitVec 24) (op : RedOp) (sg : Bool) (sz : AtSize) : Statement (.redi gd a b off op sg sz) := fun _ h => by cases h; exact ⟨Nat.le_of_ble_eq_true rfl, rfl, fun _ => rfl⟩
theorem redf (gd : Guard) (a : Src) (b : Src) (off : BitVec 24) (ft : AtFmt) : Statement (.redf gd a b off ft) := fun _ h => by cases h; exact ⟨Nat.le_of_ble_eq_true rfl, rfl, fun _ => rfl⟩
theorem redlog (gd : Guard) (a : Src) (b : Src) (off : BitVec 24) (op : LogOp) (sz : AtSize) : Statement (.redlog gd a b off op sz) := fun _ h => by cases h; exact ⟨Nat.le_of_ble_eq_true rfl, rfl, fun _ => rfl⟩
theorem elect (gd : Guard) (pp : Fin 4) (slp : Bool) : Statement (.elect gd pp slp) := fun _ h => by cases h; exact ⟨Nat.le_of_ble_eq_true rfl, rfl, fun _ => rfl⟩
theorem electq (gd : Guard) (pp : Fin 4) (slp : Bool) : Statement (.electq gd pp slp) := fun _ h => by cases h; exact ⟨Nat.le_of_ble_eq_true rfl, rfl, fun _ => rfl⟩
theorem poll (gd : Guard) (d : Dest) (inv : Bool) (k : Fin 8) (kind : PollKind) : Statement (.poll gd d inv k kind) := fun _ h => by cases h; exact ⟨Nat.le_of_ble_eq_true rfl, rfl, fun _ => rfl⟩
theorem matchLanes (gd : Guard) (d : Dest) (a : Src) (w : Bool) : Statement (.matchLanes gd d a w) := fun _ h => by cases h; exact ⟨Nat.le_of_ble_eq_true rfl, rfl, fun _ => rfl⟩
theorem bara (gd : Guard) (bar : BarRef) : Statement (.bara gd bar) := fun _ h => by cases h; exact ⟨Nat.le_of_ble_eq_true rfl, rfl, fun _ => rfl⟩
theorem barw (gd : Guard) (bar : BarRef) (wo : Bool) : Statement (.barw gd bar wo) := fun _ h => by cases h; exact ⟨Nat.le_of_ble_eq_true rfl, rfl, fun _ => rfl⟩
theorem barwt (gd : Guard) (pp : Fin 4) (a : Src) (bar : BarRef) (wo : Bool) : Statement (.barwt gd pp a bar wo) := fun _ h => by cases h; exact ⟨Nat.le_of_ble_eq_true rfl, rfl, fun _ => rfl⟩
theorem barx (gd : Guard) (a : Src) (bar : BarRef) (arr : Bool) : Statement (.barx gd a bar arr) := fun _ h => by cases h; exact ⟨Nat.le_of_ble_eq_true rfl, rfl, fun _ => rfl⟩
theorem spawn (gd : Guard) (d : Reg) (a : Src) (b : Src) : Statement (.spawn gd d a b) := fun _ h => by cases h; exact ⟨Nat.le_of_ble_eq_true rfl, rfl, fun _ => rfl⟩
theorem exit (gd : Guard) : Statement (.exit gd) := fun _ h => by cases h; exact ⟨Nat.le_of_ble_eq_true rfl, rfl, fun _ => rfl⟩
theorem enq (gd : Guard) (d : Reg) (a : Src) : Statement (.enq gd d a) := fun _ h => by cases h; exact ⟨Nat.le_of_ble_eq_true rfl, rfl, fun _ => rfl⟩
theorem deq (gd : Guard) (d : Reg) (a : Src) : Statement (.deq gd d a) := fun _ h => by cases h; exact ⟨Nat.le_of_ble_eq_true rfl, rfl, fun _ => rfl⟩
theorem rgn (gd : Guard) (a : Option Reg) (n : Fin 5) : Statement (.rgn gd a n) := fun _ h => by cases h; exact ⟨Nat.le_of_ble_eq_true rfl, rfl, fun _ => rfl⟩
theorem waitt (gd : Guard) (a : Src) : Statement (.waitt gd a) := fun _ h => by cases h; exact ⟨Nat.le_of_ble_eq_true rfl, rfl, fun _ => rfl⟩
theorem cpy (gd : Guard) (a : Src) (b : Src) (e : ECom) (bar : Option (Fin 16)) : Statement (.cpy gd a b e bar) := fun _ h => by cases h; exact ⟨Nat.le_of_ble_eq_true rfl, rfl, fun _ => rfl⟩
theorem cpy2d (gd : Guard) (a : Src) (b : Src) (e : ECom) (bar : Option (Fin 16)) : Statement (.cpy2d gd a b e bar) := fun _ h => by cases h; exact ⟨Nat.le_of_ble_eq_true rfl, rfl, fun _ => rfl⟩
theorem tseal (gd : Guard) (d : Dest) (a : Src) (ppr : Fin 4) (kind : RecKind) : Statement (.tseal gd d a ppr kind) := fun _ h => by cases h; exact ⟨Nat.le_of_ble_eq_true rfl, rfl, fun _ => rfl⟩
theorem tunsl (gd : Guard) (a : Src) : Statement (.tunsl gd a) := fun _ h => by cases h; exact ⟨Nat.le_of_ble_eq_true rfl, rfl, fun _ => rfl⟩
theorem tcvp (gd : Guard) (a : Src) (b : Src) (e : ECom) (fs : Fin 8) (sci : Bool) : Statement (.tcvp gd a b e fs sci) := fun _ h => by cases h; exact ⟨Nat.le_of_ble_eq_true rfl, rfl, fun _ => rfl⟩
theorem tmma (gd : Guard) (a : Src) (b : Src) (e : ECom) (fs : Fin 8) (acc : Fin 128) (q : Bool) : Statement (.tmma gd a b e fs acc q) := fun _ h => by cases h; exact ⟨Nat.le_of_ble_eq_true rfl, rfl, fun _ => rfl⟩
theorem accz (gd : Guard) (e : ECom) (acc : Fin 128) : Statement (.accz gd e acc) := fun _ h => by cases h; exact ⟨Nat.le_of_ble_eq_true rfl, rfl, fun _ => rfl⟩
theorem accld (gd : Guard) (a : Src) (e : ECom) (fs : Fin 8) (acc : Fin 128) : Statement (.accld gd a e fs acc) := fun _ h => by cases h; exact ⟨Nat.le_of_ble_eq_true rfl, rfl, fun _ => rfl⟩
theorem accst (gd : Guard) (a : Src) (e : ECom) (fs : Fin 8) (acc : Fin 128) : Statement (.accst gd a e fs acc) := fun _ h => by cases h; exact ⟨Nat.le_of_ble_eq_true rfl, rfl, fun _ => rfl⟩
theorem accadd (gd : Guard) (a : Src) (e : ECom) (acc : Fin 128) : Statement (.accadd gd a e acc) := fun _ h => by cases h; exact ⟨Nat.le_of_ble_eq_true rfl, rfl, fun _ => rfl⟩
theorem accred (gd : Guard) (a : Src) (e : ECom) (fs : Fin 8) (acc : Fin 128) (col : Bool) : Statement (.accred gd a e fs acc col) := fun _ h => by cases h; exact ⟨Nat.le_of_ble_eq_true rfl, rfl, fun _ => rfl⟩
theorem tselk (gd : Guard) (a : Src) (b : Src) (e : ECom) (km1 : Fin 64) : Statement (.tselk gd a b e km1) := fun _ h => by cases h; exact ⟨Nat.le_of_ble_eq_true rfl, rfl, fun _ => rfl⟩
theorem bankrun (gd : Guard) (a : Src) (b : Src) (e : ECom) : Statement (.bankrun gd a b e) := fun _ h => by cases h; exact ⟨Nat.le_of_ble_eq_true rfl, rfl, fun _ => rfl⟩
theorem bankst (gd : Guard) (a : Src) (b : Src) (e : ECom) : Statement (.bankst gd a b e) := fun _ h => by cases h; exact ⟨Nat.le_of_ble_eq_true rfl, rfl, fun _ => rfl⟩
theorem walk (gd : Guard) (a : Src) (b : Src) (e : ECom) : Statement (.walk gd a b e) := fun _ h => by cases h; exact ⟨Nat.le_of_ble_eq_true rfl, rfl, fun _ => rfl⟩
theorem coll (gd : Guard) (a : Src) (e : ECom) : Statement (.coll gd a e) := fun _ h => by cases h; exact ⟨Nat.le_of_ble_eq_true rfl, rfl, fun _ => rfl⟩
theorem cksum (gd : Guard) (a : Src) (b : Src) (e : ECom) : Statement (.cksum gd a b e) := fun _ h => by cases h; exact ⟨Nat.le_of_ble_eq_true rfl, rfl, fun _ => rfl⟩
theorem gset (gd : Guard) (slot : Fin 16) : Statement (.gset gd slot) := fun _ h => by cases h; exact ⟨Nat.le_of_ble_eq_true rfl, rfl, fun _ => rfl⟩
theorem gres (gd : Guard) (inv : Bool) (k : Fin 8) (slot : Fin 16) : Statement (.gres gd inv k slot) := fun _ h => by cases h; exact ⟨Nat.le_of_ble_eq_true rfl, rfl, fun _ => rfl⟩
theorem waitcnt (gd : Guard) (a : Option Src) (n : Fin 64) (cls : EngClass) : Statement (.waitcnt gd a n cls) := fun _ h => by cases h; exact ⟨Nat.le_of_ble_eq_true rfl, rfl, fun _ => rfl⟩
theorem ecanc (gd : Guard) (last : Bool) (cls : EngClass) : Statement (.ecanc gd last cls) := fun _ h => by cases h; exact ⟨Nat.le_of_ble_eq_true rfl, rfl, fun _ => rfl⟩
theorem tstat (gd : Guard) (d : Dest) (sel : Fin 10) : Statement (.tstat gd d sel) := fun _ h => by cases h; exact ⟨Nat.le_of_ble_eq_true rfl, rfl, fun _ => rfl⟩
theorem trap (gd : Guard) (imm : Word) : Statement (.trap gd imm) := fun _ h => by cases h; exact ⟨Nat.le_of_ble_eq_true rfl, rfl, fun _ => rfl⟩
theorem rte (gd : Guard) : Statement (.rte gd) := fun _ h => by cases h; exact ⟨Nat.le_of_ble_eq_true rfl, rfl, fun _ => rfl⟩
theorem rdsys (gd : Guard) (d : Dest) (reg : SysReg) : Statement (.rdsys gd d reg) := fun _ h => by cases h; exact ⟨Nat.le_of_ble_eq_true rfl, rfl, fun _ => rfl⟩
theorem wrsys (gd : Guard) (a : Src) (reg : SysReg) : Statement (.wrsys gd a reg) := fun _ h => by cases h; exact ⟨Nat.le_of_ble_eq_true rfl, rfl, fun _ => rfl⟩
theorem wsave (gd : Guard) : Statement (.wsave gd) := fun _ h => by cases h; exact ⟨Nat.le_of_ble_eq_true rfl, rfl, fun _ => rfl⟩
theorem wrstr (gd : Guard) : Statement (.wrstr gd) := fun _ h => by cases h; exact ⟨Nat.le_of_ble_eq_true rfl, rfl, fun _ => rfl⟩
theorem bkpt (gd : Guard) (imm : Word) : Statement (.bkpt gd imm) := fun _ h => by cases h; exact ⟨Nat.le_of_ble_eq_true rfl, rfl, fun _ => rfl⟩
theorem rdtime (gd : Guard) (d : Dest) : Statement (.rdtime gd d) := fun _ h => by cases h; exact ⟨Nat.le_of_ble_eq_true rfl, rfl, fun _ => rfl⟩
theorem cerq7Read (gd : Guard) (d : Dest) : Statement (.cerq7Read gd d) := fun _ h => by cases h; exact ⟨Nat.le_of_ble_eq_true rfl, rfl, fun _ => rfl⟩
theorem unassignedOpcode (w : IWord) : Statement (.unassignedOpcode w) := fun _ h => nomatch h
theorem cksumChunk (id : Nat) : Statement (.cksumChunk id) := fun _ h => nomatch h
theorem chunkSend (id : Nat) : Statement (.chunkSend id) := fun _ h => nomatch h
theorem chunkReceive (id step chunk : Nat) (data : List Byte) (sum : Nat) : Statement (.chunkReceive id step chunk data sum) := fun _ h => nomatch h
theorem chunkReRequest (id step chunk : Nat) : Statement (.chunkReRequest id step chunk) := fun _ h => nomatch h
theorem chunkAcknowledge (id step chunk : Nat) : Statement (.chunkAcknowledge id step chunk) := fun _ h => nomatch h
theorem shapeReceive (id : Nat) (shape : List Nat) : Statement (.shapeReceive id shape) := fun _ h => nomatch h
theorem launchAcceptance  : Statement (.launchAcceptance) := fun _ h => nomatch h
theorem eligibilityTest (queue : Nat) : Statement (.eligibilityTest queue) := fun _ h => nomatch h
theorem placementPass  : Statement (.placementPass) := fun _ h => nomatch h
theorem contextSaveStart (t : TeamId) : Statement (.contextSaveStart t) := fun _ h => nomatch h
theorem contextSaveComplete (t : TeamId) : Statement (.contextSaveComplete t) := fun _ h => nomatch h
theorem launchEnd (lid : Nat) : Statement (.launchEnd lid) := fun _ h => nomatch h
theorem snapshotCopy (lid page : Nat) : Statement (.snapshotCopy lid page) := fun _ h => nomatch h
theorem wloadComplete (die : Nat) : Statement (.wloadComplete die) := fun _ h => nomatch h
theorem fetchParityRefetch (p : PartId) (line : Pc) : Statement (.fetchParityRefetch p line) := fun _ h => nomatch h
theorem replayAdmission (p : PartId) : Statement (.replayAdmission p) := fun _ h => nomatch h
theorem registerWriteComplete (id : Nat) : Statement (.registerWriteComplete id) := fun _ h => nomatch h
theorem barwtDeadline (t : Tid) : Statement (.barwtDeadline t) := fun _ h => nomatch h
theorem waittExpiry (t : Tid) : Statement (.waittExpiry t) := fun _ h => nomatch h
theorem cohortRelease (c : CohId) : Statement (.cohortRelease c) := fun _ h => nomatch h
theorem windowAccessArrival (id : Nat) : Statement (.windowAccessArrival id) := fun _ h => nomatch h
theorem windowAnswer (id : Nat) : Statement (.windowAnswer id) := fun _ h => nomatch h
theorem subscriptionUpdate (id : Nat) : Statement (.subscriptionUpdate id) := fun _ h => nomatch h
theorem subscriptionInvalidation (id : Nat) : Statement (.subscriptionInvalidation id) := fun _ h => nomatch h
theorem gateReleaseApply (lid gate : Nat) : Statement (.gateReleaseApply lid gate) := fun _ h => nomatch h
theorem homeAccessPerform (id : Nat) : Statement (.homeAccessPerform id) := fun _ h => nomatch h
theorem maintenanceComplete (id : Nat) : Statement (.maintenanceComplete id) := fun _ h => nomatch h
theorem writeBackAccept (id : Nat) : Statement (.writeBackAccept id) := fun _ h => nomatch h
theorem weightRefreshEnd (die bank : Nat) : Statement (.weightRefreshEnd die bank) := fun _ h => nomatch h
theorem missTableWaitEnd (core : CoreId) : Statement (.missTableWaitEnd core) := fun _ h => nomatch h
theorem translationShootdown (id : Nat) : Statement (.translationShootdown id) := fun _ h => nomatch h
theorem rfqWaitEnd (die : Nat) : Statement (.rfqWaitEnd die) := fun _ h => nomatch h
theorem vnpChainTake (key : PageKey) : Statement (.vnpChainTake key) := fun _ h => nomatch h
theorem install (key : PageKey) : Statement (.install key) := fun _ h => nomatch h
theorem wake (key : PageKey) : Statement (.wake key) := fun _ h => nomatch h
theorem ownershipStep (key : PageKey) : Statement (.ownershipStep key) := fun _ h => nomatch h
theorem engineCommandStart (core : CoreId) (cls : EngClass) : Statement (.engineCommandStart core cls) := fun _ h => nomatch h
theorem notBeforeMet (id : Nat) : Statement (.notBeforeMet id) := fun _ h => nomatch h
theorem commandForward (core : CoreId) (cls : EngClass) : Statement (.commandForward core cls) := fun _ h => nomatch h
theorem commandReport (c : CohId) (cls : EngClass) : Statement (.commandReport c cls) := fun _ h => nomatch h
theorem cancelStop (id : Nat) : Statement (.cancelStop id) := fun _ h => nomatch h
theorem cpyStep (id : Nat) : Statement (.cpyStep id) := fun _ h => nomatch h
theorem tcvpStep (id : Nat) : Statement (.tcvpStep id) := fun _ h => nomatch h
theorem tmmaStep (id : Nat) : Statement (.tmmaStep id) := fun _ h => nomatch h
theorem accCommandRun (id : Nat) : Statement (.accCommandRun id) := fun _ h => nomatch h
theorem tselkRun (id : Nat) : Statement (.tselkRun id) := fun _ h => nomatch h
theorem bankRowStep (b : BankId) : Statement (.bankRowStep b) := fun _ h => nomatch h
theorem bankEngineResume (b : BankId) : Statement (.bankEngineResume b) := fun _ h => nomatch h
theorem bankstSample (id : Nat) (b : BankId) : Statement (.bankstSample id b) := fun _ h => nomatch h
theorem walkStep (id : Nat) : Statement (.walkStep id) := fun _ h => nomatch h
theorem walkOutput (id : Nat) : Statement (.walkOutput id) := fun _ h => nomatch h
theorem residueRetry (p : PartId) (t : Tid) (unit : Nat) (passes : Bool) : Statement (.residueRetry p t unit passes) := fun _ h => nomatch h
theorem l2Eviction (line : Nat) : Statement (.l2Eviction line) := fun _ h => nomatch h
theorem memsideCapacityEviction (line : Nat) : Statement (.memsideCapacityEviction line) := fun _ h => nomatch h
theorem weightRefreshStart (die bank : Nat) : Statement (.weightRefreshStart die bank) := fun _ h => nomatch h
theorem pageWalk (core : CoreId) (queue : Nat) (va : Nat) (kind : AccKind) : Statement (.pageWalk core queue va kind) := fun _ h => nomatch h
theorem dirq (src : Nat) (key : PageKey) (write : Bool) (seq : Nat) : Statement (.dirq src key write seq) := fun _ h => nomatch h
theorem directoryReply (key : PageKey) (seq : Nat) (r : DirReply) : Statement (.directoryReply key seq r) := fun _ h => nomatch h
theorem pageDataMessage (key : PageKey) (seq idx : Nat) (data : List Byte) : Statement (.pageDataMessage key seq idx data) := fun _ h => nomatch h
theorem stepTimeout (key : PageKey) : Statement (.stepTimeout key) := fun _ h => nomatch h
theorem faultHardTimeout (key : PageKey) : Statement (.faultHardTimeout key) := fun _ h => nomatch h
theorem declinedQueueForward (die : Nat) : Statement (.declinedQueueForward die) := fun _ h => nomatch h
theorem leaseRenewal (key : PageKey) : Statement (.leaseRenewal key) := fun _ h => nomatch h
theorem leaseLapse (key : PageKey) : Statement (.leaseLapse key) := fun _ h => nomatch h
theorem renewalRequest (m : PageStep) (src : Nat) : Statement (.renewalRequest m src) := fun _ h => nomatch h
theorem homeLeaseEnd (key : PageKey) (module : Nat) : Statement (.homeLeaseEnd key module) := fun _ h => nomatch h
theorem downgrade (m : PageStep) (lease : Nat) : Statement (.downgrade m lease) := fun _ h => nomatch h
theorem revoke (m : PageStep) : Statement (.revoke m) := fun _ h => nomatch h
theorem recallPage (m : PageStep) : Statement (.recallPage m) := fun _ h => nomatch h
theorem release (m : PageStep) (src : Nat) : Statement (.release m src) := fun _ h => nomatch h
theorem writeBack (m : PageStep) (src frame : Nat) (data : List Byte) : Statement (.writeBack m src frame data) := fun _ h => nomatch h
theorem clockEviction  : Statement (.clockEviction) := fun _ h => nomatch h
theorem noFrameDecline (key : PageKey) : Statement (.noFrameDecline key) := fun _ h => nomatch h
theorem collectiveNoProgress (id : Nat) : Statement (.collectiveNoProgress id) := fun _ h => nomatch h
theorem scanTest  : Statement (.scanTest) := fun _ h => nomatch h
theorem scanTestComplete (failing : List CoreId) : Statement (.scanTestComplete failing) := fun _ h => nomatch h
theorem patrolPassStart  : Statement (.patrolPassStart) := fun _ h => nomatch h
theorem lehrSectorScrub (sector : Nat) : Statement (.lehrSectorScrub sector) := fun _ h => nomatch h
theorem passComplete  : Statement (.passComplete) := fun _ h => nomatch h
theorem rebuildLineMove (stack group : Nat) : Statement (.rebuildLineMove stack group) := fun _ h => nomatch h
theorem rebuildComplete (stack group : Nat) : Statement (.rebuildComplete stack group) := fun _ h => nomatch h
theorem linkLaneMappedOut (l : LinkId) : Statement (.linkLaneMappedOut l) := fun _ h => nomatch h
theorem linkFailure (l : LinkId) : Statement (.linkFailure l) := fun _ h => nomatch h
theorem flitRetry (l : LinkId) : Statement (.flitRetry l) := fun _ h => nomatch h
theorem umrilMessageReceive (m : Umril) : Statement (.umrilMessageReceive m) := fun _ h => nomatch h
theorem planeHealthChange (plane : Nat) (up : Bool) : Statement (.planeHealthChange plane up) := fun _ h => nomatch h
theorem uetRetransmission (plane : Nat) : Statement (.uetRetransmission plane) := fun _ h => nomatch h
theorem ptpMessage (m : Ptp) : Statement (.ptpMessage m) := fun _ h => nomatch h
theorem offsetAlarm  : Statement (.offsetAlarm) := fun _ h => nomatch h
theorem submit (seq : Word) (pa : Nat) : Statement (.submit seq pa) := fun _ h => nomatch h
theorem cancel (seq : Word) (lid : Nat) : Statement (.cancel seq lid) := fun _ h => nomatch h
theorem bindQueue (seq : Word) (queue asid root : Nat) : Statement (.bindQueue seq queue asid root) := fun _ h => nomatch h
theorem shoot (seq : Word) (asid vpn pages : Nat) : Statement (.shoot seq asid vpn pages) := fun _ h => nomatch h
theorem wload (seq : Word) (die off pa len : Nat) : Statement (.wload seq die off pa len) := fun _ h => nomatch h
theorem grant (seq : Word) (queue stack first count : Nat) : Statement (.grant seq queue stack first count) := fun _ h => nomatch h
theorem retire (seq : Word) (stack channel : Nat) : Statement (.retire seq stack channel) := fun _ h => nomatch h
theorem pwrset (seq : Word) (scope : PwrScope) (target : Nat) : Statement (.pwrset seq scope target) := fun _ h => nomatch h
theorem powerGate (scope : PwrScope) : Statement (.powerGate scope) := fun _ h => nomatch h
theorem powerReturnComplete (d : Nat) : Statement (.powerReturnComplete d) := fun _ h => nomatch h
theorem dfrespRetry (seq : Word) (die rfqi : Nat) : Statement (.dfrespRetry seq die rfqi) := fun _ h => nomatch h
theorem dfrespTrap (seq : Word) (die rfqi : Nat) : Statement (.dfrespTrap seq die rfqi) := fun _ h => nomatch h
theorem dfrespAbort (seq : Word) (die rfqi : Nat) : Statement (.dfrespAbort seq die rfqi) := fun _ h => nomatch h
theorem tableHmap (seq : Word) (pa : Nat) : Statement (.tableHmap seq pa) := fun _ h => nomatch h
theorem tableMaddr (seq : Word) (maddr : List (Nat × Nat × Nat)) : Statement (.tableMaddr seq maddr) := fun _ h => nomatch h
theorem tableFramePool (seq : Word) (frames : List Nat) (low : Nat) : Statement (.tableFramePool seq frames low) := fun _ h => nomatch h
theorem paramAge (seq : Word) (ms : Nat) : Statement (.paramAge seq ms) := fun _ h => nomatch h
theorem paramLease (seq : Word) (ms : Nat) : Statement (.paramLease seq ms) := fun _ h => nomatch h
theorem paramPass (seq : Word) (hours : Nat) : Statement (.paramPass seq hours) := fun _ h => nomatch h
theorem paramTestInterval (seq : Word) (minutes : Nat) : Statement (.paramTestInterval seq minutes) := fun _ h => nomatch h
theorem paramAlertThreshold (seq : Word) (die celsius : Nat) : Statement (.paramAlertThreshold seq die celsius) := fun _ h => nomatch h
theorem mode (seq : Word) (queue : Nat) (collTest debug : Bool) : Statement (.mode seq queue collTest debug) := fun _ h => nomatch h
theorem fwdstep (seq : Word) (ptc : BitVec 64) : Statement (.fwdstep seq ptc) := fun _ h => nomatch h
theorem ectl (seq : Word) (place : CtrPlace) (n : Nat) (ctl : Word) : Statement (.ectl seq place n ctl) := fun _ h => nomatch h
theorem counterClear (place : CtrPlace) (n : Nat) : Statement (.counterClear place n) := fun _ h => nomatch h
theorem invalidHostCommand (seq : Word) (head : CommandHead) : Statement (.invalidHostCommand seq head) := fun _ h => nomatch h
theorem thermalAlert (die sensor celsius : Nat) : Statement (.thermalAlert die sensor celsius) := fun _ h => nomatch h
theorem thermalTrip (die sensor celsius : Nat) : Statement (.thermalTrip die sensor celsius) := fun _ h => nomatch h
theorem powerUp (b : BootInput) : Statement (.powerUp b) := fun _ h => nomatch h
theorem pageReadRequest (src : Nat) (key : PageKey) (frame seq : Nat) : Statement (.pageReadRequest src key frame seq) := fun _ h => nomatch h
theorem renewalReply (m : PageStep) (homeTick : Nat) : Statement (.renewalReply m homeTick) := fun _ h => nomatch h
theorem sensorFallBelowThreshold (die sensor celsius : Nat) : Statement (.sensorFallBelowThreshold die sensor celsius) := fun _ h => nomatch h

end Sys2Proof.Laws.Encoding
end

