-- ==== Sys2Proof/Safety.lean ====
section
/-!
DEFINITION. The terms that claims use: a thread that executes an instruction, what a result leaves in it, what an instruction
leaves alone, and the invariants of the machine.
-/

namespace Sys2Proof.Machine

/-! ### Executing -/

/-- A thread executes the instruction in progress: it is of the group and its guard is true (R54, R55). -/
structure Executes (s : State) (is : Issue) (gd : Guard) (t : Tid) (th : Thread) : Prop where
  issue : s.issue = some is
  member : t ∈ is.tids
  entry : tget s.threads t = some th
  guard : guardTrue gd th = true

/-- An instruction answers a next state of which something holds. -/
def Answers (i : Instr) (s : State) (P : State → Prop) : Prop := ∃ s', exec i s = .next s' ∧ P s'

/-! ### Results -/

/-- A destination of n registers takes what a result writes to it: it names registers that exist, and where they are
s-registers the thread is the lowest executing lane (R23). -/
def Lands (s : State) (gd : Guard) (t : Tid) (th : Thread) (r : Reg) (n : Nat) : Prop :=
  match r with
  | .g m => m.val + n ≤ 16
  | .w m => m.val + n ≤ 32 ∧ 0 < n ∧ n ≤ th.depth
  | .s m => m.val + n ≤ 32 ∧ (s.execs gd).head? = some t ∧ (tget s.cohorts t.coh).isSome
  | .k _ => False

/-- What an instruction leaves of its thread as it was: the stack's frames, the spill area, the trap record, the exception
registers and the status. -/
structure SameContext (th th' : Thread) : Prop where
  wb : th'.wb = th.wb
  wres : th'.wres = th.wres
  wdep : th'.wdep = th.wdep
  spa : th'.spa = th.spa
  trw : th'.trw = th.trw
  epc : th'.epc = th.epc
  hnd : th'.hnd = th.hnd
  status : th'.status = th.status

/-- What a completed result leaves (R58, R63, R87, R159): the thread past its slot, the latch, the flags, the destination unless
wbs = 1, and every register that the destination is not. -/
structure GotResult (s : State) (gd : Guard) (is : Issue) (t : Tid) (th : Thread) (d : Dest) (ws : List Word) (fl : FlagSet)
    (s' : State) : Prop where
  pc : (s'.thread t).pc = nextPc is.pc
  latch : (s'.thread t).latches[d.rl] = .valid (ws.headD 0#32)
  latches : ∀ n : Fin 4, n ≠ d.rl → (s'.thread t).latches[n] = th.latches[n]
  flags : (s'.thread t).flg = th.flg ||| fl
  dest : d.wbs = false → Lands s gd t th d.reg ws.length → ∀ (i : Nat) (h : i < ws.length), readReg s' t (d.reg.plus i) = ws[i]
  others : ∀ r : Reg, (d.wbs = true ∨ ∀ i < ws.length, cellOf th r ≠ cellOf th (d.reg.plus i)) → readReg s' t r = readReg s t r
  preds : (s'.thread t).preds = th.preds
  context : SameContext th (s'.thread t)

/-- What predicates written leave (R135, R139): the thread past its slot, the predicates named, and all else of it. -/
structure GotPreds (s : State) (is : Issue) (t : Tid) (th : Thread) (ps : List (Fin 8 × Bool)) (s' : State) : Prop where
  pc : (s'.thread t).pc = nextPc is.pc
  set : ∀ p ∈ ps, (s'.thread t).pred p.1 = p.2
  others : ∀ k : Fin 8, (∀ p ∈ ps, p.1 ≠ k) → (s'.thread t).pred k = th.pred k
  registers : ∀ r, readReg s' t r = readReg s t r
  latches : (s'.thread t).latches = th.latches
  flags : (s'.thread t).flg = th.flg
  context : SameContext th (s'.thread t)

/-- A thread's registers, latches, predicates and flags are as they were. -/
structure SameValues (s : State) (t : Tid) (th : Thread) (s' : State) : Prop where
  registers : ∀ r, readReg s' t r = readReg s t r
  preds : (s'.thread t).preds = th.preds
  flags : (s'.thread t).flg = th.flg

/-- A thread that a transfer has taken to a PC: it arrives there, its latches invalid (R41, R59, R63), its values as they were. -/
structure Transferred (s : State) (t : Tid) (th : Thread) (pc : Pc) (s' : State) : Prop where
  pc : (s'.thread t).pc = pc
  status : (s'.thread t).status = .arriving
  latches : (s'.thread t).latches = noLatches
  values : SameValues s t th s'

/-- A thread that has gone past its slot with nothing else of it changed (R63). -/
structure Passed (s : State) (is : Issue) (t : Tid) (th : Thread) (s' : State) : Prop where
  pc : (s'.thread t).pc = nextPc is.pc
  latches : (s'.thread t).latches = th.latches
  context : SameContext th (s'.thread t)
  values : SameValues s t th s'

/-- A thread that has gone past its slot with its registers, predicates and flags as they were; a latch may await a value. -/
structure Issued (s : State) (is : Issue) (t : Tid) (th : Thread) (s' : State) : Prop where
  pc : (s'.thread t).pc = nextPc is.pc
  context : SameContext th (s'.thread t)
  values : SameValues s t th s'

/-- The executing threads' flat accesses all pass their checks (R296, R320), in the state that checking them leaves, and the miss
table and that of translation misses have room for them all (R463), at most so many for each thread. -/
structure FlatPass (s : State) (is : Issue) (gd : Guard) (q : Asked) (addr : Tid → Except Trap DWord) (per : Nat)
    (js : List (Tid × Judged)) (s1 : State) : Prop where
  issue : s.issue = some is
  judged : judgeAll q addr (s.execs gd) s = (js, s1)
  pass : ∀ p ∈ js, ∃ va pa r, p.2 = .ok va pa r
  room : s1.missRoom is.part.core (per * js.length) = true

/-- The levels of memory hold what they held: DRAM, the home L2 slices and the memory-side caches. -/
def SameMemory (s s' : State) : Prop :=
  s'.mem.dram = s.mem.dram ∧ s'.mem.l2 = s.mem.l2 ∧ s'.mem.counted = s.mem.counted ∧ s'.mem.held = s.mem.held

/-- The home L2 slices and the memory-side caches have room for so many sectors more without giving a line up (R254). -/
def Roomy (s : State) (n : Nat) : Prop :=
  s.mem.l2.length + n ≤ l2Capacity ∧ s.mem.counted.length + s.mem.held.length + n ≤ sideCapacity

/-- A sector is whole wherever a level holds it: thirty-two bytes. -/
structure WholeSector (s : State) (sec : Nat) : Prop where
  l2 : ∀ l, tget s.mem.l2 sec = some l → l.data.length = 32
  back : ∀ w ∈ s.mem.writeBacks, w.sector = sec → w.data.length = 32
  side : ∀ x, s.sideCopy sec = some x → x.1.length = 32

/-- A result of n words that a thread's registers await (R25): an outstanding write of its destination's registers, which is the
cohort's where they are s-registers and the thread is the lowest executing lane (R23), and one of none where it is suppressed (R58). -/
structure Awaits (s : State) (gd : Guard) (t : Tid) (th : Thread) (d : Dest) (n id : Nat) (s' : State) : Prop where
  own : ∃ p ∈ (s'.thread t).pends, p.id = id ∧ p.live = p.cells.map (fun _ => true) ∧
    p.cells = if d.wbs = true ∨ d.reg.isS = true then [] else cellsOf th d.reg n
  shared : d.wbs = false → d.reg.isS = true → (s.execs gd).head? = some t → (tget s.cohorts t.coh).isSome = true →
    ∃ p ∈ (s'.cohort t.coh).pends, p.id = id ∧ p.cells = cellsOf th d.reg n

/-- What a load that has issued leaves (R25, R56, R147): its thread past its slot, its latch and an outstanding write of its
destination's n registers awaiting a value, and the value of the bytes at a physical address on its way: from their home, from the
core's copy, or from the weight store. -/
structure Loading (s : State) (gd : Guard) (is : Issue) (t : Tid) (th : Thread) (d : Dest) (n pa size : Nat) (op : AccOp) (s' : State) :
    Prop where
  issued : Issued s is t th s'
  waits : ∃ id, (s'.thread t).latches[d.rl] = .pend id 0 ∧ Awaits s gd t th d n id s' ∧
    ((∃ a ∈ s'.mem.accesses, a.tid = t ∧ pa ≤ a.pa ∧ a.pa < pa + size ∧ a.op = op ∧ ∃ r, a.ret = some r ∧ r.pend = id) ∨
     (∃ x ∈ s'.mem.arrivals, x.tid = t ∧ x.pend = id) ∨ ∃ x ∈ s'.mem.weightReads, x.tid = t ∧ x.pend = id)

/-- An access's own fields: thread, virtual and physical address, size and operation. -/
def Access.what (a : Access) : Tid × Nat × Nat × Nat × AccOp := (a.tid, a.va, a.pa, a.size, a.op)

/-- An instruction answers, for every thread that executes it, a next state of which something holds. -/
def Does (i : Instr) (gd : Guard) (s : State) (t : Tid) (P : Issue → Thread → State → Prop) : Prop :=
  ∀ is th, Executes s is gd t th → Answers i s (P is th)

/-- An instruction answers, for every thread that executes it and that some condition holds of, a next state of which something
holds. -/
def DoesWhere (i : Instr) (gd : Guard) (s : State) (t : Tid) (C : Issue → Thread → Prop) (P : Issue → Thread → State → Prop) : Prop :=
  ∀ is th, Executes s is gd t th → C is th → Answers i s (P is th)

/-- An instruction completes for a thread that executes it, with the words of its destination and its flags. -/
def Completes (i : Instr) (gd : Guard) (d : Dest) (s : State) (t : Tid) (ws : List Word) (fl : FlagSet) : Prop :=
  ∀ is th, Executes s is gd t th → Answers i s (GotResult s gd is t th d ws fl)

/-- A register opens a handle of a kind in a team's table (R361, R362). -/
def Opens (s : State) (t : Tid) (m : Team) (a : Src) (pos : Nat) (kind : RecKind) (r : SealedRec) : Prop :=
  ∃ h, readSrc s t a = .ok h ∧ openHandle m { word := h, pos := pos, odd := false, kind := kind } = .ok r

/-- A pair opens two handles, the even register's first (R393). -/
def OpensPair (s : State) (t : Tid) (m : Team) (a : Src) (pos : Nat) (even odd : RecKind) (h0 h1 : Word) (r0 r1 : SealedRec) : Prop :=
  readRegs s t a 2 = .ok [h0, h1] ∧ openHandle m { word := h0, pos := pos, odd := false, kind := even } = .ok r0 ∧
    openHandle m { word := h1, pos := pos, odd := true, kind := odd } = .ok r1

/-- A command enqueued for a thread's cohort (R343, R346, R347): new, queued, with the modifiers of its instruction. -/
def Enqueued (s : State) (u : Tid) (cls : EngClass) (e : ECom) (op : CmdOp) (nb : Option DWord) (s' : State) : Prop :=
  ∃ c ∈ s'.eng.cmds, s.nextId ≤ c.id ∧ c.coh = u.coh ∧ c.core = s.coreOf u ∧ c.cls = cls ∧ c.op = op ∧ c.token = e.tk ∧
    c.guard = e.gq ∧ c.notBefore = nb ∧ c.st = .queued ∧ c.cancelled = false ∧ c.forwarded = false

/-- A command of an engine can issue (R345, R346, R348): its lowest executing thread's team and cohort are there, its not-before
time can be read, and the class has room. -/
structure CanIssue (s : State) (gd : Guard) (u : Tid) (m : Team) (e : ECom) (cls : EngClass) (nb : Option DWord) (n : Nat) : Prop where
  lead : (s.execs gd).head? = some u
  team : tget s.teams u.coh.team = some m
  cohort : (tget s.cohorts u.coh).isSome = true
  notBefore : notBeforeOf s u e = .ok nb
  room : s.engineRoom u cls n = true

/-- An instruction that issues one command (R346): its threads go on, the command is enqueued, and the counter counts it. -/
def Issues (i : Instr) (gd : Guard) (s : State) (t u : Tid) (cls : EngClass) (e : ECom) (op : CmdOp) (nb : Option DWord) : Prop :=
  Does i gd s t fun is th s' => Passed s is t th s' ∧ Enqueued s u cls e op nb s' ∧
    (s'.cohort u.coh).counters[classIdx cls] = (s.cohort u.coh).counters[classIdx cls] + 1

/-- The words of a trap record (R434): class, cause, slot of a pair and nesting, the trap PC, the instruction word, the information
words, the latches' values, the predicates, the valid latches and the slots counted. -/
structure IsRecord (is : Issue) (th : Thread) (tr : Trap) (v : Vector Word 16) : Prop where
  cls : v[0].toNat % 256 = tr.cls
  cause : v[0].toNat / 256 % 256 = tr.cause
  second : v[0].getLsbD 16 = is.second
  nest : v[0].getLsbD 17 = th.hnd
  pc : v[1] = is.pc.setWidth 32 ∧ v[2].toNat = is.pc.toNat / 2 ^ 32
  word : v[5] ++ v[4] ++ v[3] = is.word
  info : v[6] = tr.info0 ∧ v[7] = tr.info1 ∧ v[8] = tr.info2
  latches : ∀ (n : Fin 4) (w : Word), th.latches[n] = .valid w → v[9 + n.val] = w ∧ v[13].getLsbD n.val = true
  preds : v[13].toNat / 256 = th.seen.toNat
  rsl : v[14].toNat = is.rsl % 32

/-- A thread that has met a trap of a class and cause that its fields hold (R431, R438 to R441): at its handler where the table has
one and it is in none, else stopped with its record reported; nothing of its own registers, predicates, window and flags changes. -/
structure TrapTaken (s : State) (is : Issue) (t : Tid) (th : Thread) (tr : Trap) (s' : State) : Prop where
  delivered : ∀ hpc, handlerOf s t tr.cls = some hpc → th.hnd = false →
    (s'.thread t).pc = hpc ∧ (s'.thread t).hnd = true ∧ (s'.thread t).status = .arriving ∧ (s'.thread t).latches = noLatches ∧
    (s'.thread t).epc = (if tr.cls = 14 ∨ tr.cls = 15 then nextPc is.pc else is.pc) ∧ IsRecord is th tr (s'.thread t).trw
  stopped : (handlerOf s t tr.cls = none ∨ th.hnd = true) →
    (s'.thread t).pc = th.pc ∧ (s'.thread t).status = .waiting ∧
    ∃ x ∈ s'.traps, x.tid = t ∧ x.core = is.part.core ∧ x.part = is.part.part ∧ IsRecord is th tr x.record
  own : (s'.thread t).g = th.g ∧ (s'.thread t).stack = th.stack ∧ (s'.thread t).preds = th.preds ∧ (s'.thread t).flg = th.flg
  window : (s'.thread t).wb = th.wb ∧ (s'.thread t).wres = th.wres ∧ (s'.thread t).wdep = th.wdep ∧ (s'.thread t).spa = th.spa

/-- A thread that has met a trap, every register that it can name as it was, the s-registers among them. -/
structure Trapped (s : State) (is : Issue) (t : Tid) (th : Thread) (tr : Trap) (s' : State) : Prop where
  trap : TrapTaken s is t th tr s'
  values : SameValues s t th s'

/-- Where a command stands. -/
def CmdStands (id : Nat) (st : CmdSt) (s : State) : Prop := (s.cmd id).map (fun c => c.st) = some st

/-- A command that has completed a step of so many (R364 to R366): its step counter and its progress one on, ended after the last
step, and stopped there where it is cancelled. -/
def Stepped (c : Command) (progress total : Nat) (s : State) : Prop :=
  (s.cmd c.id).map (fun d => (d.st, d.step, d.count)) =
    some (if total ≤ c.step + 1 then .ended 0 else if c.cancelled then .ended 4 else .running, c.step + 1,
      min (c.count + progress) (2 ^ 24 - 1))

/-- A relation of R134 over integers read signed or unsigned. -/
def relOf {n : Nat} (sg : Bool) (r : Rel) (x y : BitVec n) : Bool :=
  let lt := if sg then x.slt y else x.ult y
  match r with
  | .eq => x == y
  | .ne => x != y
  | .lt => lt
  | .le => lt || x == y
  | .gt => !(lt || x == y)
  | .ge => !lt

/-- The odd member of a compare's pair (R135): the complement in mode 00, else the old value combined with the outcome. -/
def oddAfter (m : CmpMode) (old r : Bool) : Bool :=
  match m with
  | .plain => !r
  | .and => old && r
  | .or => old || r
  | .xor => old ^^ r

/-- An instruction completes for a thread that executes it, with predicates written. -/
def CompletesPreds (i : Instr) (gd : Guard) (s : State) (t : Tid) (ps : Thread → List (Fin 8 × Bool)) : Prop :=
  ∀ is th, Executes s is gd t th → Answers i s (GotPreds s is t th (ps th))

/-- A floating result (R89): where the launch traps none of its flags the instruction completes with its bits and flags; where it traps
one, the thread takes the arithmetic-flag trap, with the flags raised in the third information word, and no register of it is written,
but an s-register destination that another executing thread may write. -/
def CompletesFloat (i : Instr) (gd : Guard) (d : Dest) (s : State) (t : Tid) (ws : List Word) (fl : FlagSet) : Prop :=
  (fl &&& tenOf s t = 0#5 → Completes i gd d s t ws fl) ∧
  (fl &&& tenOf s t ≠ 0#5 → Does i gd s t fun is th s' =>
    let tr : Trap := { cls := 14, info2 := fl.setWidth 32 }
    TrapTaken s is t th tr s' ∧ (d.wbs = true ∨ d.reg.isS = false ∨ s.execs gd = [t] → Trapped s is t th tr s'))

/-- The flat address of an atomic whose operand can be read (R65, R337). -/
def atomAddr (s : State) (a : Src) (off : BitVec 24) (f : Tid → Except Trap (AtomOp × Nat)) (t : Tid) : Except Trap DWord := do
  let p ← flatAddr s t a off
  let _ ← f t
  .ok p

/-- The flat memory instructions and the atomics: each with what its access asks for, the address each thread computes, and the most
requests that one thread's access makes. -/
def flatForms (s : State) (gd : Guard) (d : Dest) (a b : Src) (off : BitVec 24) (lz : LdSize) (sz : StSize) (az : AtSize) (f : SubFmt)
    (cnt : BitVec 8) (lg : LogOp) (ro : RedOp) (ft : AtFmt) (sg : Bool) : List (Instr × Asked × (Tid → Except Trap DWord) × Nat) :=
  let ad := fun u => flatAddr s u a off
  let st := storeAddr s a b off sz
  let m := 2 ^ (8 * az.bytes)
  let at1 (op : AtomOp) := atomAddr s a off (atomValue s b az op)
  let at4 (op : AtomOp) := atomAddr s a off (atomWord s b op)
  [(.ld gd d a off lz, loadAsk lz flatKind, ad, (piecesOf lz.bytes).length), (.ldsub gd d a off f, ldsubAsk f, ad, 1),
   (.ldrc gd d a off lz, loadAsk lz memsideKind, ad, 1), (.ldwt gd d a off lz, loadAsk lz weightKind, ad, 0),
   (.st gd a b off sz, storeAsk sz flatKind, st, (piecesOf sz.bytes).length),
   (.stna gd a b off sz, storeAsk sz flatKind, st, (piecesOf sz.bytes).length), (.strc gd a b off cnt sz, storeAsk sz memsideKind, st, 1),
   (.aadd gd d a b off az, atomAsk az.bytes, at1 .add, 1), (.amin gd d a b off sg az, atomAsk az.bytes, at1 (.min sg), 1),
   (.amax gd d a b off sg az, atomAsk az.bytes, at1 (.max sg), 1), (.alog gd d a b off lg az, atomAsk az.bytes, at1 (.logic lg), 1),
   (.axch gd d a b off az, atomAsk az.bytes, at1 .xch, 1),
   (.acas gd d a b off az, atomAsk az.bytes,
      atomAddr s a off (fun t => do let v ← readNat s t b (2 * az.regs); .ok (.cas (v / m), v % m)), 1),
   (.afadd gd d a b off ft, atomAsk 4, at4 (.fadd ft), 1), (.ainc gd d a b off, atomAsk 4, at4 .inc, 1),
   (.adec gd d a b off, atomAsk 4, at4 .dec, 1), (.redi gd a b off ro sg az, atomAsk az.bytes, at1 (redOp ro sg), 1),
   (.redlog gd a b off lg az, atomAsk az.bytes, at1 (.logic lg), 1), (.redf gd a b off ft, atomAsk 4, at4 (.fadd ft), 1)]

/-- No host command is in progress that would hold the next (R552): no shootdown's, and no return from P4 or P5 (R554). -/
def HostFree (s : State) : Prop := (∀ d ∈ s.mem.shootdowns, d.seq = none) ∧ ∀ p ∈ s.module.power, p.2.returning = none

/-- A host command completed with a status (R552). -/
def Finished (s : State) (seq : Word) (status : Nat) (s' : State) : Prop := s'.cp.completions = s.cp.completions ++ [(seq, status)]

/-- A message of the VNP from another module has arrived and been accepted, and what is left once its unit has taken it (R473, R514,
R515). -/
def Heard (s : State) (src : Nat) (m : VnpMsg) (s0 : State) : Prop := src ≠ s.moduleNo ∧ s.takeVnp src m = some s0

/-- An error record of a kind in the report queue, where that has room (R502). -/
def Reported (s : State) (kind : Nat) (s' : State) : Prop :=
  s.rel.reports.length < 4096 → ∃ e ∈ s'.rel.reports, e.kind = kind ∧ e.ptc = s.ptc.toNat % 2 ^ 48

/-- An event counted once by every enabled counter of its place and source but one that has been cleared in this cycle, and by no other
(R557). -/
def Counts (s : State) (place : CtrPlace) (src : Nat) (s' : State) : Prop :=
  ∀ p n, tget s'.module.counters (p, n) = (tget s.module.counters (p, n)).map fun c =>
    if p = place ∧ c.ctl.getLsbD 31 = true ∧ c.ctl.toNat % 256 = src ∧ c.cleared ≠ some s.cycle then
      { c with count := c.count + 1#48, ctl := if c.count = BitVec.allOnes 48 then c.ctl ||| 0x40000000#32 else c.ctl }
    else c

end Sys2Proof.Machine
end

