-- ==== Sys2Proof/Certificates/Slice0/Obligations.lean ====
section
/-!
DEFINITION. The statements about the machine: what each instruction and step does where it completes, what it leaves alone, and
what holds of every step.
-/

open Sys2Proof Sys2Proof.Machine

/-! ### The integer group -/

/-- The two-source instructions of R127 compute their operation of the words read, for every guard, destination and source form,
with or without an immediate; each completes in every state where its operands can be read. -/
def Obligations.TwoSourceIntegerInstructionsCompute : Prop :=
  ∀ (gd : Guard) (d : Dest) (a : Src) (b : SrcB) (s : State) (t : Tid) (x y : Word),
    readSrc s t a = .ok x → readB s t b = .ok y →
    ∀ p ∈ [(Instr.add gd d a b false, x + y), (.add gd d a b true, if 2 ^ 32 ≤ x.toNat + y.toNat then 1#32 else 0#32),
           (.sub gd d a b false, x - y), (.sub gd d a b true, if x.toNat < y.toNat then 1#32 else 0#32),
           (.mul gd d a b, x * y), (.mulhS gd d a b, BitVec.ofInt 32 (x.toInt * y.toInt / 2 ^ 32)),
           (.mulhN gd d a b, BitVec.ofNat 32 (x.toNat * y.toNat / 2 ^ 32)),
           (.divS gd d a b, if y = 0#32 then 0xFFFFFFFF#32 else x.sdiv y), (.divN gd d a b, if y = 0#32 then 0xFFFFFFFF#32 else x / y),
           (.remS gd d a b, x.srem y), (.remN gd d a b, x % y),
           (.minS gd d a b, BitVec.ofInt 32 (min x.toInt y.toInt)), (.minN gd d a b, BitVec.ofNat 32 (min x.toNat y.toNat)),
           (.maxS gd d a b, BitVec.ofInt 32 (max x.toInt y.toInt)), (.maxN gd d a b, BitVec.ofNat 32 (max x.toNat y.toNat)),
           (.shl gd d a b, x <<< y.toNat), (.shrN gd d a b, x >>> y.toNat), (.shrS gd d a b, x.sshiftRight y.toNat),
           (.rot gd d a b, x.rotateLeft y.toNat)],
      Completes p.1 gd d s t [p.2] 0#5

/-- The other word instructions of R127 and MOVI (R131): carries in and out of bit 0 of c, the multiply-add, the funnel shift, the
moves and the one-source operations. -/
def Claims.OtherWordInstructionsCompute : Prop :=
  ∀ (gd : Guard) (d : Dest) (a c : Src) (b : SrcB) (k : Fin 8) (inv : Bool) (imm : Word) (s : State) (t : Tid) (x y z : Word),
    readSrc s t a = .ok x → readB s t b = .ok y → readSrc s t c = .ok z →
    ∀ p ∈ [(Instr.addc gd d a b c false, x + y + (z &&& 1#32)),
           (.addc gd d a b c true, if 2 ^ 32 ≤ x.toNat + y.toNat + z.toNat % 2 then 1#32 else 0#32),
           (.subb gd d a b c false, x - y - (z &&& 1#32)),
           (.subb gd d a b c true, if x.toNat < y.toNat + z.toNat % 2 then 1#32 else 0#32),
           (.mad gd d a b c, x * y + z), (.fshl gd d a b c, ((x ++ y) <<< (z.toNat % 32)).extractLsb' 32 32),
           (.abs gd d a, if x.msb then -x else x), (.neg gd d a, -x), (.mov gd d a, x), (.movi gd d imm, imm),
           (.popc gd d a, BitVec.ofNat 32 ((List.range 32).filter x.getLsbD).length),
           (.clz gd d a, BitVec.ofNat 32 (32 - (x.toNat.log2 + if x = 0#32 then 0 else 1))),
           (.psel gd d a b k inv, if (s.thread t).reads k != inv then x else y)],
      Completes p.1 gd d s t [p.2] 0#5

/-- LOGT, BREV, BFX and BFI by the bits of their results (R127, R128): a looked-up bit, a mirrored bit, a field of a at bit
position y[4:0] and length min(y[10:5], 32) with its extension, and the low bits of a laid over c. -/
def Claims.BitFieldInstructionsCompute : Prop :=
  ∀ (gd : Guard) (d : Dest) (a c : Src) (b : SrcB) (lut : BitVec 8) (s : State) (t : Tid) (x y z : Word),
    readSrc s t a = .ok x → readB s t b = .ok y → readSrc s t c = .ok z →
    ∃ logt brev bfx bfxs bfi : Word,
      (∀ p ∈ [(Instr.logt gd d a b c lut, logt), (.brev gd d a, brev), (.bfx gd d a b false, bfx), (.bfx gd d a b true, bfxs),
              (.bfi gd d a b c, bfi)], Completes p.1 gd d s t [p.2] 0#5) ∧
      ∀ j < 32, let pos := y.toNat % 32
        let len := min (y.toNat / 32 % 64) 32
        logt.getLsbD j = lut.getLsbD (4 * (x.getLsbD j).toNat + 2 * (y.getLsbD j).toNat + (z.getLsbD j).toNat) ∧
        brev.getLsbD j = x.getLsbD (31 - j) ∧ bfx.getLsbD j = (decide (j < len) && x.getLsbD (pos + j)) ∧
        bfxs.getLsbD j = (decide (0 < len) && x.getLsbD (min (pos + min j (len - 1)) 31)) ∧
        bfi.getLsbD j = if pos ≤ j ∧ j < pos + len then x.getLsbD (j - pos) else z.getLsbD j

/-- The instructions that write a pair: MADW with its 64-bit sum of a product and the pair c, read signed or unsigned (R127), and
LEA with its base pair plus the sign-extended offset, unchecked (R132). The low word is the first of the pair (R24). -/
def Claims.PairInstructionsCompute : Prop :=
  ∀ (gd : Guard) (d : Dest) (a c e : Src) (b : SrcB) (off : BitVec 24) (s : State) (t : Tid) (x y : Word) (A C : DWord),
    readSrc s t a = .ok x → readB s t b = .ok y → readPair s t c = .ok C → readPair s t e = .ok A →
    ∀ p ∈ [(Instr.madw gd d a b c true, x.signExtend 64 * y.signExtend 64 + C),
           (.madw gd d a b c false, x.setWidth 64 * y.setWidth 64 + C), (.lea gd d e off, A + off.signExtend 64)],
      Completes p.1 gd d s t [p.2.setWidth 32, (p.2 >>> 32).setWidth 32] 0#5

/-- The rest of the integer group. -/
def Obligations.OtherIntegerInstructionsCompute : Prop :=
  Claims.OtherWordInstructionsCompute ∧ Claims.BitFieldInstructionsCompute ∧ Claims.PairInstructionsCompute

/-! ### Compares and predicates -/

/-- The scalar compares (R134 to R138) write their outcome to the even member of the pair and, by their mode, its complement or
its combination with the old odd member to the odd one, and nothing else of the thread. -/
def Claims.ScalarComparesWriteTheirPair : Prop :=
  ∀ (gd : Guard) (pp : Fin 4) (m : CmpMode) (r : Rel) (a c : Src) (b : SrcB) (sg : Bool) (fm : ClassFmt) (cm : BitVec 9)
    (s : State) (t : Tid)
    (x y z : Word) (A C : DWord),
    readSrc s t a = .ok x → readB s t b = .ok y → readSrc s t c = .ok z → readPair s t a = .ok A → readPair s t c = .ok C →
    let fl (v : Word) := readFlushed (iflOf s t) .f32 v.toNat
    ∀ p ∈ [(Instr.icmpS gd pp a b r m, relOf true r x y), (.icmpN gd pp a b r m, relOf false r x y),
           (.icmpW gd pp a c sg r m, relOf sg r A C),
           (.fcmp gd pp a c r m, match cmpX (fl x) (fl z) with | some o => relHolds r o | none => r == .ne),
           (.fclass gd pp a fm cm m, cm.getLsbD (classOf (fmtOfClass fm) (x.toNat % 2 ^ (fmtOfClass fm).bits))),
           (.btest gd pp a b true m, (x &&& y) == y), (.btest gd pp a b false m, (x &&& y) != 0#32),
           (.rchk gd pp a b c true m, y.sle x && x.slt z), (.rchk gd pp a b c false m, y.ule x && x.ult z)],
      CompletesPreds p.1 gd s t fun th =>
        [(evenPred pp, p.2), (oddPred pp, oddAfter m (th.reads (oddPred pp)) p.2)]

/-- The packed compares (R135, R137) write the outcome of element 0 to the even member of the pair and that of element 1, by their
mode, to the odd one; PMIX, PSPRD and PPACK move predicates (R139). -/
def Claims.PackedComparesAndPredicateMovesComplete : Prop :=
  ∀ (gd : Guard) (pp : Fin 4) (m : CmpMode) (r : Rel) (a b : Src) (d : Dest) (pd x y z : Fin 8) (lut mask : BitVec 8) (s : State)
    (t : Tid) (v w : Word), readSrc s t a = .ok v → readSrc s t b = .ok w →
    (∀ p ∈ [(Instr.fcmpH2 gd pp a b r m, Fmt.f16), (.fcmpBf2 gd pp a b r m, .bf16)],
      CompletesPreds p.1 gd s t fun th =>
        let e (k : Nat) := relFloat r (readFlushed (iflOf s t) p.2 (v.toNat / 2 ^ (16 * k) % 2 ^ 16))
          (readFlushed (iflOf s t) p.2 (w.toNat / 2 ^ (16 * k) % 2 ^ 16))
        let old := th.reads (oddPred pp)
        [(evenPred pp, e 0), (oddPred pp, if m = .plain then e 1 else oddAfter m old (e 1))]) ∧
    CompletesPreds (.pmix gd pd lut x y z) gd s t (fun th =>
      [(pd, lut.getLsbD ((if th.reads x then 4 else 0) + (if th.reads y then 2 else 0) + if th.reads z then 1 else 0))]) ∧
    CompletesPreds (.psprd gd a mask) gd s t (fun _ => (maskPreds mask).map fun k => (k, v.getLsbD k.val)) ∧
    Completes (.ppack gd d) gd d s t [(s.thread t).seen.setWidth 32] 0#5

/-- Compares and predicate moves. -/
def Obligations.ComparesAndPredicateMovesComplete : Prop :=
  Claims.ScalarComparesWriteTheirPair ∧ Claims.PackedComparesAndPredicateMovesComplete

/-! ### Floating point and conversions -/

/-- The scalar floating instructions (R159, R161, R162): the operation on operands flushed and negated, rounded once and flushed,
with the flags united; minimum and maximum round and flag nothing. -/
def Claims.ScalarFloatInstructionsCompute : Prop :=
  ∀ (gd : Guard) (d : Dest) (a b c : Src) (rm : RMode) (sat na nb nc : Bool) (s : State) (t : Tid) (u v w : Word),
    readSrc s t a = .ok u → readSrc s t b = .ok v → readSrc s t c = .ok w →
    let x := floatOperand s t .f32 na u.toNat
    let y := floatOperand s t .f32 nb v.toNat
    let z := floatOperand s t .f32 nc w.toNat
    (∀ p ∈ [(Instr.fadd gd d a b rm sat na nb, sat, addX rm x y), (.fsub gd d a b rm sat na nb, sat, addX rm x y.neg),
            (.fmul gd d a b rm sat na nb, sat, mulX x y), (.ffma gd d a b c rm sat na nb nc, sat, fmaX rm x y z),
            (.fdiv gd d a b rm sat na nb, sat, divX x y), (.frcp gd d a rm sat na, sat, divX (.fin false 1 1) x),
            (.fsqrt gd d a rm na, false, sqrtOp x), (.frnd gd d a rm na, false, roundOp rm x),
            (.fscale gd d a b rm sat na, sat, scaleOp x v.toInt)],
      let r := flushOut (oflOf s t) .f32 (roundFloat .f32 (.mode rm) p.2.1 p.2.2.val)
      CompletesFloat p.1 gd d s t [BitVec.ofNat 32 r.bits] (r.flags ||| p.2.2.flags)) ∧
    ∀ p ∈ [(Instr.fmin gd d a b na nb, false), (.fmax gd d a b na nb, true)],
      Completes p.1 gd d s t [BitVec.ofNat 32 (roundFloat .f32 (.mode .rne) false (pickNumber p.2 x y)).bits] 0#5

/-- The packed floating instructions (R160, R161) work each element apart and unite their flags; FDOT8 rounds one exact sum of
eight products and the addend once (R165). -/
def Claims.PackedFloatInstructionsCompute : Prop :=
  ∀ (gd : Guard) (d : Dest) (a b c : Src) (rm : RMode) (sat na nb nc : Bool) (fa fb : DotFmt) (s : State) (t : Tid) (u v w : Word)
    (A B : Nat), readSrc s t a = .ok u → readSrc s t b = .ok v → readSrc s t c = .ok w →
    readNat s t a fa.regs = .ok A → readNat s t b fb.regs = .ok B →
    (∀ p ∈ [(Instr.pkadh gd d a b rm sat na nb, Fmt.f16, fun x y (_ : XVal) => addX rm x y),
            (.pkmlh gd d a b rm sat na nb, .f16, fun x y _ => mulX x y), (.pkfmh gd d a b c rm sat na nb nc, .f16, fmaX rm),
            (.pkadb gd d a b rm sat na nb, .bf16, fun x y _ => addX rm x y),
            (.pkmlb gd d a b rm sat na nb, .bf16, fun x y _ => mulX x y), (.pkfmb gd d a b c rm sat na nb nc, .bf16, fmaX rm)],
      let el (n : Bool) (x : Word) (k : Nat) := floatOperand s t p.2.1 n (x.toNat / 2 ^ (16 * k) % 2 ^ 16)
      let o (k : Nat) := p.2.2 (el na u k) (el nb v k) (el nc w k)
      let r (k : Nat) := flushOut (oflOf s t) p.2.1 (roundFloat p.2.1 (.mode rm) sat (o k).val)
      CompletesFloat p.1 gd d s t [BitVec.ofNat 32 ((r 0).bits + 65536 * (r 1).bits)]
        ((r 0).flags ||| (o 0).flags ||| ((r 1).flags ||| (o 1).flags))) ∧
    let o := dotOp rm fa fb na nb A B (floatOperand s t .f32 nc w.toNat)
    let r := flushOut (oflOf s t) .f32 (roundFloat .f32 (.mode rm) sat o.val)
    CompletesFloat (.fdot8 gd d a b c rm sat na nb nc fb fa) gd d s t [BitVec.ofNat 32 r.bits] (r.flags ||| o.flags)

/-- Floating point, scalar and packed. -/
def Obligations.FloatingInstructionsCompute : Prop :=
  Claims.ScalarFloatInstructionsCompute ∧ Claims.PackedFloatInstructionsCompute

/-- The approximated functions (R163, R164) give their exact results and special results with their flags, and otherwise, with NX, a
value within the stated error of an interval that holds the exact result, or the nearest value to its lower end, with UF where it is
tiny and not zero; each is flushed as R85 says. Which value within the error it is, and that it is the nearest to the lower end where
no other meets the bound, is the model's choice (log entry 11). -/
def Obligations.ApproximatedFunctionsCompute : Prop :=
  ∀ (gd : Guard) (d : Dest) (a : Src) (na : Bool) (s : State) (t : Tid) (u : Word), readSrc s t a = .ok u →
    ∀ p ∈ [(Instr.frsq gd d a na, Config.ApproxFn.frsq), (.fexp2 gd d a na, .fexp2), (.flog2 gd d a na, .flog2),
           (.fsin gd d a na, .fsin), (.fcos gd d a na, .fcos), (.ftanh gd d a na, .ftanh)],
      let x := floatOperand s t .f32 na u.toNat
      ∃ r : Rounded,
        (match specialOf p.2 x with
         | .exact y => r = roundFloat .f32 (.mode .rne) false y
         | .flagged y fl => r = { bits := (roundFloat .f32 (.mode .rne) false y).bits, flags := fl }
         | .approx => r.flags = (flagNX ||| if r.bits / 2 ^ 23 % 256 = 0 ∧ r.bits % 2 ^ 23 ≠ 0 then flagUF else 0#5) ∧
             ∃ n dn, x = .fin x.isNeg n dn ∧
             (withinBound (decodeFloat .f32 r.bits) (bracketOf p.2 x.isNeg n dn)
                 (errorBound p.2 n dn (bracketOf p.2 x.isNeg n dn)) = true ∨
               r.bits = (roundFloat .f32 (.mode .rne) true (.fin (decide ((bracketOf p.2 x.isNeg n dn).lo < 0))
                 (bracketOf p.2 x.isNeg n dn).lo.natAbs (bracketOf p.2 x.isNeg n dn).den)).bits)) ∧
        CompletesFloat p.1 gd d s t [BitVec.ofNat 32 (flushOut (oflOf s t) .f32 r).bits] (flushOut (oflOf s t) .f32 r).flags

/-- The conversions of one element (R167 to R171): CVT and CVTSR round the flushed source element once to the target, CVTI clamps or
wraps an integer without a flag, and the element is placed in its register or merged into the base. -/
def Claims.ElementConversionsCompute : Prop :=
  ∀ (gd : Guard) (d : Dest) (a b : Src) (c : Option Src) (tgt frm : Fmt) (rm : RMode) (sat : Bool) (ks kd : Fin 8) (s : State)
    (t : Tid) (v : Nat) (w : Word) (base : Option Word),
    readNat s t a frm.regs = .ok v → readSrc s t b = .ok w → readBase s t c = .ok base →
    let x := readFlushed (iflOf s t) frm (elemOf frm v ks.val)
    (∀ p ∈ [(Instr.cvt gd d a c tgt frm rm sat ks kd, RMethod.mode rm), (.cvtsr gd d a b c tgt frm sat ks kd, .stoch w)],
      let r := if tgt.isInt then roundInt tgt p.2 flagNV x
        else if tgt = .e8m0 then roundScale p.2 x else flushOut (oflOf s t) tgt (roundFloat tgt p.2 sat x)
      CompletesFloat p.1 gd d s t (convWords tgt kd.val base r.bits) r.flags) ∧
    let i := decodeInt frm (elemOf frm v ks.val)
    let j := if sat then max (intMin tgt) (min (intMax tgt) i) else i
    Completes (.cvti gd d a c tgt frm sat ks kd) gd d s t (convWords tgt kd.val base (j % 2 ^ tgt.bits).toNat) 0#5

/-- The conversions of several elements (R172, R173): PACK2 and UNPK2 work on two elements, and LCDEC decodes the eight weights of an
lc2 index, as bytes or scaled to a 16-bit target in pairs. -/
def Claims.PackingConversionsCompute : Prop :=
  ∀ (gd : Guard) (d : Dest) (a b : Src) (tgt frm : Fmt) (rm : RMode) (sat : Bool) (ks : Fin 8) (s : State) (t : Tid) (u v : Word),
    readSrc s t a = .ok u → readSrc s t b = .ok v →
    (let e0 := packElem s t tgt frm rm sat u
     let e1 := packElem s t tgt frm rm sat v
     CompletesFloat (.pack2 gd d a b tgt frm rm sat) gd d s t [BitVec.ofNat 32 (e0.bits + 65536 * e1.bits)] (e0.flags ||| e1.flags)) ∧
    (let e (k : Nat) := unpackElem s t tgt frm (elemOf frm u.toNat k)
     CompletesFloat (.unpk2 gd d a tgt frm) gd d s t [BitVec.ofNat 32 (e 0).bits, BitVec.ofNat 32 (e 1).bits]
       ((e 0).flags ||| (e 1).flags)) ∧
    (let idx := u.toNat / 2 ^ (16 * ks.val) % 65536
     let n := (List.range 8).foldl (fun acc i => acc + (lcWeight idx i % 256).toNat * 2 ^ (8 * i)) 0
     Completes (.lcdec gd d a none .s8 rm ks) gd d s t [BitVec.ofNat 32 n, BitVec.ofNat 32 (n / 2 ^ 32)] 0#5) ∧
    (tgt ≠ .s8 →
     let e (i : Nat) := lcElem s t tgt rm (u.toNat / 2 ^ (16 * ks.val) % 65536) (v.toNat % 256) i
     CompletesFloat (.lcdec gd d a (some b) tgt rm ks) gd d s t
       ((List.range 4).map fun j => BitVec.ofNat 32 ((e (2 * j)).bits + 65536 * (e (2 * j + 1)).bits))
       ((List.range 8).foldl (fun acc i => acc ||| (e i).flags) 0#5))

/-- The quantising conversions (R174 to R176): QNT divides by 2^(X-127) and rounds with saturation, DQNT multiplies, E8EXT gives a
block's scale, and CVTF is QNT or DQNT by a format slot of the launch, its scale 2^0 where the slot has none. -/
def Claims.QuantisingConversionsCompute : Prop :=
  ∀ (gd : Guard) (d : Dest) (a b : Src) (c : Option Src) (tgt frm : Fmt) (rm : RMode) (ks kd n : Fin 8) (s : State) (t : Tid)
    (u v : Word) (base : Option Word) (f : FormatSlot) (sc : Bool),
    readSrc s t a = .ok u → readSrc s t b = .ok v → readBase s t c = .ok base → formatSlot s n = some f → f.valid = true →
    f.scale = some sc → quantFmt f.elem = true →
    let qnt (g : Fmt) (m : RMode) (scale : Nat) := quantRound g m (oflOf s t) (unscale (readFlushed (iflOf s t) .f32 u.toNat) scale)
    let dqnt (g : Fmt) (m : RMode) (scale : Nat) :=
      flushOut (oflOf s t) .f32 (roundFloat .f32 (.mode m) false
        (applyScale (readFlushed (iflOf s t) g (elemOf g u.toNat ks.val)) scale))
    let sl := if sc then v.toNat % 256 else 127
    (let r := qnt tgt rm (v.toNat % 256)
     CompletesFloat (.qnt gd d a b c tgt rm kd) gd d s t [placeElem tgt kd.val base r.bits] r.flags) ∧
    (let r := dqnt frm rm (v.toNat % 256)
     CompletesFloat (.dqnt gd d a b frm rm ks) gd d s t [BitVec.ofNat 32 r.bits] r.flags) ∧
    Completes (.e8ext gd d a c tgt kd) gd d s t
      [placeElem .e8m0 kd.val base (blockScale ((maxExp tgt).getD 0) (readFlushed (iflOf s t) .f32 u.toNat))] 0#5 ∧
    (idxOk f.elem kd = true → let r := qnt f.elem f.rm sl
     CompletesFloat (.cvtf gd d a b c false ks kd n) gd d s t [placeElem f.elem kd.val base r.bits] r.flags) ∧
    (idxOk f.elem ks = true → let r := dqnt f.elem f.rm sl
     CompletesFloat (.cvtf gd d a b c true ks kd n) gd d s t [BitVec.ofNat 32 r.bits] r.flags)

/-- The conversion group. -/
def Obligations.ConversionsCompute : Prop :=
  Claims.ElementConversionsCompute ∧ Claims.PackingConversionsCompute ∧ Claims.QuantisingConversionsCompute

/-! ### Control -/

/-- The transfers of a thread (R48, R63, R141, R142, R145): BRA to its line and slot, BRX to a pair that is a slot address, LOOPC by
its counter, YIELD and NOP to the next slot. -/
def Claims.TransfersOfAThreadComplete : Prop :=
  ∀ (gd : Guard) (tg : Target) (a : Src) (d : Dest) (s : State) (t : Tid) (P : DWord), readPair s t a = .ok P →
    let at' (pc : Pc) : Pc := (pc &&& ~~~63#57) + 64#57 * tg.off.signExtend 57 + BitVec.ofNat 57 (12 * tg.slot.val)
    Does (.bra gd tg) gd s t (fun is th => Transferred s t th (at' is.pc)) ∧
    (P.toNat < 2 ^ 57 → P.toNat % 64 % 12 = 0 → P.toNat % 64 ≤ 48 →
      Does (.brx gd a) gd s t fun _ th => Transferred s t th (P.setWidth 57)) ∧
    Does (.yieldRun gd) gd s t (fun is th => Transferred s t th (nextPc is.pc)) ∧
    Does (.nop gd) gd s t (fun is th => Passed s is t th) ∧
    Does (.loopc gd d tg) gd s t (fun is th s' =>
      let n := readReg s t d.reg - 1#32
      (Lands s gd t th d.reg 1 → d.wbs = false → readReg s' t d.reg = n) ∧ (s'.thread t).flg = th.flg ∧
      (s'.thread t).preds = th.preds ∧ (s'.thread t).pc = (if n = 0#32 then nextPc is.pc else at' is.pc) ∧
      (n = 0#32 → (s'.thread t).latches[d.rl] = .valid 0#32))

/-- The uniform branches (R198, R212): all participating threads jump, or all go on, by a predicate over every one of them. -/
def Claims.UniformBranchesAgree : Prop :=
  ∀ (gd : Guard) (k : Fin 8) (tg : Target) (s : State) (t : Tid),
    let holds (u : Tid) : Prop := (s.thread u).reads k = true
    let ts := s.execs gd
    ∀ p ∈ [(Instr.brany gd k tg, ∃ u ∈ ts, holds u), (.brall gd k tg, ∀ u ∈ ts, holds u), (.brnone gd k tg, ∀ u ∈ ts, ¬ holds u)],
      (p.2 → Does p.1 gd s t fun is th => Transferred s t th
        (lineOf is.pc + 64#57 * tg.off.signExtend 57 + BitVec.ofNat 57 (12 * tg.slot.val))) ∧
      (¬ p.2 → Does p.1 gd s t fun is th => Passed s is t th)

/-- Transfers of a thread and of all participating threads. -/
def Obligations.BranchesAndLoopsComplete : Prop :=
  Claims.TransfersOfAThreadComplete ∧ Claims.UniformBranchesAgree

/-- Calls and returns (R27, R141 to R144): a call slides the window by a frame, counts it, and leaves the next PC in w14 and w15 of the
callee, the caller's w30 and w31, with no latch claimed; a return slides it back. Each completes wherever the depth, the target and the
window allow it, and traps with nothing written where one does not, judged in that order; a guard-false thread goes on with nothing of
it changed. -/
def Obligations.CallsSlideTheWindow : Prop :=
  ∀ (gd : Guard) (tg : Target) (a : Src) (s : State) (t : Tid) (P : DWord), readPair s t a = .ok P →
    let slot := P.toNat < 2 ^ 57 ∧ P.toNat % 64 % 12 = 0 ∧ P.toNat % 64 ≤ 48
    let mayCall (_ : Issue) (th : Thread) : Prop := th.wdep ≠ 65535 ∧ th.wres ≠ th.frames - 2 ∧ 2 ≤ th.depth
    let called (pc : Issue → Pc) (is : Issue) (th : Thread) (s' : State) : Prop :=
        let th' := s'.thread t
        th'.pc = pc is ∧ th'.status = .arriving ∧ th'.wb = (th.wb + 1) % th.frames ∧ th'.wres = th.wres + 1 ∧
        th'.wdep = th.wdep + 1 ∧ readReg s' t (.w 14) = (nextPc is.pc).setWidth 32 ∧
        readReg s' t (.w 15) = (nextPc is.pc >>> 32).setWidth 32 ∧ th'.g = th.g ∧ th'.preds = th.preds ∧ th'.flg = th.flg ∧
        th'.latches = noLatches ∧
        (th.depth = 16 * th.frames → cellOf th' (.w 14) = cellOf th (.w 30) ∧ cellOf th' (.w 15) = cellOf th (.w 31))
    let bad : Trap := { cls := 2, info0 := P.setWidth 32, info1 := (P >>> 32).setWidth 32 }
    let deep (n : Nat) : Trap := { cls := 1, cause := n }
    let spill (th : Thread) : Trap := { cls := 7, info2 := BitVec.ofNat 32 ((th.wb + th.frames - th.wres) % th.frames) }
    let fill (th : Thread) : Trap := { cls := 8, info2 := BitVec.ofNat 32 ((th.wb + th.frames - 1) % th.frames) }
    let traps (i : Instr) (C : Thread → Prop) (tr : Thread → Trap) : Prop :=
      DoesWhere i gd s t (fun _ th => C th) fun is th => Trapped s is t th (tr th)
    DoesWhere (.call gd tg) gd s t mayCall (called fun is =>
      lineOf is.pc + 64#57 * tg.off.signExtend 57 + BitVec.ofNat 57 (12 * tg.slot.val)) ∧
    (slot → DoesWhere (.callx gd a) gd s t mayCall (called fun _ => P.setWidth 57)) ∧
    (slot → DoesWhere (.ret gd a) gd s t (fun _ th => th.wdep ≠ 0 ∧ th.wres ≠ 0) fun _ th s' =>
      let th' := s'.thread t
      th'.pc = P.setWidth 57 ∧ th'.status = .arriving ∧ th'.wb = (th.wb + th.frames - 1) % th.frames ∧ th'.wres = th.wres - 1 ∧
      th'.wdep = th.wdep - 1 ∧ th'.stack = th.stack ∧ th'.g = th.g ∧ th'.preds = th.preds ∧ th'.flg = th.flg) ∧
    (∀ i ∈ [Instr.call gd tg, .callx gd a], traps i (fun th => th.wdep = 65535) (fun _ => deep 13) ∧
      (i = .call gd tg ∨ slot → traps i (fun th => th.wdep ≠ 65535 ∧ th.wres = th.frames - 2) spill)) ∧
    (¬ slot → traps (.callx gd a) (fun th => th.wdep ≠ 65535) (fun _ => bad) ∧ traps (.ret gd a) (fun th => th.wdep ≠ 0) fun _ => bad) ∧
    traps (.ret gd a) (fun th => th.wdep = 0) (fun _ => deep 14) ∧
    (slot → traps (.ret gd a) (fun th => th.wdep ≠ 0 ∧ th.wres = 0) fill) ∧
    ∀ i ∈ [Instr.call gd tg, .callx gd a, .ret gd a], ∀ is th, s.issue = some is → t ∈ is.tids → tget s.threads t = some th →
      guardTrue gd th = false → Answers i s (Passed s is t th)

/-- Convergence (R199 to R203, R213 to R215): SPLIT completes where the stack has room and pushes an entry for its threads; JOIN
completes at the join of the top entry and blocks its threads there until every lane of the entry's mask has arrived, which releases
them past the join; BREAK completes with at least n entries and takes its threads out of the top n. Each says so for every thread
that executes it. That an entry below the top which is complete releases its threads once it is the top is the model's choice (log entry
65). -/
def Claims.ConvergenceStackCompletes : Prop :=
  ∀ (gd : Guard) (tg : Target) (n : Fin 16) (s : State) (t u : Tid) (co : Cohort),
    (s.execs gd).head? = some u → tget s.cohorts u.coh = some co → t.coh = u.coh →
    let tgt (is : Issue) : Pc := lineOf is.pc + 64#57 * tg.off.signExtend 57 + BitVec.ofNat 57 (12 * tg.slot.val)
    let lanes := laneMask (s.execs gd)
    let stack (s' : State) : List ConvEntry := (s'.cohort u.coh).conv
    (co.conv.length < 16 → Does (.split gd tg) gd s t fun is th s' =>
      Passed s is t th s' ∧ stack s' = { join := tgt is, mask := lanes, arrived := 0#32 } :: co.conv) ∧
    (∀ e rest, co.conv = e :: rest →
      let e' : ConvEntry := { e with arrived := e.arrived ||| (lanes &&& e.mask) }
      let within (is : Issue) (_ : Thread) : Prop := e.join = is.pc ∧ inMask e.mask t.lane = true
      (e'.complete = false → DoesWhere (.join gd) gd s t within fun is th s' =>
        (s'.thread t).pc = nextPc is.pc ∧ (s'.thread t).status = .blocked .conv ∧ SameValues s t th s' ∧ stack s' = e' :: rest) ∧
      (e'.complete = true → (∀ x xs, rest = x :: xs → x.complete = false) → DoesWhere (.join gd) gd s t within fun is th s' =>
        (s'.thread t).pc = nextPc is.pc ∧ (s'.thread t).status = .arriving ∧ SameValues s t th s' ∧ stack s' = rest) ∧
      DoesWhere (.join gd) gd s t (fun is _ => e.join = is.pc ∧ inMask e.mask t.lane = false) fun is th s' => Passed s is t th s') ∧
    (n.val < co.conv.length → Does (.breakOut gd n tg) gd s t fun is th s' =>
      (s'.thread t).pc = tgt is ∧ (s'.thread t).status = .arriving ∧ SameValues s t th s' ∧
      stack s' = (popComplete (dropLanes (n.val + 1) lanes co.conv)).2)

/-- Elections (R205, R216): the even predicate marks the lowest executing lane, of all or of its quarter, and the odd one the others;
where the others sleep they wait at the join of the top entry. -/
def Claims.ElectionsMarkTheirLeader : Prop :=
  ∀ (gd : Guard) (pp : Fin 4) (s : State) (t : Tid),
    ∀ p ∈ [(fun slp => Instr.elect gd pp slp, (s.execs gd).head? == some t),
           (fun slp => .electq gd pp slp, (s.execs gd).find? (fun x => x.lane.val / 8 = t.lane.val / 8) == some t)],
      Does (p.1 false) gd s t (fun is th => GotPreds s is t th [(evenPred pp, p.2), (oddPred pp, !p.2)]) ∧
      ∀ u e rest, (s.execs gd).head? = some u → (s.cohort u.coh).conv = e :: rest → t.coh = u.coh →
        (∀ x ∈ s.execs gd, inMask e.mask x.lane = true) →
        DoesWhere (p.1 true) gd s t (fun _ th => th.status = .inRun) fun is th s' =>
          (p.2 = true → GotPreds s is t th [(evenPred pp, true), (oddPred pp, false)] s') ∧
          (p.2 = false → (s'.thread t).pred (oddPred pp) = true ∧
            ((s'.thread t).status = .blocked .conv ∨ (s'.thread t).status = .arriving))

/-- The convergence stack and the elections. -/
def Obligations.ConvergenceAndElectionsComplete : Prop :=
  Claims.ConvergenceStackCompletes ∧ Claims.ElectionsMarkTheirLeader

/-! ### Scratch and windows -/

/-- Scratch accesses (R146, R256 to R259, R320, R322): LDS and STS complete for every size, base and offset that their checks pass. Where
one pass serves every lane (R258), a load gives the bytes of the team's scratch at its base plus its offset, and of the stores to a byte
the highest lane's stands. Where several passes serve them, the thread goes on while its load's registers await the same bytes, read by
its passes; a store's words are written by theirs. Every byte that no executing lane stores to stays as it was. -/
def Obligations.ScratchLoadsAndStoresComplete : Prop :=
  ∀ (gd : Guard) (d : Dest) (a b : Src) (off : BitVec 24) (lz : LdSize) (sz : StSize) (s : State) (t : Tid) (m : Team) (v : Word) (o : Nat),
    tget s.teams t.coh.team = some m → readSrc s t a = .ok v → (v.toNat : Int) + off.toInt = o → (∀ p ∈ s.mem.passes, s.cycle < p.due) →
    let scr := s.scrOf t.coh.team
    let loads := (goodLanes (s.execs gd) fun u => scratchAddr s u a off lz.bytes).flatMap fun x => wordsUsed x.2 lz.bytes
    let stores := (goodLanes (s.execs gd) fun u => do let _ ← storeBytes s u b sz; scratchAddr s u a off sz.bytes).flatMap fun x =>
      wordsUsed x.2 sz.bytes
    let held := extWords lz ((List.range lz.bytes).map fun i => cellGet 0#8 (o + i) m.scratch)
    (o % lz.bytes = 0 → o + lz.bytes ≤ scr →
      (s.onePass s.issueCore loads = true → Completes (.lds gd d a off lz) gd d s t held 0#5) ∧
      (s.onePass s.issueCore loads = false → Does (.lds gd d a off lz) gd s t fun is th s' => Issued s is t th s' ∧
        ∃ id, (s'.thread t).latches[d.rl] = .pend id 0 ∧ Awaits s gd t th d lz.regs id s' ∧
          ((∃ x ∈ s'.mem.arrivals, x.tid = t ∧ x.pend = id ∧ x.words = held) ∨
            ∃ p ∈ s'.mem.passes, p.tid = t ∧ s.cycle < p.due ∧ ∃ n r, p.op = .read n r ∧ r.pend = id))) ∧
    (∀ n, readNat s t b sz.regs = .ok n → o % sz.bytes = 0 → o + sz.bytes ≤ scr →
      Does (.sts gd a b off sz) gd s t fun is th s' => Passed s is t th s' ∧
        ((s.execs gd).getLast? = some t →
          (s.onePass s.issueCore stores = true → s'.scratchGet t.coh.team o sz.bytes = leBytes sz.bytes n) ∧
          ∀ w ∈ wordsUsed o sz.bytes, let at' := inWord o sz.bytes w
            let bs := ((leBytes sz.bytes n).drop (at'.1 - o)).take at'.2
            s'.scratchGet t.coh.team at'.1 at'.2 = bs ∨
              ∃ p ∈ s'.mem.passes, p.tid = t ∧ s.cycle < p.due ∧ p.off = at'.1 ∧ p.op = .write bs) ∧
        ∀ (k : TeamId) (x : Nat),
          (∀ u ∈ s.execs gd, u.coh.team = k → ∀ p, scratchAddr s u a off sz.bytes = .ok p → ¬ (p ≤ x ∧ x < p + sz.bytes)) →
          s'.scratchGet k x 1 = s.scratchGet k x 1)

/-- Full/empty accesses (R258, R260, R261, R323): LDSFE and STSFE of a lane whose word no other executing lane uses, where no earlier
access waits. In the first pass a load takes a full word and empties it unless it keeps it, and a store fills an empty word, or any in
mode ovw; on the other state each waits in the word's list, or traps with class 13; in a later pass each waits in its slot for the pass. -/
def Claims.FullEmptyAccessesComplete : Prop :=
  ∀ (gd : Guard) (d : Dest) (a b : Src) (off : BitVec 24) (keep trap : Bool) (fem : FillMode) (s : State) (t : Tid) (m : Team)
    (v w : Word) (o : Nat),
    tget s.teams t.coh.team = some m → readSrc s t a = .ok v → readSrc s t b = .ok w → (v.toNat : Int) + off.toInt = o → o % 4 = 0 →
    o + 4 ≤ s.scrOf t.coh.team → (∀ x ∈ s.teams, x.2.waiters = []) → s.mem.passes = [] → (s.execs gd).Nodup →
    (∀ u ∈ s.execs gd, u ≠ t → scratchAddr s u a off 4 ≠ .ok o) →
    let loads := (goodLanes (s.execs gd) fun u => scratchAddr s u a off 4).map Prod.snd
    let stores := (goodLanes (s.execs gd) fun u => do let _ ← readSrc s u b; scratchAddr s u a off 4).map Prod.snd
    let word := BitVec.ofNat 32 (leNat ((List.range 4).map fun i => cellGet 0#8 (o + i) m.scratch))
    let full := m.full.contains o
    let waits (_ : Issue) (th : Thread) (s' : State) : Prop :=
      (s'.thread t).wait = some (.word o) ∧ (s'.thread t).pc = th.pc ∧ s'.scratchGet t.coh.team o 4 = s.scratchGet t.coh.team o 4 ∧
      (s'.team t.coh.team).any (fun m => m.full.contains o) = full
    (passOf loads o = 0 →
      (full = true → Does (.ldsfe gd d a off keep trap) gd s t fun is th s' => GotResult s gd is t th d [word] 0#5 s' ∧
        ∃ m', tget s'.teams t.coh.team = some m' ∧ m'.full.contains o = keep ∧ m'.scratch = m.scratch) ∧
      (full = false → trap = false → Does (.ldsfe gd d a off keep trap) gd s t waits) ∧
      (full = false → trap = true → Does (.ldsfe gd d a off keep trap) gd s t fun is th => Trapped s is t th (trap64 13 o 0#32))) ∧
    (passOf stores o = 0 →
      (full = false ∨ fem = .ovw → Does (.stsfe gd a b off fem) gd s t fun is th s' => Passed s is t th s' ∧
        s'.scratchGet t.coh.team o 4 = leBytes 4 w.toNat ∧ ∃ m', tget s'.teams t.coh.team = some m' ∧ m'.full.contains o = true) ∧
      (full = true → fem = .wait → Does (.stsfe gd a b off fem) gd s t waits) ∧
      (full = true → fem = .trap → Does (.stsfe gd a b off fem) gd s t fun is th => Trapped s is t th (trap64 13 o 1#32))) ∧
    (passOf loads o ≠ 0 → Does (.ldsfe gd d a off keep trap) gd s t fun is th s' => waits is th s' ∧
      ∃ p ∈ s'.mem.passes, p.tid = t ∧ p.off = o ∧ s.cycle < p.due ∧ ∃ lead, p.op = .take keep trap d lead) ∧
    (passOf stores o ≠ 0 → Does (.stsfe gd a b off fem) gd s t fun is th s' => waits is th s' ∧
      ∃ p ∈ s'.mem.passes, p.tid = t ∧ p.off = o ∧ s.cycle < p.due ∧ p.op = .fill w fem)

/-- Peer windows (R263, R325, R326, R560): the LDW or STW of an executing lane sets out for its rank and window while its thread waits in
its slot for the answer, and WOPEN and WCLOSE set one window of the team of the lowest lane and leave its others. -/
def Claims.WindowInstructionsComplete : Prop :=
  ∀ (gd : Guard) (d : Dest) (a b : Src) (off : BitVec 24) (win : Fin 16) (rank : Fin 8) (fem : FillMode) (lz : LdSize) (sz : StSize)
    (writer : Option (Fin 8)) (s : State) (t : Tid) (v : Word) (o : Int), readSrc s t a = .ok v → (v.toNat : Int) + off.toInt = o →
    let sent (size : Nat) (store : Option (List Byte × FillMode)) (dest : Option (Dest × LdSize × Bool)) (_ : Issue) (th : Thread)
        (s' : State) : Prop :=
      (s'.thread t).pc = th.pc ∧ SameValues s t th s' ∧ ∃ x ∈ s'.mem.windows, x.tid = t ∧ x.rank = rank ∧ x.win = win ∧ x.off = o ∧
        x.size = size ∧ x.store = store ∧ x.dest = dest ∧ (s'.thread t).wait = some (.window x.id) ∧
        ∀ p, s.peerOf t rank = some p → x.owner = p ∧ x.arrived = false ∧ x.answer = none
    (o % lz.bytes = 0 → Does (.ldw gd d a off win rank lz) gd s t (sent lz.bytes none (some (d, lz, true)))) ∧
    (∀ n, o % sz.bytes = 0 → readNat s t b sz.regs = .ok n →
      Does (.stw gd a b off win rank fem sz) gd s t (sent sz.bytes (some (leBytes sz.bytes n, fem)) none)) ∧
    ∀ (u : Tid) (m : Team), (s.execs gd).head? = some u → tget s.teams u.coh.team = some m →
      let windows (s' : State) : Option (Vector Window 16) := (s'.team u.coh.team).map fun m => m.windows
      (∀ w : Word, readSrc s u a = .ok w → w.toNat % 128 = 0 → w.toNat + 128 ≤ s.scrOf u.coh.team →
        Does (.wopen gd a win writer) gd s t fun is th s' => Passed s is t th s' ∧
          windows s' = some (m.windows.set win { off := BitVec.ofNat 13 (w.toNat / 128), opened := true, writer := writer })) ∧
      Does (.wclose gd win) gd s t fun is th s' => Passed s is t th s' ∧
        windows s' = some (m.windows.set win { m.windows[win] with opened := false })

/-- Full/empty words and peer windows. -/
def Obligations.FullEmptyAndWindowInstructionsComplete : Prop :=
  Claims.FullEmptyAccessesComplete ∧ Claims.WindowInstructionsComplete

/-! ### Flat memory -/

/-- Loads that pass their checks set out (R147, R276, R329, R333, R336): LD, LDSUB, LDRC and LDWT complete, the thread going on while its
latch and its destination's registers await the value from the home of the bytes, from the core's copy, or from the weight store; no byte
of memory changes. -/
def Obligations.FlatLoadsSetOut : Prop :=
  ∀ (gd : Guard) (d : Dest) (a : Src) (off : BitVec 24) (lz : LdSize) (f : SubFmt) (s s1 : State) (is : Issue)
    (js : List (Tid × Judged)) (t : Tid) (th : Thread) (va pa : Nat) (r : Region),
    Executes s is gd t th → (js.map Prod.fst).Nodup → (t, Judged.ok va pa r) ∈ js →
    let ad := fun u => flatAddr s u a off
    let loads (n size : Nat) (op : AccOp) (s' : State) : Prop := Loading s gd is t th d n pa size op s' ∧ SameMemory s1 s'
    (FlatPass s is gd (loadAsk lz flatKind) ad (piecesOf lz.bytes).length js s1 →
      Answers (.ld gd d a off lz) s (loads lz.regs lz.bytes .load)) ∧
    (FlatPass s is gd (ldsubAsk f) ad 1 js s1 → Answers (.ldsub gd d a off f) s fun s' => ∃ reg, loads 1 4 (.loadSub f reg) s') ∧
    (FlatPass s is gd (loadAsk lz memsideKind) ad 1 js s1 → Answers (.ldrc gd d a off lz) s (loads lz.regs lz.bytes .loadCount)) ∧
    (FlatPass s is gd (loadAsk lz weightKind) ad 0 js s1 → Answers (.ldwt gd d a off lz) s (loads lz.regs lz.bytes .load))

/-- Stores that pass their checks set out (R123, R147, R290, R298, R333): ST and STNA complete with each thread's bytes, lowest lane first,
in pieces of at most eight bytes, and STRC with all of a thread's bytes at once, for the physical address its check found, behind every
access already on its way; no byte of memory changes before they perform. A store to a NONIDEM region ends its team's idempotent region,
and others leave every team as it was. That an STRC goes out as one record, and each piece as its own, is the model's inference (log entry
44). -/
def Obligations.FlatStoresSetOut : Prop :=
  ∀ (gd : Guard) (a b : Src) (off : BitVec 24) (sz : StSize) (cnt : BitVec 8) (s s1 : State) (is : Issue) (js : List (Tid × Judged))
    (t : Tid) (th : Thread), Executes s is gd t th →
    let ad := storeAddr s a b off sz
    let sent (pieces : List (Nat × Nat)) (op : List Byte → AccOp) (s' : State) : Prop :=
      Passed s is t th s' ∧ SameMemory s1 s' ∧
      s'.mem.accesses.map Access.what = (s1.mem.accesses.map Access.what ++ js.flatMap fun p =>
        match p.2 with
        | .ok va pa _ => pieces.map fun x => (p.1, va + x.1, pa + x.1, x.2, op (((bytesOf s b sz p.1).drop x.1).take x.2))
        | .trap _ | .fault _ _ => []) ∧
      (∀ va pa r, (t, Judged.ok va pa r) ∈ js → r.nonIdem = true →
        ∀ m, tget s'.teams t.coh.team = some m → m.restartable = false) ∧
      ((∀ u va pa r, (u, Judged.ok va pa r) ∈ js → r.nonIdem = false) → s'.teams = s1.teams)
    (FlatPass s is gd (storeAsk sz flatKind) ad (piecesOf sz.bytes).length js s1 →
      Answers (.st gd a b off sz) s (sent (piecesOf sz.bytes) fun bs => .store bs true) ∧
      Answers (.stna gd a b off sz) s (sent (piecesOf sz.bytes) fun bs => .store bs false)) ∧
    (FlatPass s is gd (storeAsk sz memsideKind) ad 1 js s1 →
      Answers (.strc gd a b off cnt sz) s (sent [(0, sz.bytes)] fun bs => .storeCount bs cnt.toNat))

/-- Atomics and reductions that pass their checks set out (R122, R337, R338, R340): AADD, AMIN, AMAX, ALOG, AXCH, ACAS, AFADD, AINC, ADEC,
REDI, REDF and REDLOG complete with one indivisible access for each executing lane with its operation and operand; an atomic's latch and
destination await the old value. Each ends its team's idempotent region, and no byte of memory changes before the access performs. -/
def Obligations.AtomicsSetOut : Prop :=
  ∀ (gd : Guard) (d : Dest) (a b : Src) (off : BitVec 24) (sz : AtSize) (sg : Bool) (lg : LogOp) (ro : RedOp) (ft : AtFmt)
    (s s1 : State) (is : Issue) (js : List (Tid × Judged)) (t : Tid) (th : Thread) (va pa : Nat) (r : Region) (u v w : Nat),
    Executes s is gd t th → (js.map Prod.fst).Nodup → (t, Judged.ok va pa r) ∈ js →
    readNat s t b sz.regs = .ok u → readNat s t b 1 = .ok v → readNat s t b (2 * sz.regs) = .ok w →
    let ok (size : Nat) (f : Tid → Except Trap (AtomOp × Nat)) : Prop :=
      FlatPass s is gd (atomAsk size) (fun x => do let p ← flatAddr s x a off; let _ ← f x; .ok p) 1 js s1
    let left (s' : State) : Prop := SameMemory s1 s' ∧ ∀ m, tget s'.teams t.coh.team = some m → m.restartable = false
    let gives (n size : Nat) (op : AtomOp) (k : Nat) (s' : State) : Prop :=
      Loading s gd is t th d n pa size (.atomic op k) s' ∧ left s'
    let sends (size : Nat) (op : AtomOp) (k : Nat) (s' : State) : Prop :=
      Passed s is t th s' ∧ (t, va, pa, size, AccOp.atomic op k) ∈ s'.mem.accesses.map Access.what ∧ left s'
    let m := 2 ^ (8 * sz.bytes)
    (∀ p ∈ [(Instr.aadd gd d a b off sz, AtomOp.add), (.amin gd d a b off sg sz, .min sg), (.amax gd d a b off sg sz, .max sg),
            (.alog gd d a b off lg sz, .logic lg), (.axch gd d a b off sz, .xch)],
      ok sz.bytes (atomValue s b sz p.2) → Answers p.1 s (gives sz.regs sz.bytes p.2 u)) ∧
    (ok sz.bytes (fun x => do let n ← readNat s x b (2 * sz.regs); .ok (.cas (n / m), n % m)) →
      Answers (.acas gd d a b off sz) s (gives sz.regs sz.bytes (.cas (w / m)) (w % m))) ∧
    (∀ p ∈ [(Instr.afadd gd d a b off ft, AtomOp.fadd ft), (.ainc gd d a b off, .inc), (.adec gd d a b off, .dec)],
      ok 4 (atomWord s b p.2) → Answers p.1 s (gives 1 4 p.2 v)) ∧
    (∀ p ∈ [(Instr.redi gd a b off ro sg sz, redOp ro sg), (.redlog gd a b off lg sz, .logic lg)],
      ok sz.bytes (atomValue s b sz p.2) → Answers p.1 s (sends sz.bytes p.2 u)) ∧
    (ok 4 (atomWord s b (.fadd ft)) → Answers (.redf gd a b off ft) s (sends 4 (.fadd ft) v))

/-- The traps of the flat memory instructions and the atomics (R65, R66, R269, R292, R296, R320, R433, R490): a thread whose access fails its
checks takes its own trap, where no other meets a remote fault, and the others act; a lane that executes alone takes Misaligned at an
address off its alignment, Access Violation 0 at one past 2^57, 3 in a region of a kind its instruction does not reach, 4 past the
physical range, 5 on a page that the host has answered with a trap, and 12 at a poisoned sector that it reads. -/
def Claims.FlatAccessesTrap : Prop :=
  ∀ (gd : Guard) (d : Dest) (a b : Src) (off : BitVec 24) (lz : LdSize) (sz : StSize) (az : AtSize) (f : SubFmt) (cnt : BitVec 8)
    (lg : LogOp) (ro : RedOp) (ft : AtFmt) (sg : Bool) (s s1 : State) (is : Issue) (js : List (Tid × Judged)) (t : Tid) (th : Thread)
    (tr : Trap) (A : DWord) (pa sec pte : Nat),
    Executes s is gd t th →
    ∀ p ∈ flatForms s gd d a b off lz sz az f cnt lg ro ft sg,
      let q := p.2.1
      let addr := p.2.2.1
      let roomy (s : State) (n : Nat) : Prop := s.missRoom is.part.core n = true
      let va := A.toNat
      let r := s.regionAt t va
      let sp := s.spaceOf t
      let traps (tr : Trap) : Prop := Answers p.1 s (Trapped s is t th tr)
      (judgeAll q addr (s.execs gd) s = (js, s1) → (js.map Prod.fst).Nodup → (∀ x ∈ js, x.2.isFault = false) →
        roomy s1 (p.2.2.2 * js.length) → (t, Judged.trap tr) ∈ js → traps tr) ∧
      (s.execs gd = [t] → addr t = .error tr → roomy s 0 → traps tr) ∧
      (s.execs gd = [t] → addr t = .ok A →
        (va % q.align ≠ 0 → roomy s 0 → traps (trap64 9 va 0#32)) ∧
        (va % q.align = 0 → 2 ^ 57 ≤ va → roomy s 0 → traps (trap64 10 va 0#32)) ∧
        (va % q.align = 0 → va < 2 ^ 57 →
          (r.kind = .weight → q.allow .weight = false → roomy s 0 → traps (accessViolation va 3)) ∧
          (r.kind ≠ .weight →
            ((sp.1, va / 65536) ∈ th.replayTrap → roomy s 0 → traps (accessViolation va 5)) ∧
            ((sp.1, va / 65536) ∉ th.replayTrap → translate s (s.coreOf t) sp.1 sp.2 va q.kind = (.ok pa pte, s1) → roomy s1 0 →
              (q.allow r.kind = false → traps (accessViolation va 3)) ∧
              (q.allow r.kind = true → dramLimit < pa + q.size → traps (accessViolation va 4)) ∧
              (q.allow r.kind = true → pa + q.size ≤ dramLimit → poisonAt s1 q t va pa (r.kind = .memside) = some sec →
                roomy ((readPoison s1 (r.kind = .memside) sec).report 4 (32 * sec) (locCore (s.coreOf t))) 0 →
                traps (poisonTrap (if pa / 32 = sec then pa else 32 * sec)))))))

/-- What a flat memory instruction or an atomic does where a thread of it meets a page that is not here (R433, R467): with no trap beside
it and records enough, every thread of the group is Parked at its slot with its latches and its run kept, and each page has a record and,
unless it is declined, a chain; with too few free records the group awaits them; and beside traps the traps are taken while the others
stay. -/
def Claims.RemoteFaultsParkTheGroup : Prop :=
  ∀ (gd : Guard) (d : Dest) (a b : Src) (off : BitVec 24) (lz : LdSize) (sz : StSize) (az : AtSize) (f : SubFmt) (cnt : BitVec 8)
    (lg : LogOp) (ro : RedOp) (ft : AtFmt) (sg : Bool) (s s1 : State) (is : Issue) (js : List (Tid × Judged)) (t : Tid) (th : Thread),
    s.issue = some is → t ∈ is.tids → tget s.threads t = some th →
    ∀ p ∈ flatForms s gd d a b off lz sz az f cnt lg ro ft sg,
      let q := p.2.1
      judgeAll q p.2.2.1 (s.execs gd) s = (js, s1) → (∃ x ∈ js, x.2.isFault = true) →
      let fs := gatherFaults s js
      let die := is.part.core.die
      let free := s1.rfqFree die fs.length
      ((∀ x ∈ js, x.2.isTrap = false) →
        (fs.length ≤ free.length → (∀ x ∈ fs, s1.vnp.frameOf x.key = none) → (∀ r ∈ s1.vnp.rfq, r.st ≠ .installed ∧ r.st ≠ .answered) →
          Answers p.1 s fun s' =>
            tget s'.threads t = some { th with status := .parked, wait := none, kept := some { latches := th.latches, rsl := is.rsl } } ∧
            ∀ x ∈ fs, (∃ r ∈ s'.vnp.rfq, r.key = x.key ∧ r.va = x.va ∧ r.touch = x.touch ∧ r.tids = is.tids ∧ r.pc = is.pc ∧
                r.kind = q.kind ∧ r.die = die ∧ r.idx ∈ free ∧ r.st = match x.reason with | some n => .declined n | none => .waiting) ∧
              (x.reason = none → ∃ c ∈ s'.vnp.chains, c.key = x.key)) ∧
        (free.length < fs.length → Answers p.1 s fun s' => tget s'.threads t = some { th with wait := some (.rfq die) })) ∧
      ((∃ x ∈ js, x.2.isTrap = true) → (∀ tr, (t, Judged.trap tr) ∉ js) →
        Answers p.1 s fun s' => tget s'.threads t = some { th with wait := none })

/-- Where the flat memory instructions and the atomics trap, and where they park their group. -/
def Obligations.FlatAccessesTrapOrPark : Prop := Claims.FlatAccessesTrap ∧ Claims.RemoteFaultsParkTheGroup

/-- Subscriptions of a lane that executes alone (R327, R328): SUBS makes one where the core has none on the tile and room, UPGR widens
one, and UNSUB ends one; each gives its status. -/
def Claims.SubscriptionInstructionsComplete : Prop :=
  ∀ (gd : Guard) (d : Dest) (a : Src) (off : BitVec 24) (f : SubFmt) (s s1 : State) (is : Issue) (t : Tid) (th : Thread) (va pa : Nat)
    (r : Region), Executes s is gd t th → s.execs gd = [t] →
    let ad := fun u => flatAddr s u a off
    let held := s1.subOf (s.coreOf t) pa
    let count := (s1.mem.subs.filter fun x => x.core = s.coreOf t).length
    let ends (n : Nat) (s' : State) : Prop := GotResult s gd is t th d [BitVec.ofNat 32 n] 0#5 s'
    let fmtOf (s' : State) : Option SubFmt := (s'.subOf (s.coreOf t) pa).map fun x => x.fmt
    (FlatPass s is gd (tileAsk subscribedKind) ad 0 [(t, .ok va pa r)] s1 →
      Answers (.subs gd d a off f) s (fun s' =>
        match held with
        | some x => ends (if x.fmt = f then 0 else 2) s' ∧ fmtOf s' = some x.fmt
        | none => if 64 ≤ count then ends 1 s' ∧ fmtOf s' = none else ends 0 s' ∧ fmtOf s' = some f) ∧
      Answers (.upgr gd d a off f) s fun s' =>
        match held with
        | some x => if subRank x.fmt < subRank f then ends 0 s' ∧ fmtOf s' = some f else ends 4 s' ∧ fmtOf s' = some x.fmt
        | none => ends 3 s' ∧ fmtOf s' = none) ∧
    (FlatPass s is gd (tileAsk fun _ => true) ad 0 [(t, .ok va pa r)] s1 →
      Answers (.unsub gd d a off) s fun s' =>
        if r.kind = .subscribed ∧ held.isSome then ends 0 s' ∧ fmtOf s' = none else ends 3 s' ∧ fmtOf s' = held.map fun x => x.fmt)

/-- Gates, fences, maintenance and the memory's own reads (R285, R307 to R310, R330 to R335): ACQ gives its die's count, REL and the
maintenance instructions CLNR, INVR and DSCR send out what they begin, FENCE holds the thread's later synchronising writes or drops its
L1 sectors, RFWIN gives the tick of a bank's window, and PRFT passes, for the L2 with its line read into its home slice. That REL waits
for the reads before it as for the writes is the model's inference from R303 (log entry 70). -/
def Claims.OrderingInstructionsComplete : Prop :=
  ∀ (gd : Guard) (d : Dest) (a b : Src) (off : BitVec 24) (gate : BitVec 12) (scope : Dom) (bk acq rel : Bool) (lv : PfLevel)
    (s : State) (t : Tid) (v : Word), readSrc s t a = .ok v →
    (∀ c, acqRead s t gate.toNat = .ok c → Completes (.acq gd d gate) gd d s t [c] 0#5) ∧
    (s.gateNames t gate.toNat = true →
      Does (.rel gd gate) gd s t fun is th s' => Passed s is t th s' ∧ ∃ x ∈ s'.mem.releases,
        x.tid = t ∧ x.num = gate.toNat ∧ x.lid = s.gateLid t.coh.team.lid ∧
        ∀ y ∈ s.mem.accesses, s.precedes t y.tid y.id = true → y.gate = gate.toNat → y.id ∈ x.waits) ∧
    (Does (.fence gd scope bk acq rel) gd s t fun is th s' => Passed s is t th s' ∧
      (rel = true → acq = false → bk = false →
        ∀ y ∈ s.mem.accesses, y.tid = t → y.gate = 0 → Machine.domCode y.dom ≤ Machine.domCode scope → y.id ∈ (s'.thread t).fence) ∧
      (acq = true → ∀ x ∈ s'.mem.l1, x.1.core = s.coreOf t → x.1.asid = (s.spaceOf t).1 →
        ¬ ((s.regionAt t (32 * x.1.sector)).gate = 0 ∧ Machine.domCode (s.regionAt t (32 * x.1.sector)).dom ≤ Machine.domCode scope))) ∧
    (∀ p ∈ [(Instr.clnr gd a b off, MaintKind.clean), (.invr gd a b off, .inval), (.dscr gd a b off, .discard)],
      ∀ ps, maintPieces s t p.2 a b off = .ok ps →
        Does p.1 gd s t fun is th s' => Passed s is t th s' ∧
          (ps ≠ [] → ∃ x ∈ s'.mem.maints, x.tid = t ∧ x.kind = p.2 ∧ x.ranges = ps)) ∧
    Does (.prft gd a off lv) gd s t (fun is th => Passed s is t th) ∧
    (∀ va pa, s.execs gd = [t] → prefetchAt s t (flatAddr s t a off) .l2 = some (va, pa) → s.mem.l2.length + 4 ≤ l2Capacity →
      Does (.prft gd a off .l2) gd s t fun is th s' => Passed s is t th s' ∧
        ∀ k < 4, (tget s'.mem.l2 (pa / 128 * 4 + k)).isSome = true) ∧
    (let k := v.toNat % 32
     let now := s.ptc.toNat
     let w := 40000 * ((now + 40000 - 1250 * k - 320) / 40000) + 1250 * k
     Completes (.rfwin gd d a) gd d s t [BitVec.ofNat 32 w, BitVec.ofNat 32 (w / 2 ^ 32)] 0#5)

/-- Subscriptions, gates, fences and maintenance. -/
def Obligations.SubscriptionsAndOrderingComplete : Prop :=
  Claims.SubscriptionInstructionsComplete ∧ Claims.OrderingInstructionsComplete

/-! ### The parallel group -/

/-- POLL gives a word over the participating threads (R217): the mask of those whose tested value is 1, whether some or every one's
is, or how many; MATCH gives each thread the mask of those whose value is its own (R218). -/
def Obligations.VotesAndMatchesCompute : Prop :=
  ∀ (gd : Guard) (d : Dest) (inv : Bool) (k : Fin 8) (a : Src) (w : Bool) (val : Tid → Nat) (s : State) (t : Tid),
    let ts := s.execs gd
    let yes (u : Tid) : Bool := (s.thread u).reads k != inv
    ∃ mask same : Word,
      (∀ p ∈ [(PollKind.mask, mask), (.some, if ∃ u ∈ ts, yes u then 1#32 else 0#32), (.every, if ∀ u ∈ ts, yes u then 1#32 else 0#32),
              (.count, BitVec.ofNat 32 (ts.countP yes))], Completes (.poll gd d inv k p.1) gd d s t [p.2] 0#5) ∧
      ((∀ u ∈ t :: ts, readNat s u a (if w then 2 else 1) = .ok (val u)) → Completes (.matchLanes gd d a w) gd d s t [same] 0#5) ∧
      ∀ l : Fin 32, (inMask mask l = true ↔ ∃ u ∈ ts, u.lane = l ∧ yes u = true) ∧
        (inMask same l = true ↔ ∃ u ∈ ts, u.lane = l ∧ val u = val t)

/-- Barriers (R207, R208, R219 to R222): BARA arrives and goes on, but a member that has arrived in the open phase is held at the arrival
until it counts; BARW arrives or not and waits out the phase of its last arrival; BARWT does so until a time and says in a
predicate pair whether the phase completed; BARX adds to the bytes awaited and may arrive as BARA does. Each completes for every thread
of a run that executes it. That a held thread is Blocked behind its instruction, its PC at the next slot, and that the arrivals of one
member that are held count in phase after phase, is the model's choice (log entry 65). -/
def Obligations.BarrierInstructionsComplete : Prop :=
  ∀ (gd : Guard) (bar : BarRef) (pp : Fin 4) (a : Src) (s : State) (t u : Tid) (T : DWord) (v : Word),
    (s.execs gd).head? = some u → readPair s t a = .ok T → readSrc s u a = .ok v →
    let k := s.barKey u bar
    let now := (s.bar k).phase
    let went (s' : State) : Prop := now < (s'.bar k).phase
    let due := now + ((s.bar k).held.filter fun x => x = memberOf k t).length
    let pair (s' : State) (x y : Bool) : Prop := (s'.thread t).pred (evenPred pp) = x ∧ (s'.thread t).pred (oddPred pp) = y
    let arrived (x : Tid) (s' : State) : Prop := (memberOf k x ∈ (s'.bar k).arrived ∧ (s'.bar k).phase = now) ∨ went s'
    let held (is : Issue) (th : Thread) (s' : State) : Prop :=
      (s'.thread t).pc = nextPc is.pc ∧ SameValues s t th s' ∧
      (((s'.thread t).status = .arriving ∧ due < (s'.bar k).phase) ∨
        ((s'.thread t).status = .blocked (.held k due) ∧ (s'.bar k).phase ≤ due))
    let waited (is : Issue) (th : Thread) (s' : State) : Prop :=
      (s'.thread t).pc = nextPc is.pc ∧ SameValues s t th s' ∧
      (((s'.thread t).status = .arriving ∧ went s') ∨
        ∃ p, (s'.thread t).status = .blocked (.bar k p none) ∧ (s'.bar k).phase ≤ p)
    let timed (is : Issue) (s' : State) : Prop :=
      (s'.thread t).pc = nextPc is.pc ∧ (∀ r, readReg s' t r = readReg s t r) ∧
      (((s'.thread t).status = .arriving ∧ went s' ∧ pair s' true false) ∨
       ((s'.thread t).status = .arriving ∧ T.toNat ≤ s.ptc.toNat ∧ pair s' false true) ∨
        ∃ p, (s'.thread t).status = .blocked (.bar k p (some (T, pp))) ∧ (s'.bar k).phase ≤ p ∧ s.ptc.toNat < T.toNat)
    let run (_ : Issue) (th : Thread) : Prop := th.status = .inRun
    let first (is : Issue) (th : Thread) : Prop := run is th ∧ memberOf k t ∉ (s.bar k).arrived
    let again (is : Issue) (th : Thread) : Prop := run is th ∧ memberOf k t ∈ (s.bar k).arrived
    let past (is : Issue) (th : Thread) : Prop := run is th ∧ ∀ p, (s.bar k).waitPhase (memberOf k t) = some p → p < now
    let open' (is : Issue) (th : Thread) : Prop := run is th ∧ ∃ p, (s.bar k).waitPhase (memberOf k t) = some p ∧ now ≤ p
    DoesWhere (.bara gd bar) gd s t first (fun is th s' => Passed s is t th s' ∧ arrived t s') ∧
    DoesWhere (.bara gd bar) gd s t again held ∧
    DoesWhere (.barw gd bar false) gd s t run waited ∧
    DoesWhere (.barw gd bar true) gd s t past (fun is th => Passed s is t th) ∧
    DoesWhere (.barw gd bar true) gd s t open' waited ∧
    DoesWhere (.barwt gd pp a bar false) gd s t run (fun is _ => timed is) ∧
    DoesWhere (.barwt gd pp a bar true) gd s t past (fun is th => GotPreds s is t th [(evenPred pp, true), (oddPred pp, false)]) ∧
    DoesWhere (.barwt gd pp a bar true) gd s t open' (fun is _ => timed is) ∧
    ((s.bar k).bytes + (v.toNat : Int) ≤ 2 ^ 31 - 1 →
      let added (s' : State) : Prop := (s'.bar k).bytes = (s.bar k).bytes + (v.toNat : Int)
      DoesWhere (.barx gd a bar false) gd s t run (fun is th s' => Passed s is t th s' ∧ added s') ∧
      DoesWhere (.barx gd a bar true) gd s t first (fun is th s' => Passed s is t th s' ∧ added s' ∧ arrived u s') ∧
      DoesWhere (.barx gd a bar true) gd s t again fun is th s' => held is th s' ∧ added s')

/-- Children and exit (R204, R210, R224, R225): SPAWN leaves the CP a record to read, once the accesses before it have performed, with
its argument and awaits the child's identifier; EXIT ends its threads and takes them out of their cohort's convergence masks. That the
record waits for reads as for writes is the model's inference from R303 (log entry 70). -/
def Claims.SpawnAndExitComplete : Prop :=
  ∀ (gd : Guard) (d : Reg) (a b : Src) (s : State) (t : Tid) (P : DWord) (w : Word),
    readPair s t a = .ok P → readSrc s t b = .ok w →
    (P.toNat % 64 = 0 → P.toNat < 2 ^ 57 → Does (.spawn gd d a b) gd s t fun is th s' => Passed s is t th s' ∧
      ∃ x ∈ s'.cp.spawns, x.tid = t ∧ x.va = P.toNat ∧ x.arg = w ∧
        x.after = s.accessesBefore t (fun _ _ => true) ∧
        ∃ q ∈ (s'.thread t).pends, q.id = x.pend ∧ q.cells = if d.isS = true then [] else cellsOf th d 1) ∧
    Does (.exit gd) gd s t fun is _ s' => (s'.thread t).status = .exited ∧ (s'.thread t).pc = nextPc is.pc ∧
      ∀ e ∈ (s'.cohort t.coh).conv, inMask e.mask t.lane = false

/-- Stage queues (R226), for a lane that executes alone, the register awaiting what is told: ENQ puts 64 bytes of scratch at the end of
the next stage's queue, or reports it full; DEQ takes the oldest item of its own stage's queue into scratch, or reports it empty or at
its end. -/
def Claims.StageQueueInstructionsComplete : Prop :=
  ∀ (gd : Guard) (d : Reg) (a : Src) (s : State) (t : Tid) (l : Launch) (k : Nat) (g up : StageRun) (v : Word) (m : Team),
    s.execs gd = [t] → readSrc s t a = .ok v → v.toNat % 64 = 0 → v.toNat + 64 ≤ s.scrOf t.coh.team → s.stageOf t = some (l, k) →
    s.launch t = some l → tget s.teams t.coh.team = some m →
    let told (w : Word) (s' : State) : Prop := ∃ x ∈ s'.mem.arrivals, x.tid = t ∧ x.words = [w] ∧
      ∃ q ∈ (s'.thread t).pends, q.id = x.pend ∧ q.cells = if d.isS = true then [] else cellsOf (s.thread t) d 1
    let queue (s' : State) (n : Nat) : Option (List QueueItem) := (s'.launch t).bind fun l => (l.stages[n]?).map fun g => g.items
    (k + 1 < l.desc.stages.length → l.stages[k + 1]? = some g →
      Does (.enq gd d a) gd s t fun is th s' => Passed s is t th s' ∧
        if 256 ≤ g.items.length then told 0#32 s' ∧ queue s' (k + 1) = some g.items
        else told 1#32 s' ∧ queue s' (k + 1) = some (g.items ++ [s.scratchGet t.coh.team v.toNat 64])) ∧
    (k ≠ 0 → l.stages[k]? = some g → l.stages[k - 1]? = some up →
      Does (.deq gd d a) gd s t fun is th s' => Passed s is t th s' ∧
        match g.items with
        | it :: rest => told 1#32 s' ∧ queue s' k = some rest ∧ s'.scratchGet t.coh.team v.toNat it.length = it
        | [] => told (if l.desc.ncl ≤ up.ended then 2#32 else 0#32) s' ∧ queue s' k = some [])

/-- Regions and timed waits (R227, R228, R446): RGN makes its team restartable at the next slot, unless a closing instruction of it took
effect in the same cycle, with the resume words given, zero beyond them, and WAITT ends the run of its threads until their time has come. -/
def Claims.RegionsAndTimedWaitsComplete : Prop :=
  ∀ (gd : Guard) (r : Option Reg) (n : Fin 5) (a : Src) (s : State) (t : Tid) (T : DWord), readPair s t a = .ok T →
    (∀ (u : Tid) (m : Team), (s.execs gd).head? = some u → tget s.teams u.coh.team = some m → (r = none → n = 0) →
      Does (.rgn gd r n) gd s t fun is th s' => Passed s is t th s' ∧ ∃ m', tget s'.teams u.coh.team = some m' ∧
        m'.restartable = decide (m.closed ≠ some s.cycle) ∧ m'.regionPc = nextPc is.pc ∧ m'.scratch = m.scratch ∧
        ∀ i : Fin 4, m'.slots[i] = match r with
          | some x => if i.val < n.val then readReg s u (x.plus i.val) else 0#32
          | none => 0#32) ∧
    (T.toNat ≤ s.ptc.toNat → Does (.waitt gd a) gd s t fun is th => Transferred s t th (nextPc is.pc)) ∧
    (s.ptc.toNat < T.toNat → Does (.waitt gd a) gd s t fun is th s' =>
      (s'.thread t).pc = nextPc is.pc ∧ (s'.thread t).status = .waiting ∧ (s'.thread t).wait = some (.time T) ∧ SameValues s t th s')

/-- Children, exit, stage queues, regions and timed waits. -/
def Obligations.SpawnsStagesAndRegionsComplete : Prop :=
  Claims.SpawnAndExitComplete ∧ Claims.StageQueueInstructionsComplete ∧ Claims.RegionsAndTimedWaitsComplete

/-! ### The engine group -/

/-- Copies and conversions to planes (R403 to R405): with handles and a slot that pass their checks, one command of the copy engine
is enqueued with the records captured. -/
def Claims.CopyEngineInstructionsIssue : Prop :=
  ∀ (gd : Guard) (a b : Src) (e : ECom) (bar : Option (Fin 16)) (fs : Fin 8) (s : State) (t u : Tid) (m : Team) (nb : Option DWord)
    (d x y p sc : TensorRec) (h0 h1 h2 h3 : Word) (f : FormatSlot), CanIssue s gd u m e .cpe nb 1 →
    let flat (x : TensorRec) : Prop := x.lay ≤ 1 ∧ (x.rows = 1 ∨ x.rstr = x.rowBytes)
    (Opens s u m a 0 .tensor (.tensor d) → Opens s u m b 1 .tensor (.tensor x) →
      (flat d → flat x → x.rows * x.rowBytes = d.rows * d.rowBytes → Issues (.cpy gd a b e bar) gd s t u .cpe e (.cpy d x bar) nb) ∧
      (d.lay ≤ 1 → x.lay ≤ 1 → x.rows = d.rows → x.rowBytes = d.rowBytes →
        Issues (.cpy2d gd a b e bar) gd s t u .cpe e (.cpy2d d x bar) nb)) ∧
    (OpensPair s u m a 0 .tensor .scale h0 h1 (.tensor p) (.scale sc) → formatSlot s fs = some f → f.valid = true → f.block = 1 →
      f.scale = some true → p.lay = 2 → p.planes = f.planes → sc.lay = 3 → sc.rows = p.rows → sc.cols = p.cols → x.lay ≤ 1 →
      x.rows = p.rows → x.cols = p.cols → x.elem = f.elem →
      (f.elem ∈ [Fmt.n8, .n16, .n32, .s8, .s16, .s32, .f32, .f16, .bf16, .e4m3, .e5m2, .e2m1] →
        Opens s u m b 1 .tensor (.tensor x) → Issues (.tcvp gd a b e fs false) gd s t u .cpe e (.tcvp p sc x none) nb) ∧
      (f.elem = .lc2 → f.planes = 4 → OpensPair s u m b 1 .tensor .tensor h2 h3 (.tensor x) (.tensor y) → y.lay ≤ 1 → y.elem = .e8m0 →
        y.rows = x.rows → y.cols = x.cols / 32 → Issues (.tcvp gd a b e fs true) gd s t u .cpe e (.tcvp p sc x (some y)) nb))

/-- TMMA (R377, R406): over whole tiles one command, and in the quarter form one for each executing thread, of the quarter of its
lane. -/
def Claims.MatrixMultiplyIssues : Prop :=
  ∀ (gd : Guard) (a b : Src) (e : ECom) (fs : Fin 8) (acc : Fin 128) (s : State) (t u : Tid) (m : Team) (nb : Option DWord)
    (f : FormatSlot) (x sx y sy : Tid → TensorRec) (h0 h1 h2 h3 : Tid → Word),
    formatSlot s fs = some f → f.valid = true → f.block = 1 → f.scale = some true → (f.elem = .lc2 → f.planes = 4) →
    let good (rows : Nat) (v : Tid) : Prop :=
      OpensPair s v m a 0 .tensor .scale (h0 v) (h1 v) (.tensor (x v)) (.scale (sx v)) ∧
      OpensPair s v m b 1 .tensor .scale (h2 v) (h3 v) (.tensor (y v)) (.scale (sy v)) ∧ (x v).lay = 2 ∧ (x v).rows = rows ∧
      (sx v).lay = 3 ∧ (sx v).rows = rows ∧ (sx v).cols = (x v).cols ∧ (y v).lay = 2 ∧ (y v).rows = 64 ∧ (y v).cols = (x v).cols ∧
      (sy v).lay = 3 ∧ (sy v).rows = 64 ∧ (sy v).cols = (y v).cols
    (CanIssue s gd u m e .pme nb 1 → good 64 u → Issues (.tmma gd a b e fs acc false) gd s t u .pme e
      (.tmma (x u) (sx u) (y u) (sy u) acc none (h2 u) (h3 u) fs) nb) ∧
    (CanIssue s gd u m e .pme nb (s.execs gd).length →
      (∀ v ∈ s.execs gd, tget s.teams v.coh.team = some m ∧ notBeforeOf s v e = .ok nb ∧ good 16 v) →
      Does (.tmma gd a b e fs acc true) gd s t fun is th s' => Passed s is t th s' ∧
        ∀ v ∈ s.execs gd, Enqueued s v .pme e
          (.tmma (x v) (sx v) (y v) (sy v) acc (some (Fin.ofNat 4 (v.lane.val / 8))) (h2 v) (h3 v) fs) nb s')

/-- The accumulator instructions and TSELK (R407, R409): one command, its tile, its tensor and its rounding mode as captured. -/
def Claims.AccumulatorInstructionsIssue : Prop :=
  ∀ (gd : Guard) (a b : Src) (e : ECom) (fs : Fin 8) (acc : Fin 128) (col : Bool) (k : Fin 64) (s : State) (t u : Tid) (m : Team)
    (nb : Option DWord) (f : FormatSlot) (x r : TensorRec) (v : Word) (l : Launch),
    let slot : Prop := formatSlot s fs = some f ∧ f.valid = true ∧ f.scale = some false ∧
      f.elem ∈ [Fmt.f32, .f16, .bf16, .e4m3, .e5m2, .e2m1] ∧ Opens s u m a 0 .tensor (.tensor x) ∧ x.lay ≤ 1 ∧ x.cols = 64 ∧
      x.elem = f.elem
    (CanIssue s gd u m e .pme nb 1 → Issues (.accz gd e acc) gd s t u .pme e (.accz acc) nb ∧
      (slot → x.rows = 64 → Issues (.accld gd a e fs acc) gd s t u .pme e (.accld acc x) nb ∧
        Issues (.accst gd a e fs acc) gd s t u .pme e (.accst acc x f.rm) nb) ∧
      (slot → x.rows = 1 → Issues (.accred gd a e fs acc col) gd s t u .pme e (.accred acc x f.rm col) nb) ∧
      (readSrc s u a = .ok v → s.launch u = some l → v.toNat < l.desc.acc → v.toNat < 128 →
        Issues (.accadd gd a e acc) gd s t u .pme e (.accadd acc (Fin.ofNat 128 v.toNat)) nb)) ∧
    (CanIssue s gd u m e .sel nb 1 → Opens s u m a 0 .tensor (.tensor x) → Opens s u m b 1 .tensor (.tensor r) → x.lay ≤ 1 →
      x.elem = .f32 → x.rows ≤ 64 → x.cols ≤ 64 → r.lay = 1 → r.elem = .n8 → r.rows = 1 → r.cols = 4616 → r.base % 8 = 0 →
      Issues (.tselk gd a b e k) gd s t u .sel e (.tselk x r (k.val + 1)) nb)

/-- Commands of the copy engine, the matrix engine and the select unit. -/
def Obligations.CoreEngineInstructionsIssue : Prop :=
  Claims.CopyEngineInstructionsIssue ∧ Claims.MatrixMultiplyIssues ∧ Claims.AccumulatorInstructionsIssue

/-- The instructions of the engines off the core (R410 to R412, R541, R542): bank runs over a selection of engines, samples of their
status, a walk for each executing thread, collectives and checksums. -/
def Obligations.OffCoreEngineInstructionsIssue : Prop :=
  ∀ (gd : Guard) (a b : Src) (e : ECom) (s : State) (t u : Tid) (m : Team) (nb : Option DWord) (r : BankRec) (x y : TensorRec)
    (d : CollRec) (w : WalkRec) (start seed lo hi : Tid → Word) (v : Word) (stk e0 ne : Nat),
    let sel : Prop := readSrc s u b = .ok v ∧ v.toNat = stk * 65536 + ne * 256 + e0 ∧ stk < 24 ∧ 0 < ne ∧ e0 + ne ≤ 80
    let out (z : Tid) : Nat := (pairOf (lo z) (hi z)).toNat
    (CanIssue s gd u m e .bke nb 1 → sel →
      (Opens s u m a 0 .bank (.bank r) → Issues (.bankrun gd a b e) gd s t u .bke e (.bankrun r stk e0 ne) nb) ∧
      (Opens s u m a 0 .tensor (.tensor x) → x.lay = 1 → x.rows = 1 → 16 * ne ≤ x.cols → packBits x.elem = 8 →
        Issues (.bankst gd a b e) gd s t u .bke e (.bankst x stk e0 ne) nb)) ∧
    (CanIssue s gd u m e .wlk nb (s.execs gd).length →
      (∀ z ∈ s.execs gd, tget s.teams z.coh.team = some m ∧ notBeforeOf s z e = .ok nb ∧ Opens s z m a 0 .walk (.walk w) ∧
        readRegs s z b 4 = .ok [start z, seed z, lo z, hi z] ∧ out z % 4 = 0 ∧ out z + 4 * (w.steps + 4) ≤ 2 ^ 57) →
      Does (.walk gd a b e) gd s t fun is th s' => Passed s is t th s' ∧
        ∀ z ∈ s.execs gd, Enqueued s z .wlk e (.walk w (start z) (seed z) (out z)) nb s') ∧
    (CanIssue s gd u m e .cle nb 1 →
      (Opens s u m a 0 .coll (.coll d) → (d.rankOf s.moduleNo (s.coreOf u).die).isSome = true →
        Issues (.coll gd a e) gd s t u .cle e (.coll d) nb) ∧
      (Opens s u m a 0 .tensor (.tensor x) → Opens s u m b 1 .tensor (.tensor y) → x.lay ≤ 1 → (x.rows = 1 ∨ x.rstr = x.rowBytes) →
        x.rows * x.rowBytes % 4096 = 0 → 4096 ≤ x.rows * x.rowBytes → y.lay ≤ 1 → (y.rows = 1 ∨ y.rstr = y.rowBytes) → y.base % 8 = 0 →
        y.rows * y.rowBytes = 8 * (x.rows * x.rowBytes / 4096) → Issues (.cksum gd a b e) gd s t u .cle e (.cksum x y) nb))

/-- Handles (R361, R396, R402): TSEAL puts a checked record into the lowest free entry under its next generation and gives the
handle, or gives the status of the check that failed, its predicate pair saying which; TUNSL empties an entry. -/
def Claims.HandleInstructionsComplete : Prop :=
  ∀ (gd : Guard) (d : Dest) (a : Src) (ppr : Fin 4) (kind : RecKind) (s : State) (t u : Tid) (m : Team) (v : Word),
    (s.execs gd).head? = some u → tget s.teams u.coh.team = some m → readSrc s u a = .ok v →
    let n := recordBytes kind
    let bs := s.scratchGet u.coh.team v.toNat n
    let entry (s' : State) (i : Nat) : Option Handle := (tget s'.teams u.coh.team).bind fun m => m.handles[i]?
    let gave (is : Issue) (th : Thread) (w : Word) (ok : Bool) (s' : State) : Prop :=
      (s'.thread t).pc = nextPc is.pc ∧ (s'.thread t).latches[d.rl] = .valid w ∧ (s'.thread t).flg = th.flg ∧
      (s'.thread t).pred (evenPred ppr) = ok ∧ (s'.thread t).pred (oddPred ppr) = !ok ∧
      (d.wbs = false → Lands s gd t th d.reg 1 → readReg s' t d.reg = w)
    (v.toNat % 64 = 0 → v.toNat + n ≤ s.scrOf u.coh.team →
      (m.freeHandle = none → Does (.tseal gd d a ppr kind) gd s t fun is th s' =>
        gave is th 1#32 false s' ∧ ∀ i, entry s' i = m.handles[i]?) ∧
      ∀ i h, m.freeHandle = some i → m.handles[i]? = some h → match readRecord s u kind bs with
        | .error c => Does (.tseal gd d a ppr kind) gd s t fun is th s' =>
            gave is th (BitVec.ofNat 32 c) false s' ∧ ∀ i, entry s' i = m.handles[i]?
        | .ok r => Does (.tseal gd d a ppr kind) gd s t fun is th s' => ∃ g : BitVec 16, g ≠ 0#16 ∧ (g = h.gen + 1#16 ∨ g = 1#16) ∧
            gave is th (BitVec.ofNat 32 (g.toNat * 65536 + kindCode kind * 4096 + i)) true s' ∧
            entry s' i = some { gen := g, record := some r } ∧ ∀ j, j ≠ i → entry s' j = m.handles[j]?) ∧
    ∀ r h, openEntry m v 0 false = .ok r → m.handles[v.toNat % 64]? = some h →
      Does (.tunsl gd a) gd s t fun is th s' => Passed s is t th s' ∧
        entry s' (v.toNat % 64) = some { gen := h.gen, record := none } ∧ ∀ j, j ≠ v.toNat % 64 → entry s' j = m.handles[j]?

/-- Guard slots (R355, R413, R414): GSET opens a slot that no unreported command names, and waits for one that is named; GRES resolves
an open slot by a predicate, ending the heads that a false one holds, and counts one that it finds resolved. -/
def Claims.GuardSlotInstructionsComplete : Prop :=
  ∀ (gd : Guard) (slot : Fin 16) (inv : Bool) (k : Fin 8) (s : State) (t u : Tid) (m : Team),
    (s.execs gd).head? = some u → tget s.teams u.coh.team = some m →
    let tm := u.coh.team
    let named : Prop := ∃ c ∈ s.eng.cmds, c.coh.team = tm ∧ c.guard = some slot
    let v := (s.thread u).reads k != inv
    (s.guardOf tm slot = .unset ∨ ¬ named → Does (.gset gd slot) gd s t fun is th s' =>
      Passed s is t th s' ∧ s'.guardOf tm slot = .unset ∧ ∀ j, j ≠ slot → s'.guardOf tm j = s.guardOf tm j) ∧
    (s.guardOf tm slot ≠ .unset ∧ named → Does (.gset gd slot) gd s t fun _ th s' =>
      (s'.thread t).pc = th.pc ∧ (s'.thread t).wait = some (.slot slot) ∧ SameValues s t th s') ∧
    (s.guardOf tm slot = .unset → Does (.gres gd inv k slot) gd s t fun is th s' => Passed s is t th s' ∧
      s'.guardOf tm slot = (if v then .yes else .no) ∧ (∀ j, j ≠ slot → s'.guardOf tm j = s.guardOf tm j) ∧
      ∀ cls c, v = false → s.headOf tm cls = some c → c.guard = some slot → ∀ c' ∈ s'.eng.cmds, c'.id = c.id → c'.st = .ended 1) ∧
    (s.guardOf tm slot ≠ .unset → Does (.gres gd inv k slot) gd s t fun is th s' => Passed s is t th s' ∧
      (∀ j, s'.guardOf tm j = s.guardOf tm j) ∧ s'.eng.cmds = s.eng.cmds ∧
      (tget s'.teams tm).map (fun m => m.ignored.toNat) = some (min (m.ignored.toNat + 1) 0xFFFFFFFF))

/-- The counters of engine commands (R366, R415 to R417): WAITCNT passes where its class has at most n unreported commands and waits
where it has more, ECANC cancels the cohort's commands of a class or its newest, and TSTAT reads. -/
def Claims.EngineControlInstructionsComplete : Prop :=
  ∀ (gd : Guard) (d : Dest) (a : Option Src) (n : Fin 64) (cls : EngClass) (lastOnly : Bool) (s : State) (t u : Tid) (m : Team)
    (v : Word) (l : Launch) (co : Cohort),
    (s.execs gd).head? = some u → tget s.cohorts u.coh = some co → (∀ x, a = some x → readSrc s u x = .ok v) →
    (s.eng.cmds.map fun c => c.id).Nodup →
    let lim := if a.isSome then v.toNat else n.val
    let count := co.counters[classIdx cls]
    let stopped (c : Command) : Command :=
      match c.st, c.forwarded with
      | .queued, false => { c with st := .ended 4 }
      | .queued, true | .running, _ => { c with cancelled := true }
      | .ended _, _ => c
    (count ≤ lim → Does (.waitcnt gd a n cls) gd s t fun is th => Passed s is t th) ∧
    (lim < count → Does (.waitcnt gd a n cls) gd s t fun _ th s' =>
      (s'.thread t).pc = th.pc ∧ (s'.thread t).wait = some (.count cls lim) ∧ SameValues s t th s') ∧
    (Does (.ecanc gd lastOnly cls) gd s t fun is th s' => Passed s is t th s' ∧
      s'.eng.cmds = s.eng.cmds.map fun c =>
        if c.coh = u.coh ∧ c.cls = cls ∧ (lastOnly = true → (s.cmdsOf u.coh cls).getLast? = some c) then stopped c else c) ∧
    (tget s.teams t.coh.team = some m → tget s.cohorts t.coh = some co → s.launch t = some l → ∃ slots : Word,
      (∀ i : Fin 16, slots.toNat / 4 ^ i.val % 4 = if i.val < l.desc.gsl then
        (match m.guards[i] with | .unset => 0 | .yes => 1 | .no => 2) else 0) ∧
      (∀ p ∈ [((0 : Fin 10), m.nanBlocks), (1, m.ignored), (2, BitVec.ofNat 32 (m.handles.countP fun h => h.record.isNone)), (3, slots)],
        Completes (.tstat gd d p.1) gd d s t [p.2] 0#5) ∧
      ∀ i : Fin 6, Completes (.tstat gd d ⟨4 + i.val, by omega⟩) gd d s t [BitVec.ofNat 32 co.counters[i]] 0#5)

/-- Handles, guard slots and the control of engine commands. -/
def Obligations.HandlesSlotsAndCountersComplete : Prop :=
  Claims.HandleInstructionsComplete ∧ Claims.GuardSlotInstructionsComplete ∧ Claims.EngineControlInstructionsComplete

/-! ### The system group -/

/-- Traps and breakpoints (R68, R153, R431): TRAP takes the user trap with its code, a word whose opcode is not assigned takes the
illegal-instruction trap in every thread of its group, and BKPT passes, or halts its threads and tells the host where debug is
armed. That this is looked up as BKPT executes is the model's reading (log entry 58). -/
def Obligations.TrapInstructionsTakeTheirTrap : Prop :=
  ∀ (gd : Guard) (imm : Word) (w : IWord) (s : State) (t : Tid),
    Does (.trap gd imm) gd s t (fun is th => Trapped s is t th { cls := 15, info0 := imm }) ∧
    (∀ is th, s.issue = some is → t ∈ is.tids → tget s.threads t = some th →
      Answers (.unassignedOpcode w) s (Trapped s is t th { cls := 1, cause := 1 })) ∧
    ((s.modeOf t).2 = false → Does (.bkpt gd imm) gd s t fun is th => Passed s is t th) ∧
    ((s.modeOf t).2 = true → Does (.bkpt gd imm) gd s t fun is th s' =>
      (s'.thread t).pc = nextPc is.pc ∧ (s'.thread t).status = .waiting ∧ (s'.thread t).wait = some .debug ∧ SameValues s t th s' ∧
      HostReport.debug t is.pc imm ∈ s'.cp.reports)

/-- The return from a handler (R62, R154): RTE completes to the resume PC with the handler left, its run kept where the PC is unchanged;
a resume PC out of slot form is an illegal branch target that nests, and outside a handler the return is illegal. That an unchanged PC
enters its slot unchecked, also in the next line, and that a write of the same EPC leaves it unchanged, is the model's choice (log entries
26 and 6). -/
def Obligations.ReturnFromHandlerCompletes : Prop :=
  ∀ (gd : Guard) (s : State) (t : Tid),
    let slot (th : Thread) : Prop := th.epc.toNat % 64 ∈ [0, 12, 24, 36, 48]
    DoesWhere (.rte gd) gd s t (fun _ th => th.hnd = true ∧ slot th) (fun _ th s' =>
      (s'.thread t).pc = th.epc ∧ (s'.thread t).hnd = false ∧ (s'.thread t).status = .arriving ∧ (s'.thread t).latches = noLatches ∧
      SameValues s t th s' ∧ (s'.thread t).kept = (if th.epc = th.resume then th.record else none) ∧
      (s'.thread t).entry = (if th.epc = th.resume then .free else .transfer)) ∧
    DoesWhere (.rte gd) gd s t (fun _ th => th.hnd = true ∧ ¬ slot th) (fun is th =>
      Trapped s is t th { cls := 2, info0 := th.epc.setWidth 32, info1 := (th.epc >>> 32).setWidth 32 }) ∧
    DoesWhere (.rte gd) gd s t (fun _ th => th.hnd = false) fun is th => Trapped s is t th { cls := 1, cause := 16 }

/-- System registers (R150, R151, R155, R535): RDSYS gives each register's value, the handler's only in a handler, WRSYS writes those
that can be written and traps for the others, RDTIME gives the PTC, and a read of CERQ7 takes the head record off its queue. -/
def Obligations.SystemRegistersReadAndWrite : Prop :=
  ∀ (gd : Guard) (d : Dest) (a : Src) (s : State) (t : Tid) (v : Word) (l : Launch) (n : Fin 16) (m : Fin 8) (e : Vector Word 8)
    (es : List (Vector Word 8)), readSrc s t a = .ok v → s.launch t = some l →
    let th := s.thread t
    (∀ p ∈ [(SysReg.flg, th.flg.setWidth 32), (.win, BitVec.ofNat 32 (th.wdep * 65536 + th.wres * 256 + th.wb)),
            (.spal, th.spa.setWidth 32), (.spah, BitVec.ofNat 32 (th.spa.toNat / 2 ^ 32)),
            (.lctl, BitVec.ofNat 32 (32 * l.desc.ten.toNat + 2 * l.desc.ofl.toNat + l.desc.ifl.toNat))],
      Completes (.rdsys gd d p.1) gd d s t [p.2] 0#5) ∧
    (th.hnd = true → ∀ p ∈ [(SysReg.trw n, th.trw[n]), (.epcl, th.epc.setWidth 32), (.epch, BitVec.ofNat 32 (th.epc.toNat / 2 ^ 32))],
      Completes (.rdsys gd d p.1) gd d s t [p.2] 0#5) ∧
    (th.hnd = false → ∀ r ∈ [SysReg.trw n, .epcl, .epch],
      Does (.rdsys gd d r) gd s t (fun is th => Trapped s is t th { cls := 1, cause := 16 })) ∧
    (s.errQueue t = e :: es → Completes (.rdsys gd d (.cerq m)) gd d s t [e[m]] 0#5 ∧
      (s.execs gd = [t] → Does (.cerq7Read gd d) gd s t fun is th s' => GotResult s gd is t th d [e[7]] 0#5 s' ∧ s'.errQueue t = es)) ∧
    (s.errQueue t = [] → Completes (.rdsys gd d (.cerq m)) gd d s t [0#32] 0#5 ∧ Completes (.cerq7Read gd d) gd d s t [0#32] 0#5) ∧
    (∀ r ∈ [SysReg.win, .lctl, .trw n, .cerq m], Does (.wrsys gd a r) gd s t fun is th => Trapped s is t th { cls := 1, cause := 15 }) ∧
    (∀ r ∈ [SysReg.epcl, .epch], DoesWhere (.wrsys gd a r) gd s t (fun _ th => th.hnd = false) fun is th =>
      Trapped s is t th { cls := 1, cause := 16 }) ∧
    (∀ r ∈ [SysReg.flg, .spal, .spah, .epcl, .epch],
      DoesWhere (.wrsys gd a r) gd s t (fun _ th => r ∈ [SysReg.epcl, .epch] → th.hnd = true) fun is th s' =>
        let th' := s'.thread t
        let low (old new : Pc) : Prop := new.toNat = old.toNat / 2 ^ 32 * 2 ^ 32 + v.toNat
        let high (old new : Pc) : Prop := new.toNat = v.toNat % 2 ^ 25 * 2 ^ 32 + old.toNat % 2 ^ 32
        th'.pc = nextPc is.pc ∧ (∀ q, readReg s' t q = readReg s t q) ∧ th'.preds = th.preds ∧ th'.latches = th.latches ∧
        th'.flg = (if r = .flg then v.setWidth 5 else th.flg) ∧
        (if r = .spal then low th.spa th'.spa else if r = .spah then high th.spa th'.spa else th'.spa = th.spa) ∧
        (if r = .epcl then low th.epc th'.epc else if r = .epch then high th.epc th'.epc else th'.epc = th.epc)) ∧
    Completes (.rdtime gd d) gd d s t [s.ptc.setWidth 32, BitVec.ofNat 32 (s.ptc.toNat / 2 ^ 32)] 0#5

/-- Spill and fill (R152): WSAVE completes with the oldest resident frame's sixteen words on their way to SPA, SPA moved up and one
resident frame fewer; WRSTR asks for the sixteen words below SPA while its thread waits in its slot, and nothing of the thread changes
before they have come. Where the window does not allow it the thread traps. -/
def Obligations.SpillAndFillComplete : Prop :=
  ∀ (gd : Guard) (s s1 : State) (is : Issue) (js : List (Tid × Judged)) (t : Tid) (th : Thread) (va pa : Nat) (r : Region),
    Executes s is gd t th →
    let mine : Prop := (js.map Prod.fst).Nodup ∧ (t, Judged.ok va pa r) ∈ js
    let up (u : Tid) : Except Trap DWord :=
      if (s.thread u).wres = 0 then .error { cls := 1, cause := 17 } else .ok ((s.thread u).spa.setWidth 64)
    let down (u : Tid) : Except Trap DWord :=
      if (s.thread u).wres = (s.thread u).frames - 2 ∨ (s.thread u).wdep = (s.thread u).wres then .error { cls := 1, cause := 17 }
      else .ok (((s.thread u).spa - 64#57).setWidth 64)
    (mine → FlatPass s is gd (frameAsk true) up 16 js s1 → Answers (.wsave gd) s fun s' =>
      let fr := (th.wb + th.frames - th.wres) % th.frames
      (s'.thread t).pc = nextPc is.pc ∧ (s'.thread t).spa = th.spa + 64#57 ∧ (s'.thread t).wres = th.wres - 1 ∧
      (s'.thread t).wb = th.wb ∧ (s'.thread t).wdep = th.wdep ∧ (s'.thread t).stack = th.stack ∧ (s'.thread t).latches = th.latches ∧
      SameValues s t th s' ∧ SameMemory s1 s' ∧
      ∀ i < 16, (t, va + 4 * i, pa + 4 * i, 4, AccOp.store (leBytes 4 (th.stack.getD (16 * fr + i) 0#32).toNat) true) ∈
        s'.mem.accesses.map Access.what) ∧
    (mine → FlatPass s is gd (frameAsk false) down 16 js s1 → Answers (.wrstr gd) s fun s' =>
      (s'.thread t).pc = th.pc ∧ SameContext th (s'.thread t) ∧ (s'.thread t).latches = th.latches ∧ (s'.thread t).stack = th.stack ∧
      SameValues s t th s' ∧ SameMemory s1 s' ∧ ∃ id, (s'.thread t).wait = some (.frame id) ∧
        ((∃ x ∈ s'.mem.accesses, x.tid = t ∧ pa ≤ x.pa ∧ x.pa < pa + 64 ∧ x.size = 4 ∧ x.op = .load ∧ ∃ y, x.ret = some y ∧ y.pend = id) ∨
          ∃ x ∈ s'.mem.arrivals, x.tid = t ∧ x.pend = id)) ∧
    (s.execs gd = [t] → s.missRoom is.part.core 0 = true →
      (th.wres = 0 → Answers (.wsave gd) s (Trapped s is t th { cls := 1, cause := 17 })) ∧
      (th.wres = th.frames - 2 ∨ th.wdep = th.wres → Answers (.wrstr gd) s (Trapped s is t th { cls := 1, cause := 17 })))

/-! ### Steps of the cores -/

/-- What comes to a thread from outside its instructions (R25, R152, R211, R221, R228): an outstanding write puts its words into the cells
that still await them and into the latches that captured it, the sixteen words of a fill go to their frame and the window and SPA move,
a deadline and a time release their thread, and a cohort over with all of its business ceases to exist. -/
def Claims.ThreadStepsTakeEffect : Prop :=
  ∀ (s : State) (t : Tid) (th : Thread) (id ph : Nat) (a : Arrival) (p : Pend) (k : BarKey) (T : DWord) (pp : Fin 4) (co : Cohort),
    tget s.threads t = some th →
    (s.mem.arrivals.find? (fun a => a.pend = id) = some a → a.tid = t → th.pends.filter (fun q => q.id = id) = [p] → p.cells.Nodup →
      th.wait ≠ some (.frame id) → Answers (.registerWriteComplete id) s fun s' =>
        (∀ q ∈ (s'.thread t).pends, q.id ≠ id) ∧ (∀ b ∈ s'.mem.arrivals, b.pend ≠ id) ∧ (s'.thread t).pc = th.pc ∧
        (∀ (n : Fin 4) (j : Nat), th.latches[n] = .pend id j → (s'.thread t).latches[n] = .valid (a.words.getD j 0#32)) ∧
        (∀ (i : Nat) (w : Word), p.live[i]? = some true → a.words[i]? = some w →
          (∀ n : Fin 16, p.cells[i]? = some (RegCell.g n) → (s'.thread t).g[n] = w) ∧
          ∀ j, p.cells[i]? = some (RegCell.stk j) → j < th.depth → (s'.thread t).entryAt j = w) ∧
        ∀ n : Fin 16, RegCell.g n ∉ p.cells → (s'.thread t).g[n] = th.g[n]) ∧
    (s.mem.arrivals.find? (fun a => a.pend = id) = some a → a.tid = t → th.wait = some (.frame id) → a.words.length = 16 →
      Answers (.registerWriteComplete id) s fun s' =>
        let fr := (th.wb + 2 * th.frames - th.wres - 1) % th.frames
        (s'.thread t).wait = none ∧ (s'.thread t).spa = th.spa - 64#57 ∧ (s'.thread t).wres = th.wres + 1 ∧
        (s'.thread t).pc = th.pc ∧ (s'.thread t).g = th.g ∧ (s'.thread t).preds = th.preds ∧ (s'.thread t).flg = th.flg ∧
        ∀ j, j < th.depth → (s'.thread t).entryAt j =
          if 16 * fr ≤ j ∧ j < 16 * fr + 16 then a.words.getD (j - 16 * fr) 0#32 else th.entryAt j) ∧
    (th.status = .blocked (.bar k ph (some (T, pp))) → T.toNat ≤ s.ptc.toNat → Answers (.barwtDeadline t) s fun s' =>
      (s'.thread t).status = .arriving ∧ (s'.thread t).pc = th.pc ∧ (s'.thread t).pred (evenPred pp) = false ∧
      (s'.thread t).pred (oddPred pp) = true ∧ ∀ r, readReg s' t r = readReg s t r) ∧
    (th.status = .waiting → th.wait = some (.time T) → T.toNat ≤ s.ptc.toNat → Answers (.waittExpiry t) s fun s' =>
      (s'.thread t).status = .arriving ∧ (s'.thread t).wait = none ∧ (s'.thread t).pc = th.pc ∧ SameValues s t th s') ∧
    (tget s.cohorts t.coh = some co → (∀ x ∈ s.threads, x.1.coh = t.coh → x.2.status = .exited ∧ x.2.pends = []) → co.pends = [] →
      co.claims = [] → (∀ c ∈ s.eng.cmds, c.coh ≠ t.coh) → (∀ x ∈ s.mem.passes, x.tid.coh ≠ t.coh) →
      Answers (.cohortRelease t.coh) s fun s' =>
        tget s'.cohorts t.coh = none ∧ (∀ x ∈ s'.threads, x.1.coh ≠ t.coh) ∧ ∀ b ∈ s'.barriers, b.1.owner ≠ .cohort t.coh)

/-- What comes to the groups of a partition (R37, R191, R443 to R445): the oldest replayed group is admitted where fewer than eight were
in 1,024 cycles, a second copy of a line lets its thread issue again or traps it, a retry of a residue that passes is counted and its
group issues next, and one that fails again ends its thread and takes its core out of service; where the instruction does not use the
unit, or its guard is false, nothing comes of it. That the retry is the group's next issue, which units an instruction uses, and which
cause a second copy of a line has are the model's choices (log entries 40, 65 and 26). -/
def Claims.PartitionStepsTakeEffect : Prop :=
  ∀ (s s1 : State) (p : PartId) (t : Tid) (th : Thread) (line : Pc) (bs : List Byte) (unit : Nat) (xs ys : List Replay) (r : Replay),
    tget s.threads t = some th →
    ((s.partition p).replays = xs ++ r :: ys → (∀ x ∈ xs, x.admitted.isSome = true) → r.admitted = none →
      ((s.partition p).admissions.filter fun c => s.cycle < c + 1024).length < 8 →
      Answers (.replayAdmission p) s fun s' =>
        (s'.partition p).replays = xs ++ { r with admitted := some s.cycle } :: ys ∧ s.cycle ∈ (s'.partition p).admissions ∧
        s'.threads = s.threads) ∧
    (s.refetching p line = [t] → freshLine s t th.pc = (.line bs, s1) →
      (lineParity bs = 0 ∨ th.entry.checked = false → Answers (.fetchParityRefetch p line) s fun s' =>
        (s'.thread t).wait = none ∧ (s'.thread t).pc = th.pc ∧ (s'.thread t).status = th.status ∧ SameValues s t th s') ∧
      (lineParity bs ≠ 0 → th.entry.checked = true → Answers (.fetchParityRefetch p line) s
        (Trapped s (issueAt p th.pc bs [t] (s.runSlots p t)) t th { cls := 1, cause := 5 }))) ∧
    (th.status = .inRun ∨ th.status = .seated → (s.cohort t.coh).part = p → fetchLine false s t th.pc = (.line bs, s1) →
      let used := s.unitUsed t (slotWord bs (slotOf th.pc)) unit
      (used = true → s.rel.reports.length < 4096 → Answers (.residueRetry p t unit true) s fun s' =>
        s'.threads = s.threads ∧ (s'.partition p).retry = some t ∧
        ∃ e, s'.rel.reports = s.rel.reports ++ [e] ∧ e.kind = 5 ∧ e.loc = locCore p.core ∧ e.ptc = s.ptc.toNat % 2 ^ 48) ∧
      (used = true → unit < 2 ^ 32 → Answers (.residueRetry p t unit false) s fun s' =>
        p.core ∈ s'.rel.fenced ∧ ∃ x ∈ s'.traps, x.tid = t ∧ x.record[0].toNat % 32 = 16 ∧ x.record[8].toNat = unit) ∧
      (used = false → ∀ passes, Answers (.residueRetry p t unit passes) s fun s' => s' = s))

/-- Steps of threads, cohorts and partitions. -/
def Obligations.ThreadAndPartitionStepsTakeEffect : Prop :=
  Claims.ThreadStepsTakeEffect ∧ Claims.PartitionStepsTakeEffect

/-- Peer windows at their owner and back (R264, R265, R326, R560): at its arrival a load is answered with its bytes, a store whose words are
empty, or any in mode ovw, writes them and makes them full, one that meets a full word waits in its list or is answered by its mode, and
one that the window refuses is answered so; an answer completes the instruction, with a load's registers, or traps it. That a store of
several words which meets one full word writes none of them and waits whole is the model's inference (log entry 32). -/
def Claims.WindowStepsTakeEffect : Prop :=
  ∀ (s : State) (id : Nat) (a : WinAccess) (m : Team) (th : Thread) (l : Late) (bs : List Byte) (d : Dest) (sz : LdSize) (lead : Bool),
    s.mem.windows.find? (fun w => w.id = id) = some a →
    let t := a.tid
    let o := a.target m
    let answer (s' : State) : Option WinAnswer := (s'.mem.windows.find? fun w => w.id = id).bind fun w => w.answer
    let bad := a.refused (s.scrOf a.owner) (((s.team t.coh.team).map fun x => x.k2).getD 0) m
    let inside (w : Nat) : Prop := o ≤ w ∧ w + 4 ≤ o + bs.length ∧ w % 4 = 0
    let meets : Prop := ∃ w, inside w ∧ m.full.contains w = true
    let same (s' : State) : Prop := s'.scratchGet a.owner o bs.length = s.scratchGet a.owner o bs.length
    (a.arrived = false → tget s.teams a.owner = some m → (∀ p ∈ s.mem.passes, p.tid ≠ t) →
      (bad = true → Answers (.windowAccessArrival id) s fun s' => answer s' = some .refused ∧ s'.teams = s.teams) ∧
      (bad = false → a.store = none → Answers (.windowAccessArrival id) s fun s' =>
        answer s' = some (.data (s.scratchGet a.owner o a.size)) ∧ s'.teams = s.teams) ∧
      (bad = false → ∀ mode, a.store = some (bs, mode) → m.waiters = [] →
        (¬ meets ∨ mode = .ovw → Answers (.windowAccessArrival id) s fun s' =>
          answer s' = some .stored ∧ s'.scratchGet a.owner o bs.length = bs ∧
          ∀ m', tget s'.teams a.owner = some m' → ∀ w, inside w → m'.full.contains w = true) ∧
        (meets → mode = .trap → Answers (.windowAccessArrival id) s fun s' => answer s' = some .wouldWait ∧ same s') ∧
        (meets → mode = .wait → Answers (.windowAccessArrival id) s fun s' => answer s' = a.answer ∧ same s' ∧
          ∀ m', tget s'.teams a.owner = some m' → ∃ w, inside w ∧ (w, WordWaiter.peer id) ∈ m'.waiters))) ∧
    (tget s.threads t = some th → s.late.find? (fun l => l.tid = t) = some l → s.behindLane a = false →
      let off : DWord := BitVec.ofInt 64 a.off
      let tr (cls : Nat) (info : Word) : Trap := { cls := cls, info0 := off.setWidth 32, info1 := (off >>> 32).setWidth 32, info2 := info }
      (a.answer = some .stored → Answers (.windowAnswer id) s fun s' => (s'.thread t).wait = none ∧ SameValues s t th s' ∧
        ∀ w ∈ s'.mem.windows, w.id ≠ id) ∧
      (a.answer = some (.data bs) → a.dest = some (d, sz, lead) → Answers (.windowAnswer id) s fun s' =>
        let ws := extWords sz bs
        (s'.thread t).wait = none ∧ (s'.thread t).latches[d.rl] = .valid (ws.headD 0#32) ∧ (s'.thread t).pc = th.pc ∧
        (d.wbs = false → (d.reg.isS = true → lead = true) → Lands s alwaysGuard t th d.reg ws.length → ws.length = sz.regs →
          ∀ (i : Nat) (h : i < ws.length), readReg s' t (d.reg.plus i) = ws[i])) ∧
      (a.answer = some .refused → Answers (.windowAnswer id) s (Trapped s l.issue t th (tr 10 2#32))) ∧
      (a.answer = some .wouldWait → Answers (.windowAnswer id) s (Trapped s l.issue t th (tr 13 (BitVec.ofNat 32 (3 + 4 * a.rank.val))))))

/-- Notifications and gates (R279, R303, R306, R307): the oldest notification of a core's tile is taken first, an update replacing the
elements it names where their sector is held and an invalidation dropping its sectors; a release whose writes have performed, once it has
reached its home, counts its gate there and on every die. -/
def Claims.NoticeAndGateStepsTakeEffect : Prop :=
  ∀ (s : State) (id lid gate c : Nat) (n : Notice) (x : Subscription) (r : Release) (l : Launch),
    (s.mem.notices.find? (fun n => n.id = id) = some n → s.subOf n.core n.pa = some x → tileOf n.pa = n.pa →
      (∀ q ∈ s.mem.notices, q.core = n.core → q.pa = n.pa → n.id ≤ q.id) →
      (n.update = true → (n.elems.map Prod.fst).Nodup → Answers (.subscriptionUpdate id) s fun s' =>
        (∀ q ∈ s'.mem.notices, q.id ≠ id) ∧ ∃ y, s'.subOf n.core n.pa = some y ∧ y.fmt = x.fmt ∧
          ∀ e ∈ n.elems, ∀ es, tget x.sectors (e.1 / 8) = some es → e.1 % 8 < es.length →
            (tget y.sectors (e.1 / 8)).bind (fun l => l[e.1 % 8]?) = some (cmpEncode .f32 x.fmt e.2)) ∧
      (n.update = false → Answers (.subscriptionInvalidation id) s fun s' =>
        (∀ q ∈ s'.mem.notices, q.id ≠ id) ∧ ∃ y, s'.subOf n.core n.pa = some y ∧
          ∀ k, tget y.sectors k = if k ∈ n.sectors then none else tget x.sectors k)) ∧
    ((s.mem.notices.map fun n => n.id).Nodup → s.mem.notices.find? (fun n => n.id = id) = some n →
      (∃ q ∈ s.mem.notices, q.id < n.id ∧ q.core = n.core ∧ q.pa = n.pa) →
      ∀ i ∈ [Instr.subscriptionUpdate id, .subscriptionInvalidation id], Answers i s fun s' => s' = s) ∧
    (s.mem.releases.filter (fun r => r.lid = lid ∧ r.num = gate) = [r] → r.arrived = some c → c < s.cycle → s.launchOf lid = some l →
      Answers (.gateReleaseApply lid gate) s fun s' =>
        let g := s'.gate lid gate
        g.rv = true ∧ g.ri = r.ri ∧ g.cnt = (s.gate lid gate).cnt + 1#32 ∧ (∀ q ∈ s'.mem.releases, q.id ≠ r.id) ∧
        ∀ die ∈ l.gateDies, g.onDie die = (true, r.ri, (s.gate lid gate).cnt + 1#32))

/-- Steps of peer windows, notifications and gates. -/
def Obligations.WindowNoticeAndGateStepsTakeEffect : Prop :=
  Claims.WindowStepsTakeEffect ∧ Claims.NoticeAndGateStepsTakeEffect

/-! ### Steps of the memory system -/

/-- An access at its home (R284, R289, R290, R298, R329, R338), where the levels have room and its sector is not lost: a store writes its
bytes and no others, a load or an atomic gives back the bytes that stood there, alone or as the part that they are of a longer value, and
an atomic leaves its operation's value; STRC sets its line's count, LDRC counts it down and drops it at 0, and LDSUB gives the element
encoded at its format. -/
def Obligations.AccessesPerformAtTheirHome : Prop :=
  ∀ (s : State) (id : Nat) (a : Access) (bs : List Byte) (al reg : Bool) (op : AtomOp) (v k : Nat) (f : SubFmt) (r : RetTo),
    s.mem.accesses.find? (fun b => b.id = id) = some a → s.mayPerform a = true → a.pa % 32 + a.size ≤ 32 → 0 < a.size →
    s.readOutcome (a.pa / 32) ≠ .lost → WholeSector s (a.pa / 32) → Roomy s 1 →
    (a.memside = true → tget s.mem.l2 (a.pa / 32) = none ∧ s.pendingBack (a.pa / 32) = none) →
    let done (s' : State) : Prop := ∀ b ∈ s'.mem.accesses, b.id ≠ id
    let others (s' : State) : Prop := ∀ x, ¬ (a.pa ≤ x ∧ x < a.pa + a.size) → s'.homeByte x = s.homeByte x
    let old := s.homeBytes a.pa a.size
    let back (ws : List Word) (s' : State) : Prop := ∃ x ∈ s'.mem.arrivals, x.tid = a.tid ∧ x.pend = r.pend ∧ x.words = ws
    let told (s' : State) : Prop :=
      match r.part with
      | none => back (extWords r.ext old) s'
      | some j => ∀ g, s.mem.gathers.reverse.find? (fun g => g.id = r.pend) = some g →
          let parts := g.parts.set j (some old)
          if parts.all Option.isSome = true then
            ∃ x ∈ s'.mem.arrivals, x.tid = g.tid ∧ x.pend = r.pend ∧ x.words = extWords g.ext (parts.flatMap fun p => p.getD [])
          else { g with parts := parts } ∈ s'.mem.gathers
    (a.op = .store bs al → bs.length = a.size → Answers (.homeAccessPerform id) s fun s' =>
      done s' ∧ others s' ∧ s'.homeBytes a.pa a.size = bs) ∧
    (a.op = .storeCount bs k → a.memside = true → bs.length = a.size → Answers (.homeAccessPerform id) s fun s' =>
      done s' ∧ others s' ∧ s'.homeBytes a.pa a.size = bs ∧ (tget s'.mem.counted (a.pa / 128)).map (fun c => c.count) = some k) ∧
    (s.poisoned a.memside (a.pa / 32) = false → a.ret = some r →
      (a.op = .load → Answers (.homeAccessPerform id) s fun s' => done s' ∧ told s' ∧ ∀ x, s'.homeByte x = s.homeByte x) ∧
      (a.op = .loadSub f reg → Answers (.homeAccessPerform id) s fun s' =>
        done s' ∧ back [BitVec.ofNat 32 (subEnc f (leNat old))] s' ∧ ∀ x, s'.homeByte x = s.homeByte x) ∧
      (a.op = .atomic op v → (leBytes a.size (atomNew op (8 * a.size) (leNat old) v)).length = a.size →
        Answers (.homeAccessPerform id) s fun s' => done s' ∧ others s' ∧ back (leWords old) s' ∧
          s'.homeBytes a.pa a.size = leBytes a.size (atomNew op (8 * a.size) (leNat old) v)) ∧
      (a.op = .loadCount → a.memside = true → Answers (.homeAccessPerform id) s fun s' => done s' ∧ told s' ∧
        ∀ c, tget s.mem.counted (a.pa / 128) = some c → (tget s'.mem.counted (a.pa / 128)).map (fun c => c.count) =
          if c.count ≤ 1 then none else some (c.count - 1)))

/-- Sectors that leave their place (R280, R284, R289, R290, R331, R332): an evicted or cleaned dirty sector goes to its base die with its
bytes, an invalidated or discarded one leaves its home, a counted line that is evicted leaves what has been written of it in DRAM with
its poison, and a base die takes a write-back's sector, into its counted line or into DRAM. That a write-back to a line without a count
goes to DRAM at once, and one to a line with a count stays over DRAM, is the model's inference (log entry 15). -/
def Obligations.SectorsLeaveTheirPlace : Prop :=
  ∀ (s : State) (line id : Nat) (c : Counted) (m : Maint) (w : WriteBackMsg),
    ((∃ k < 4, (tget s.mem.l2 (4 * line + k)).isSome = true) → Answers (.l2Eviction line) s fun s' =>
      ∀ k < 4, tget s'.mem.l2 (4 * line + k) = none ∧
        ∀ l, tget s.mem.l2 (4 * line + k) = some l → l.dirty = true → l.data.length = 32 →
          s'.homeBytes (32 * (4 * line + k)) 32 = l.data) ∧
    (tget s.mem.counted line = some c → (c.sectors.map Prod.fst).Nodup → (∀ x ∈ c.sectors, x.2.1.length = 32) →
      Answers (.memsideCapacityEviction line) s fun s' => tget s'.mem.counted line = none ∧
        (∀ x ∈ c.sectors, s'.dramSector x.1 = x.2.1 ∧ s'.psn x.1 = x.2.2) ∧
        ∀ sec, sec ∉ c.sectors.map Prod.fst → s'.dramSector sec = s.dramSector sec) ∧
    (s.mem.maints.find? (fun m => m.id = id) = some m → s.edgeOpen m.tid.coh.team = false →
      (∀ a ∈ s.mem.accesses, a.tid = m.tid → a.id < m.id → m.covers (a.pa / 32) = false) →
      (∀ q ∈ s.mem.maints, q.tid = m.tid → m.id ≤ q.id) →
      (∀ x ∈ m.sectors, m.discards s x.2 = true → s.snapshotBlocks m.tid.coh.team.lid (32 * x.2) = false) →
      Answers (.maintenanceComplete id) s fun s' =>
        (∀ q ∈ s'.mem.maints, q.id ≠ id) ∧ ∀ x ∈ m.sectors,
          let back (l : L2Sector) : Prop := ∃ w ∈ s'.mem.writeBacks, w.sector = x.2 ∧ w.data = l.data ∧ w.poison = l.poison
          (m.kind = .clean → ∀ l, tget s.mem.l2 x.2 = some l → l.dirty = true →
            back l ∧ tget s'.mem.l2 x.2 = some { l with dirty := false }) ∧
          (m.kind = .inval → tget s'.mem.l2 x.2 = none ∧ ∀ l, tget s.mem.l2 x.2 = some l → l.dirty = true → back l) ∧
          (m.kind = .discard → tget s'.mem.l2 x.2 = none ∧ s'.mem.writeBacks = s.mem.writeBacks)) ∧
    (s.mem.writeBacks.find? (fun w => w.id = id) = some w → (∀ v ∈ s.mem.writeBacks, v.sector = w.sector → id ≤ v.id) →
      w.data.length = 32 → Answers (.writeBackAccept id) s fun s' => (∀ v ∈ s'.mem.writeBacks, v.id ≠ id) ∧
        (tget s.mem.counted (w.sector / 4) = none → s'.dramSector w.sector = w.data ∧ s'.psn w.sector = w.poison) ∧
        ((tget s.mem.counted (w.sector / 4)).isSome = true → s'.sideCopy w.sector = some (w.data, w.poison) ∧ s'.mem.dram = s.mem.dram))

/-- The weight store's refresh, walks, shootdowns and the waits they end (R285, R286, R462 to R464, R467). That a bank's window begins and
ends by steps while the PTC stands in it, and that a walk is one step, is the model's inference (log entries 35 and 16). -/
def Obligations.TranslationAndRefreshStepsTakeEffect : Prop :=
  ∀ (s s1 : State) (die bank queue va asid root id a pte : Nat) (big : Bool) (core : CoreId) (kind : AccKind) (d : Shootdown),
    (1250 * bank ≤ s.ptc.toNat % 40000 → s.ptc.toNat % 40000 < 1250 * bank + 320 → Answers (.weightRefreshStart die bank) s fun s' =>
      (die, bank) ∈ s'.mem.refreshing) ∧
    (¬ (1250 * bank ≤ s.ptc.toNat % 40000 ∧ s.ptc.toNat % 40000 < 1250 * bank + 320) → Answers (.weightRefreshEnd die bank) s fun s' =>
      (die, bank) ∉ s'.mem.refreshing ∧
      ∀ x ∈ s.mem.weightReads, x.bank = some (die, bank) → x ∈ s'.mem.arrivals ∧ x ∉ s'.mem.weightReads) ∧
    (tget s.bindings queue = some (asid, root) → tlbFind ((tget s.mem.coreTlb core).getD []) asid va = none →
      tlbFind ((tget s.mem.dieTlb core.die).getD []) asid va = none → s.walk root va = (.leaf a pte big, s1) →
      leafOutcome kind pte (leafPa pte big va) = .ok (leafPa pte big va) pte → Answers (.pageWalk core queue va kind) s fun s' =>
        ∃ e, tlbFind ((tget s'.mem.coreTlb core).getD []) asid va = some e ∧ e.pages = (if big then 4096 else 1) ∧
          pteFrame e.pte = pteFrame pte ∧ pteBit e.pte 5 = true ∧ (kind = .write → pteBit e.pte 6 = true)) ∧
    (s.missRoom core 1 = true → Answers (.missTableWaitEnd core) s fun s' =>
      ∀ t, (tget s.threads t).map (fun th => th.wait) = some (some .missTable) → s.coreOf t = core → (s'.thread t).wait = none) ∧
    (s.rfqFree die 1 ≠ [] → Answers (.rfqWaitEnd die) s fun s' =>
      ∀ t, (tget s.threads t).map (fun th => th.wait) = some (some (.rfq die)) → (s'.thread t).wait = none) ∧
    (s.mem.shootdowns.find? (fun d => d.id = id) = some d →
      (∀ i ∈ d.waits, (∀ x ∈ s.mem.accesses, x.id ≠ i) ∧ (∀ x ∈ s.mem.arrivals, x.pend ≠ i) ∧ (∀ x ∈ s.mem.gathers, x.id ≠ i) ∧
        ∀ x ∈ s.mem.maints, x.id ≠ i) →
      Answers (.translationShootdown id) s fun s' =>
        (∀ x ∈ s'.mem.shootdowns, x.id ≠ id) ∧ (∀ q, d.seq = some q → s'.cp.completions = s.cp.completions ++ [(q, 0)]) ∧
        (∀ c l e, tget s'.mem.coreTlb c = some l → e ∈ l → e.asid = d.asid → e.vpn + e.pages ≤ d.vpn ∨ d.vpn + d.pages ≤ e.vpn) ∧
        ∀ c l e, tget s'.mem.dieTlb c = some l → e ∈ l → e.asid = d.asid → e.vpn + e.pages ≤ d.vpn ∨ d.vpn + d.pages ≤ e.vpn)

/-! ### Steps of the VNP -/

/-- The service of a page chain up to its page's data (R470, R473 to R475, R482, R483): taken with DIRQ to its home, sent for the page
by the reply, or declined by it, given a frame with the sixteenth message, sent again after a timeout and declined after the last, or
declined 20 ms after its first record, a frame that it had going back. What comes from another module is taken from what has arrived
and been accepted. That a chain which waits for a frame is exempt from the hard timeout and is declined with reason 7 20 ms after its
first record is the model's choice (log entry 43), and so is how the steps of the VNP follow one another (log entry 41). -/
def Claims.PageChainsFetchTheirPage : Prop :=
  ∀ (s : State) (key : PageKey) (c : Chain) (idx lease : Nat) (src : PageSource) (w owned : Bool) (got : List (Nat × List Byte))
    (data : List Byte), s.chain key = some c →
    let now := s.ptc.toNat
    let writes : Bool := s.vnp.rfq.any fun r => r.key = key ∧ (r.st = .waiting ∨ r.st = .saved none false) ∧ r.kind = .write
    let stands (s' : State) (st : ChainState) (retries : Nat) (msg : Nat → VnpMsg) : Prop :=
      ∃ d, s'.chain key = some d ∧ d.st = st ∧ d.seq = s.vnp.seq + 1 ∧ d.retries = retries ∧ d.sent = now ∧ msg (s.vnp.seq + 1) ∈ s'.vnp.sent
    let declined (reason : Nat) (s' : State) : Prop := s'.chain key = none ∧
      ∀ r ∈ s.vnp.rfq, r.waits key = true → ∃ r' ∈ s'.vnp.rfq, r'.order = r.order ∧ r'.st = .declined reason
    let reply (r : DirReply) : Prop := ∃ s0, Heard s (s.homeOf key) (.reply s.moduleNo key c.seq r) s0
    let page : Prop := match src with
      | .module m _ => ∃ s0, Heard s m (.pageData s.moduleNo key c.seq idx data) s0
      | .storage _ => True
    ((s.firstChain.map fun d => d.key) = some key → s.running < 48 → (∃ r ∈ s.vnp.rfq, r.waits key = true) →
      (s.clockBad = false →
        Answers (.vnpChainTake key) s fun s' => stands s' (.directory writes) 0 fun q => .dirq (s.homeOf key) key writes q) ∧
      (s.clockBad = true → Answers (.vnpChainTake key) s (declined 4))) ∧
    (c.st = .directory w →
      (s.sourceOk src = true →
        (reply (.shared src lease) → Answers (.directoryReply key c.seq (.shared src lease)) s fun s' =>
          stands s' (.fetch src lease false []) 0 fun q => .pageRead src key q) ∧
        (reply (.owned src true) → Answers (.directoryReply key c.seq (.owned src true)) s fun s' =>
          stands s' (.fetch src 0 true []) 0 fun q => .pageRead src key q)) ∧
      (s.sourceOk src = false → reply (.shared src lease) → Answers (.directoryReply key c.seq (.shared src lease)) s (declined 8)) ∧
      (reply (.owned src false) → Answers (.directoryReply key c.seq (.owned src false)) s fun s' =>
        ∃ d, s'.chain key = some d ∧ d.st = .install none src 0 true) ∧
      (reply .absent → Answers (.directoryReply key c.seq .absent) s (declined 5)) ∧
      (reply .refused → Answers (.directoryReply key c.seq .refused) s (declined 6)) ∧
      (c.retries < 3 → c.sent + 2000000 + 500000 * 2 ^ c.retries ≤ now → Answers (.stepTimeout key) s fun s' =>
        stands s' (.directory w) (c.retries + 1) fun q => .dirq (s.homeOf key) key w q) ∧
      (3 ≤ c.retries → c.sent + 2000000 ≤ now → Answers (.stepTimeout key) s (declined 4))) ∧
    (c.st = .fetch src lease owned got → idx < 16 → data.length = 4096 → tget got idx = none →
      (got.length < 15 → page → Answers (.pageDataMessage key c.seq idx data) s fun s' =>
        ∃ d, s'.chain key = some d ∧ d.st = .fetch src lease owned (got ++ [(idx, data)])) ∧
      (got.length = 15 → page → s.vnp.pool ≠ [] → Answers (.pageDataMessage key c.seq idx data) s fun s' =>
        ∃ d f, s'.chain key = some d ∧ d.st = .install (some f) src lease owned ∧ f ∈ s.vnp.pool ∧
          s'.vnp.pool = s.vnp.pool.erase f ∧ ((∀ i < 16, ∃ bs, tget (got ++ [(idx, data)]) i = some bs ∧ bs.length = 4096) →
            ∀ i < 16, ∀ bs, tget (got ++ [(idx, data)]) i = some bs → cellGetAll 0#8 (65536 * f + 4096 * i) 4096 s'.mem.dram = bs)) ∧
      (got.length = 15 → page → s.vnp.pool = [] → c.frameWait = none → Answers (.pageDataMessage key c.seq idx data) s fun s' =>
        ∃ d, s'.chain key = some d ∧ d.frameWait = some now) ∧
      (got.length < 16 → c.retries < 3 → c.sent + 2000000 + 500000 * 2 ^ c.retries ≤ now → Answers (.stepTimeout key) s fun s' =>
        stands s' (.fetch src lease owned []) (c.retries + 1) fun q => .pageRead src key q)) ∧
    (c.frameWait = none → c.st ≠ .wake → c.since + 20000000 ≤ now → Answers (.faultHardTimeout key) s fun s' =>
      declined 4 s' ∧ ∀ f x y z, c.st = .install (some f) x y z → f ∈ s'.vnp.pool) ∧
    (c.frameWait.isSome = true → c.since + 20000000 ≤ now → Answers (.noFrameDecline key) s (declined 7))

/-- The end of a page chain (R185, R474, R477, R485, R559): the leaf is written where the walk still finds it as the fault did, and the
install abandoned otherwise or where its queue is no longer bound to its address space; the records that the page serves are resolved and the threads of their
groups arrive at their instruction; and the oldest declined record goes to the host. -/
def Claims.PageChainsInstallAndWake : Prop :=
  ∀ (s s1 : State) (key : PageKey) (c : Chain) (src : PageSource) (f lease root a pte reason die : Nat) (owned : Bool) (fr : Frame)
    (r : ParkRec) (th : Thread) (t : Tid),
    let asMet : Prop := pteBit pte 0 = false ∧ pteBit pte 1 = true ∧ pteFrame pte = 0
    let abandoned (m : MemSys) (s' : State) : Prop :=
      s'.chain key = none ∧ f ∈ s'.vnp.pool ∧ .release (s.homeOf key) key (s.vnp.seq + 1) ∈ s'.vnp.sent ∧ s'.mem = m
    (s.chain key = some c → c.st = .install (some f) src lease owned → f < 2 ^ 36 →
      (s.rootOf c = none → Answers (.install key) s (abandoned s.mem)) ∧
      (s.rootOf c = some root → s.leafOf root key = (none, s1) → Answers (.install key) s (abandoned s1.mem)) ∧
      (s.rootOf c = some root → s.leafOf root key = (some (a, pte), s1) →
        (asMet → Answers (.install key) s fun s' =>
          (∃ d, s'.chain key = some d ∧ d.st = .wake) ∧
          (∃ x ∈ s'.vnp.frames, x.key = key ∧ x.frame = f ∧ x.owned = owned ∧ x.lease = lease ∧ x.root = root ∧ x.src = src) ∧
          ∃ v, s'.mem = (s1.setPte a v).mem ∧ pteBit v 0 = true ∧ pteBit v 1 = true ∧ pteBit v 2 = owned ∧ pteBit v 3 = pteBit pte 3 ∧
            pteBit v 4 = pteBit pte 4 ∧ pteBit v 5 = false ∧ pteBit v 6 = false ∧ pteFrame v = 65536 * f) ∧
        (¬ asMet → Answers (.install key) s (abandoned s1.mem)))) ∧
    (s.chain key = some c → c.st = .install none src lease owned → s.vnp.frameOf key = some fr →
      s.leafOf fr.root key = (some (a, pte), s1) → pteBit pte 0 = true → pteFrame pte = 65536 * fr.frame → Answers (.install key) s fun s' =>
        (∃ d, s'.chain key = some d ∧ d.st = .wake) ∧ (∃ x, s'.vnp.frameOf key = some x ∧ x.owned = true ∧ x.frame = fr.frame) ∧
        ∃ v, s'.mem = (s1.setPte a v).mem ∧ pteBit v 2 = true ∧ pteFrame v = pteFrame pte) ∧
    (s.chain key = some c → c.st = .wake → s.vnp.frameOf key = some fr → Answers (.wake key) s fun s' =>
      (fr.owned = true → s'.chain key = none ∧ ∀ x ∈ s'.vnp.rfq, x.waits key = false) ∧
      (fr.owned = false → ∀ x ∈ s'.vnp.rfq, x.waits key = true → x.kind = .write ∧ ∃ d, s'.chain key = some d ∧ d.st = .arrived) ∧
      (r ∈ s.vnp.rfq → r.waits key = true → (fr.owned = true ∨ r.kind ≠ .write) → (∀ x ∈ s.vnp.rfq, x.group = r.group → x = r) →
        t ∈ r.tids → tget s.threads t = some th →
        (s'.thread t).status = .arriving ∧ (s'.thread t).wait = none ∧ (s'.thread t).pc = th.pc ∧ (s'.thread t).kept = th.kept ∧
        ∀ x ∈ s'.vnp.rfq, x.group ≠ r.group)) ∧
    ((s.vnp.rfq.find? fun x => x.isDeclined && x.asked.isNone) = some r → r.die = die → r.st = .declined reason →
      s.vnp.declined.length < 1024 → Answers (.declinedQueueForward die) s fun s' =>
        ∃ d ∈ s'.vnp.declined, d.die = die ∧ d.rfqi = r.idx ∧ d.va = r.va ∧ d.kind = r.kind ∧ d.reason = reason ∧ d.lid = r.lid ∧
          d.pc = r.pc)

/-- A page chain from its arrival to the wake of its groups. -/
def Obligations.PageChainStepsTakeEffect : Prop :=
  Claims.PageChainsFetchTheirPage ∧ Claims.PageChainsInstallAndWake

/-- A VNP message from another module is taken from what has arrived and been accepted, with its module, class, tag and sequence number,
and the others stay (R473, R514); where none fits, the step that it would begin does nothing. -/
def Claims.MessagesAreTakenAsTheyArrive : Prop :=
  ∀ (s : State) (src seq frame tick lease : Nat) (key : PageKey) (w : Bool) (r : DirReply) (m : VnpMsg) (u : Umril) (xs ys : List Umril),
    src ≠ s.moduleNo →
    let step : PageStep := ⟨key, seq⟩
    let fits (cls : Nat) (x : Umril) : Bool := Umril.fits x src cls (65536 * key.asid) seq
    (m.step = (key, seq) → m.cls = 1 ∨ m.cls = 2 → s.module.inbox = xs ++ u :: ys → (∀ x ∈ xs, fits m.cls x = false) →
      fits m.cls u = true → Heard s src m { s with module := { s.module with inbox := xs ++ ys } }) ∧
    ((∀ x ∈ s.module.inbox, fits 1 x = false) →
      (∀ i ∈ [Instr.dirq src key w seq, .renewalRequest step src, .release step src, .pageReadRequest src key frame seq],
        Answers i s fun s' => s' = s) ∧
      (s.homeOf key = src → ∀ i ∈ [Instr.downgrade step lease, .revoke step, .recallPage step], Answers i s fun s' => s' = s)) ∧
    ((∀ x ∈ s.module.inbox, fits 2 x = false) → s.homeOf key = src →
      ∀ i ∈ [Instr.directoryReply key seq r, .renewalReply step tick], Answers i s fun s' => s' = s)

/-- This module as home (R470 to R474, R480 to R484), for another module: DIRQ is answered or sends for the copies, ownership is granted
once every other copy is gone, a renewal extends a lease, a request behind another on its key waits for it, leases end and releases drop a
copy, a page is written back and a page is read in sixteen messages. Whether a page permits writes is taken from its leaf here, a choice
of the model's as are the messages' sequence (log entries 41 and 42). -/
def Claims.HomesServeTheirKeys : Prop :=
  ∀ (s s1 : State) (key : PageKey) (src seq tick frame m : Nat) (w : Bool) (e : DirEntry) (r : DirReq) (data : List Byte),
    s.guests < 16 →
    let lease := s.ptc.toNat + s.vnp.leaseLen
    let quiet : Prop := s.vnp.reqs = []
    let req (k : ReqKind) : DirReq := { key := key, src := src, kind := k, seq := seq, begun := false, waits := [] }
    let asks : DirReq := req (if w then .write else .read)
    let heard (m : VnpMsg) (P : State → Prop) : Prop := ∀ s0, Heard s src m s0 → P s0
    let entry (s0 : State) : Option DirEntry × State := (s0.modVnp fun v => { v with reqs := [asks] }).dirEntry key
    let sent (s' : State) (msg : VnpMsg) : Prop := msg ∈ s'.vnp.sent
    let asked (s' : State) (m : Nat) (a : HomeAsk) : Prop := ∃ q, sent s' (.ask m key a q) ∧ ∃ x ∈ s'.vnp.reqs, x.key = key ∧ x.src = src ∧
      x.seq = seq ∧ x.begun = true ∧ ∃ y ∈ x.waits, y.module = m ∧ y.ask = a ∧ y.seq = q
    (quiet → heard (.dirq s.moduleNo key w seq) fun s0 => entry s0 = (none, s1) →
      Answers (.dirq src key w seq) s fun s' => sent s' (.reply src key seq .absent) ∧ s'.vnp.reqs = []) ∧
    (quiet → heard (.dirq s.moduleNo key w seq) fun s0 => entry s0 = (some e, s1) →
      (w = true → s1.permitsWrite key = false → Answers (.dirq src key w seq) s fun s' => sent s' (.reply src key seq .refused)) ∧
      (w = true → s1.permitsWrite key = true → Answers (.dirq src key w seq) s fun s' =>
        (∀ x ∈ e.sharers, x ≠ src → asked s' x .revoke) ∧ (e.state = 2 → e.owner ≠ src → asked s' e.owner .recall)) ∧
      (w = false → e.state = 2 → e.owner ≠ src → Answers (.dirq src key w seq) s fun s' => asked s' e.owner (.downgrade lease)) ∧
      (w = false → ¬ (e.state = 2 ∧ e.owner ≠ src) → e.sharers.length < 8 ∨ src ∈ e.sharers → Answers (.dirq src key w seq) s fun s' =>
        sent s' (.reply src key seq (.shared e.source lease)) ∧ tget s'.vnp.leases (key, src) = some lease ∧
        s'.mem = (s1.modDir key fun e =>
          { e with state := 1, sharers := if e.sharers.contains src then e.sharers else e.sharers ++ [src] }).mem)) ∧
    (s.vnp.reqs = [r] → r.key = key → r.begun = true → r.src ≠ src →
      (heard (.dirq s.moduleNo key w seq) fun _ =>
        Answers (.dirq src key w seq) s fun s' => s'.vnp.reqs = [r, asks] ∧ s'.vnp.sent = s.vnp.sent ∧ s'.mem = s.mem) ∧
      heard (.renew s.moduleNo key seq) fun _ => Answers (.renewalRequest ⟨key, seq⟩ src) s fun s' =>
        s'.vnp.reqs = [r, req .renew] ∧ s'.vnp.sent = s.vnp.sent ∧ s'.vnp.leases = s.vnp.leases) ∧
    (s.vnp.reqs = [r] → r.key = key → r.kind = .write → r.begun = true → r.waits = [] → s.dirEntry key = (some e, s1) →
      Answers (.ownershipStep key) s fun s' =>
        s'.mem = (s1.modDir key fun e => { e with state := 2, owner := r.src, sharers := [], ver := (e.ver + 1) % 2 ^ 32 }).mem ∧
        s'.vnp.reqs = [] ∧ ∃ carries, sent s' (.reply r.src key r.seq (.owned e.source carries)) ∧
          (carries = false ↔ (r.src ∈ e.sharers ∨ (e.state = 2 ∧ e.owner = r.src)))) ∧
    (quiet → heard (.renew s.moduleNo key seq) fun s0 => s0.dirEntry key = (some e, s1) → e.state = 1 → src ∈ e.sharers →
      Answers (.renewalRequest ⟨key, seq⟩ src) s fun s' => sent s' (.renewed src key seq s.ptc.toNat) ∧
        tget s'.vnp.leases (key, src) = some lease ∧ s'.vnp.reqs = []) ∧
    (quiet → tget s.vnp.leases (key, m) = some tick → tick + 1000000 ≤ s.ptc.toNat → Answers (.homeLeaseEnd key m) s fun s' =>
      s'.mem = (s.modDir key fun e => e.drop m).mem ∧ tget s'.vnp.leases (key, m) = none) ∧
    (quiet → heard (.release s.moduleNo key seq) fun s0 => Answers (.release ⟨key, seq⟩ src) s fun s' =>
      s'.mem = (s0.modDir key fun e => e.drop src).mem ∧ tget s'.vnp.leases (key, src) = none) ∧
    (m ∉ (e.drop m).sharers ∧ (e.state = 2 → e.owner = m → (e.drop m).state ≠ 2)) ∧
    (data.length = 65536 → heard (.writeBack (.module s.moduleNo frame) key seq data) fun _ =>
      Answers (.writeBack ⟨key, seq⟩ src frame data) s fun s' => cellGetAll 0#8 (65536 * frame) 65536 s'.mem.dram = data ∧ sent s' (.ack src key seq) ∧
      ∀ i < 2048, tget s'.mem.l2 (2048 * frame + i) = none) ∧
    (heard (.pageRead (.module s.moduleNo frame) key seq) fun _ => Roomy s 2048 → (∀ i < 2048, WholeSector s (2048 * frame + i) ∧ s.readOutcome (2048 * frame + i) ≠ .lost) →
      Answers (.pageReadRequest src key frame seq) s fun s' =>
        ∀ i < 16, sent s' (.pageData src key seq i (s.homeBytes (65536 * frame + 4096 * i) 4096)))

/-- The copies this module holds (R470, R480 to R484): a lease is renewed in its last 2 ms where the page was used and lapses at its end,
the clock hand clears A or evicts, and the home's words downgrade, revoke or recall a copy, each acknowledged. An owned page that has
been written is written back first, and what follows waits for that; a page that is not held is acknowledged at once. That a lapse and an
eviction are one step each, in which order the hand goes and what waits for a write-back are the model's choices (log entries 41 and
42). -/
def Claims.HeldPagesFollowTheirHome : Prop :=
  ∀ (s : State) (key : PageKey) (fr : Frame) (tick lease seq t0 n : Nat), s.homeOf key ≠ s.moduleNo → s.guests < 16 → s.running < 48 →
    let home := s.homeOf key
    let now := s.ptc.toNat
    let used := s.leafBit fr 5
    let dirty (st : State) : Prop := fr.owned = true ∧ st.leafBit fr 6 = true
    let sent (s' : State) (msg : VnpMsg) : Prop := msg ∈ s'.vnp.sent
    let untranslated (s' : State) : Prop := ∀ c l e, tget s'.mem.coreTlb c = some l → e ∈ l →
      ¬ (e.asid = key.asid ∧ e.vpn ≤ key.vpn ∧ key.vpn < e.vpn + e.pages)
    let told (tell : Option Nat) (s' : State) : Prop :=
      match tell with
      | some q => sent s' (.ack home key q)
      | none => sent s' (.release home key (s.vnp.seq + 1))
    let follows (st : State) (frame tell : Option Nat) (s' : State) : Prop :=
      (¬ dirty st → told tell s' ∧ ∀ f, frame = some f → f ∈ s'.vnp.pool) ∧
      (dirty st → ∃ w ∈ s'.vnp.writeOuts, w.key = key ∧ w.dest = fr.src ∧ w.frame = frame ∧ w.tell = tell ∧
        w.data = (readSectors st (65536 * fr.frame) 65536).1 ∧ sent s' (.writeBack fr.src key w.seq w.data))
    let gone (st : State) (tell : Option Nat) (s' : State) : Prop :=
      s'.vnp.frameOf key = none ∧ untranslated s' ∧ follows st (some fr.frame) tell s'
    let asked (a : HomeAsk) (P : State → Prop) : Prop := ∀ s0, Heard s home (.ask s.moduleNo key a seq) s0 → P s0
    (s.vnp.frameOf key = some fr → s.pageBusy key = false →
      (fr.owned = false → fr.renewing = none → fr.lease ≤ now + 2000000 → now < fr.lease → used = true → s.clockBad = false →
        Answers (.leaseRenewal key) s fun s' => sent s' (.renew home key (s.vnp.seq + 1)) ∧ untranslated s' ∧
          ∃ x, s'.vnp.frameOf key = some x ∧ x.renewing = some (s.vnp.seq + 1, now, 0) ∧ x.lease = fr.lease) ∧
      (fr.owned = false → (fr.lease ≤ now ∨ (fr.lease ≤ now + 2000000 ∧ used = false ∧ fr.renewing = none)) →
        Answers (.leaseLapse key) s (gone s none)) ∧
      (fr.renewing = some (seq, t0, n) → ∀ s0, Heard s home (.renewed s.moduleNo key seq tick) s0 → s.clockBad = false →
        Answers (.renewalReply ⟨key, seq⟩ tick) s fun s' => ∃ x, s'.vnp.frameOf key = some x ∧ x.renewing = none ∧ x.lease = tick + s.vnp.leaseLen) ∧
      (s.vnp.pool.length < s.vnp.low → s.vnp.atHand = some fr → s.pageMoves key = false →
        (used = true → Answers .clockEviction s fun s' =>
          s'.vnp.hand = fr.frame + 1 ∧ untranslated s' ∧ s'.vnp.frames = s.vnp.frames) ∧
        (used = false → Answers .clockEviction s fun s' => s'.vnp.hand = fr.frame + 1 ∧ gone s none s')) ∧
      (asked (.downgrade lease) fun s0 => s0.pageBusy key = false → Answers (.downgrade ⟨key, seq⟩ lease) s fun s' =>
        untranslated s' ∧ follows s0 none (some seq) s' ∧ ∃ x, s'.vnp.frameOf key = some x ∧ x.owned = false ∧ x.lease = lease) ∧
      (asked .revoke fun s0 => s0.pageBusy key = false → Answers (.revoke ⟨key, seq⟩) s (gone s0 (some seq))) ∧
      asked .recall fun s0 => s0.pageBusy key = false → Answers (.recallPage ⟨key, seq⟩) s (gone s0 (some seq))) ∧
    (s.vnp.frameOf key = none → s.writesOut key = false →
      ∀ p ∈ [(Instr.downgrade ⟨key, seq⟩ lease, HomeAsk.downgrade lease), (.revoke ⟨key, seq⟩, .revoke), (.recallPage ⟨key, seq⟩, .recall)],
        asked p.2 fun _ => Answers p.1 s fun s' => sent s' (.ack home key seq))

/-- The messages of the VNP, the pages of this home and the copies that this module holds. -/
def Obligations.HomeAndHeldPageStepsTakeEffect : Prop :=
  Claims.MessagesAreTakenAsTheyArrive ∧ Claims.HomesServeTheirKeys ∧ Claims.HeldPagesFollowTheirHome

/-! ### Steps of the engines -/

/-- The queues of the engines (R344, R351 to R359, R364, R366, R382, R387, R411): a head whose slot and time let it go starts or is
forwarded, one held by a false slot ends, a command whose time has come is free, the oldest that has ended is reported in its counter
and its token, and a cancelled one stops. -/
def Obligations.EngineQueueStepsTakeEffect : Prop :=
  ∀ (s : State) (core : CoreId) (cls : EngClass) (c : Command) (n : Nat) (T : DWord) (g : Fin 16) (r : Fin 32) (co : Cohort) (k : CohId),
    s.cmd c.id = some c → c.mute = false →
    (s.heads core cls = [c] → c.cls = cls → c.core = core →
      (coreClass cls = true → s.guardOpen c = true → c.held = false → s.engBusy core cls = false →
        Answers (.engineCommandStart core cls) s fun s' => CmdStands c.id .running s' ∧
          tget s'.eng.turns (core, cls) = some c.coh.team) ∧
      (c.guard = some g → s.guardOf c.coh.team g = .no → c.st = .queued → c.forwarded = false →
        (coreClass cls = true → Answers (.engineCommandStart core cls) s (CmdStands c.id (.ended 1))) ∧
        (coreClass cls = false → Answers (.commandForward core cls) s (CmdStands c.id (.ended 1)))) ∧
      (coreClass cls = false → s.guardOpen c = true → s.collRoom c = true →
        (∀ n, s.refusedAt c = some n → Answers (.commandForward core cls) s (CmdStands c.id (.ended n))) ∧
        (s.refusedAt c = none →
          (c.op.banks = [] → (∀ x a b n, c.op ≠ .bankst x a b n) → Answers (.commandForward core cls) s fun s' =>
            (s'.cmd c.id).map (fun d => (d.st, d.forwarded)) = some (c.st, true) ∧
            ∀ w v seed out, c.op = .walk w v seed out → ∃ r, tget s'.eng.walks c.id = some r ∧
              r.x = seed ∧ r.out = [v] ∧ r.isOver = false ∧ r.stop = none) ∧
          (∀ m a b n, c.op = .bankrun m a b n → Answers (.commandForward core cls) s fun s' => ∀ x ∈ c.op.banks, c.id ∈ (s'.bank x).queue) ∧
          ∀ x a b n, c.op = .bankst x a b n → (∃ x ∈ c.op.banks, x ∈ s.grantOf c) →
            Answers (.commandForward core cls) s (CmdStands c.id .running)))) ∧
    (coreClass cls = false → (s.eng.cmds.find? fun d => d.core = core ∧ d.cls = cls ∧ d.st = .queued ∧ d.forwarded = true ∧
        d.held = false ∧ d.cancelled = false ∧ s.takesUp d = true) = some c →
      Answers (.engineCommandStart core cls) s fun s' => CmdStands c.id .running s' ∧
        ∀ d, c.op = .coll d → ∃ r, tget s'.eng.colls c.id = some r ∧ r.last = s.ptc.toNat ∧ r.sent = [] ∧ r.got = []) ∧
    (c.notBefore = some T → T.toNat ≤ s.ptc.toNat → Answers (.notBeforeMet c.id) s fun s' => s'.cmd c.id = some { c with held := false }) ∧
    (s.cmdsOf k cls = [c] → c.st = .ended n → s.unperformed c.id = false → tget s.cohorts k = some co → Answers (.commandReport k cls) s fun s' =>
      (∀ d ∈ s'.eng.cmds, d.id ≠ c.id) ∧ (s'.cohort k).counters[classIdx cls] = co.counters[classIdx cls] - 1 ∧
      (c.token = some r → (co.claims.find? fun x => x.exec = c.exec) = some { reg := r, exec := c.exec, stat := 0, count := 0 } →
        (s'.cohort k).s[r] = BitVec.ofNat 32 (2 ^ 31 + n * 2 ^ 24 + min c.count (2 ^ 24 - 1)) ∧
        ∀ x ∈ (s'.cohort k).claims, x.exec ≠ c.exec)) ∧
    (c.cancelled = true → (c.st = .queued ∨ (c.st = .running ∧ c.op.stops = true)) → Answers (.cancelStop c.id) s
      (CmdStands c.id (.ended 4)))

/-- The copy engine (R364, R371, R373, R403 to R405): a step of a copy moves its bytes and counts them on its barrier, or ends the
command where a page faults, and a step of a conversion leaves a block's planes, bit by bit, and its scale byte. That a cancelled
command which ends its last step has status 0 is the model's inference (log entry 45). -/
def Claims.CopyEngineStepsTakeEffect : Prop :=
  ∀ (s s1 s2 : State) (id : Nat) (c : Command) (m : Team) (dst src pl sc : TensorRec) (bar : Option (Fin 16)) (bs : List Byte)
    (ps : List EngPiece) (x : Nat) (qs : List Int),
    s.acting id true = some c → c.mute = false → tget s.teams c.coh.team = some m →
    let tm := c.coh.team
    let roomy (n : Nat) : Prop := ∀ b, bar = some b → -(2 ^ 31) ≤ (s.bar { owner := .team tm, num := b }).bytes - (n : Int)
    let counted (n : Nat) (s' : State) : Prop := ∀ b, bar = some b →
      (s'.bar { owner := .team tm, num := b }).bytes = (s.bar { owner := .team tm, num := b }).bytes - (n : Int)
    (∀ p ∈ [(CmdOp.cpy dst src bar, (cpyPiece dst c.step).1, (cpyPiece dst c.step).1, (cpyPiece dst c.step).2.1, (cpyPiece dst c.step).2.2),
            (CmdOp.cpy2d dst src bar, c.step * dst.rstr, c.step * src.rstr, dst.rowBytes, dst.rows)],
      let od := p.2.1; let os := p.2.2.1; let n := p.2.2.2.1; let total := p.2.2.2.2
      c.op = p.1 →
      let log := (tget s.eng.copied c.id).getD []
      let either (st : State) (got : List Byte) : Prop := got.length = n ∧ ∀ i < n, got[i]? = bs[i]? ∨
        ∃ k, (copyPlaces st c src os n)[i]? = some (some k) ∧ tget log k = got[i]?
      (dst.lay ≠ 0 → tensorRead s c src os n = (some bs, s1) → bs.length = n → roomy n → Answers (.cpyStep id) s fun s' =>
        either s (s'.scratchGet tm (dst.base + od) n) ∧ Stepped c n total s' ∧ counted n s') ∧
      (dst.lay = 0 → flatRange s c .write (dst.base + od) n = (some ps, s1) → s1.engBlocked c ps = false →
        tensorRead s1 c src os n = (some bs, s2) → bs.length = n → roomy n → Answers (.cpyStep id) s fun s' =>
          (∃ got st, either s1 got ∧ st.mem = s2.mem ∧ st.rel = s2.rel ∧
            SameMemory (engWrite c (decide (32 < n)) ps got st) s') ∧ Stepped c n total s' ∧ counted n s') ∧
      (dst.lay = 0 → (flatRange s c .write (dst.base + od) n).1 = none → Answers (.cpyStep id) s (CmdStands id (.ended 3)))) ∧
    (c.op = .tcvp pl sc src none → src.elem ≠ .lc2 → 0 < pl.rows →
      let sl := c.step / (16 * src.rows)
      let r := c.step / 16 % src.rows
      let b := c.step % 16
      let n := 4 * src.elem.bits
      let plane (j : Nat) : Nat := pl.base + 64 * pl.rows * (pl.planes * sl + j) + 64 * r + 4 * b
      let scale : Nat := sc.base + 16 * sc.rows * sl + 16 * r + b
      tensorRead s c src (r * src.rstr + (16 * sl + b) * n) n = (some bs, s1) →
      (∀ j < pl.planes, scale < plane j ∨ plane j + 4 ≤ scale) →
      let vals := (List.range 32).map fun i => readFlushed (s.cmdIfl c) src.elem (elemAt src.elem bs i)
      (planeBlock pl.planes vals = some (x, qs) → Answers (.tcvpStep id) s fun s' =>
        Stepped c (4 * pl.planes + 1) (src.rows * src.cols / 32) s' ∧ s'.scratchGet tm scale 1 = [BitVec.ofNat 8 x] ∧
        ∀ j < pl.planes, ∀ (i : Nat) (q : Int), qs[i]? = some q →
          ((leNat (s'.scratchGet tm (plane j) 4)).testBit i = true ↔ q / (2 : Int) ^ j % 2 = 1)) ∧
      (planeBlock pl.planes vals = none → Answers (.tcvpStep id) s fun s' =>
        Stepped c (4 * pl.planes + 1) (src.rows * src.cols / 32) s' ∧ s'.scratchGet tm scale 1 = [255#8] ∧
        (∀ j < pl.planes, leNat (s'.scratchGet tm (plane j) 4) = 0) ∧
        (tget s'.teams tm).map (fun m => m.nanBlocks.toNat) = some (min (m.nanBlocks.toNat + 1) 0xFFFFFFFF)))

/-- The plane matrix engine (R374 to R376): a plane pair adds its weighted counts of common ones to the slab's sums, and the last pair
of a slab adds the slab's value to each element of the tile, rounded once more. That the scale bytes are read with the slab's last pair,
and that a cancelled command which ends its last step has status 0, are the model's inferences (log entries 60 and 45). -/
def Obligations.MatrixEngineStepsTakeEffect : Prop :=
  ∀ (s : State) (id : Nat) (c : Command) (m : Team) (a sa b sb : TensorRec) (tile : Fin 128) (q : Option (Fin 4)) (hB sB : Word)
    (fs : Fin 8) (old : List Int),
    s.acting id true = some c → c.mute = false → tget s.teams c.coh.team = some m → c.op = .tmma a sa b sb tile q hB sB fs →
    s.fusedWith c = [c] → (∀ d ∈ s.eng.cmds, d.id = id → d = c) → 0 < a.planes → 0 < b.planes → c.step < a.slabs * (a.planes * b.planes) →
    (tget s.eng.slabs id).getD [] = old → (old = [] ∨ old.length = a.rows * 1024) →
    let pairs := a.planes * b.planes
    let sl := c.step / pairs
    let jA := c.step % pairs / b.planes
    let jB := c.step % pairs % b.planes
    let weight (p j : Nat) : Int := if j + 1 = p then -(2 ^ j) else 2 ^ j
    let sum (r k i : Nat) : Int := old.getD ((64 * r + k) * 16 + i) 0 +
      weight a.planes jA * weight b.planes jB * (ones (m.planeBits a sl jA r i &&& m.planeBits b sl jB k i) : Nat)
    (c.step % pairs + 1 ≠ pairs → Answers (.tmmaStep id) s fun s' => Stepped c 1 (a.slabs * pairs) s' ∧
      (c.step + 1 < a.slabs * pairs → c.cancelled = false → ∃ sums, tget s'.eng.slabs id = some sums ∧
        ∀ r < a.rows, ∀ k < 64, ∀ i < 16, sums[(64 * r + k) * 16 + i]? = some (sum r k i))) ∧
    (c.step % pairs + 1 = pairs → Answers (.tmmaStep id) s fun s' => Stepped c 1 (a.slabs * pairs) s' ∧
      ∃ m', tget s'.teams c.coh.team = some m' ∧ ∀ r < a.rows, ∀ k < 64,
        let row := 16 * (q.map fun x => x.val).getD 0 + r
        let scales (t : TensorRec) (i : Nat) : List Nat := (List.range 16).map fun j => leNat (m.scratchGet (t.scaleAt sl i j) 1)
        m'.tileAt tile.val row k = accSum (s.cmdOfl c) (m.tileAt tile.val row k)
          (slabOf a.planes b.planes (scales sa r) (scales sb k) ((List.range 16).map (sum r k))))

/-- The accumulator family and selection (R379 to R381, R407 to R409): tiles cleared, added, loaded and stored element by element,
reduced along rows or columns, and for each column of a matrix the indices and the mask of its k best rows. That a cancelled command
which ends its last step has status 0 is the model's inference (log entry 45). -/
def Claims.TileAndSelectionStepsTakeEffect : Prop :=
  ∀ (s s1 : State) (id k : Nat) (c : Command) (m : Team) (tile src : Fin 128) (x r : TensorRec) (rm : RMode) (col : Bool)
    (vs : List (List Nat)), s.acting id true = some c → c.mute = false → tget s.eng.ghosts id = none →
    tget s.teams c.coh.team = some m →
    let tm := c.coh.team
    let all : List Nat := List.range 64
    let tileOf (s' : State) (f : Nat → Nat → Word) : Prop := ∃ m', tget s'.teams tm = some m' ∧
      (∀ i < 64, ∀ j < 64, m'.tileAt tile.val i j = f i j) ∧ m'.scratch = m.scratch
    (c.op = .accz tile → Answers (.accCommandRun id) s fun s' => CmdStands id (.ended 0) s' ∧ tileOf s' fun _ _ => 0#32) ∧
    (c.op = .accadd tile src → Answers (.accCommandRun id) s fun s' => CmdStands id (.ended 0) s' ∧
      tileOf s' fun i j => accSum (s.cmdOfl c) (m.tileAt tile.val i j) (decodeFloat .f32 (m.tileAt src.val i j).toNat)) ∧
    (c.op = .accld tile x → readRows c x 64 s = (some vs, s1) → Answers (.accCommandRun id) s fun s' => CmdStands id (.ended 0) s' ∧
      tileOf s' fun i j => BitVec.ofNat 32 (flushOut (s.cmdOfl c) .f32
        (roundFloat .f32 (.mode .rne) false (decodeFmt x.elem ((vs.getD i []).getD j 0)))).bits) ∧
    (c.op = .accst tile x rm →
      writeRows c x (all.map fun i => all.map fun j =>
        (roundFloat x.elem (.mode rm) false (decodeFloat .f32 (m.tileAt tile.val i j).toNat)).bits) 0 s = some (true, s1) →
      Answers (.accCommandRun id) s fun s' => CmdStands id (.ended 0) s' ∧ s'.mem = s1.mem ∧ s'.teams = s1.teams) ∧
    (c.op = .accred tile x rm col →
      writeRows c x [all.map fun i => (roundFloat x.elem (.mode rm) false (decodeFloat .f32
        (sumWords (all.map fun j => if col then m.tileAt tile.val j i else m.tileAt tile.val i j)).toNat)).bits] 0 s = some (true, s1) →
      Answers (.accCommandRun id) s fun s' => CmdStands id (.ended 0) s' ∧ s'.mem = s1.mem ∧ s'.teams = s1.teams) ∧
    (c.op = .tselk x r k → readRows c x x.rows s = (some vs, s1) → vs.length = x.rows → x.rows ≤ 64 → x.cols ≤ 64 →
      tget s1.teams tm = some m → Answers (.tselkRun id) s fun s' => CmdStands id (.ended 0) s' ∧ ∃ sel : Nat → List Nat,
        ∀ j < x.cols,
          let val (i : Nat) : XVal := decodeFloat .f32 ((vs.getD i []).getD j 0)
          let above (i i' : Nat) : Prop := ranksAbove (val i) (val i') = true ∨ (ranksAbove (val i') (val i) = false ∧ i < i')
          (sel j).length = min k x.rows ∧ (sel j).Pairwise above ∧ (∀ i ∈ sel j, i < x.rows) ∧
          (∀ i < x.rows, i ∉ sel j → ∀ i' ∈ sel j, above i' i) ∧
          (∀ i < 64, s'.scratchGet tm (r.base + 64 * j + i) 1 = [BitVec.ofNat 8 ((sel j).getD i 0xFF)]) ∧
          ∀ i < 64, (leNat (s'.scratchGet tm (r.base + 4096 + 8 * j) 8)).testBit i = decide (i ∈ sel j))

/-- What runs on without its team leaves that team, restarted meanwhile, as it is (R364, R368). -/
def Claims.StepsWithoutTheirTeamLeaveItAlone : Prop :=
  ∀ (s : State) (id : Nat) (c : Command) (m : Team), s.cmd id = some c → tget s.eng.ghosts id = some m →
    ∀ i ∈ [Instr.accCommandRun id, .tselkRun id], Answers i s fun s' => tget s'.teams c.coh.team = tget s.teams c.coh.team

/-- Steps of the copy engine, the accumulator family and the select unit. -/
def Obligations.CopyTileAndSelectionStepsTakeEffect : Prop :=
  Claims.CopyEngineStepsTakeEffect ∧ Claims.TileAndSelectionStepsTakeEffect ∧ Claims.StepsWithoutTheirTeamLeaveItAlone

/-- The bank engines (R382, R385, R386, R411): one whose channels have been quiet starts or resumes its command, a row step does every
step of every column and goes on to the next row, SCALE and ADD round each element once, the last row ends the command, and a sample
writes the engine's status record. One that is out of service runs nothing more. That the last row ends the command with status 0
whether or not it is cancelled is the model's inference (log entry 45), and so is where a row boundary stands (log entry 56). -/
def Obligations.BankStepsTakeEffect : Prop :=
  ∀ (s s1 : State) (b : BankId) (c d : Command) (q : List Nat) (m : BankRec) (u v w id k : Nat) (r : RowRun) (x y z : Fin 8)
    (ci : Fin 8) (wide : Bool) (t : TensorRec) (tm : Team),
    let e := s.bank b
    (e.queue = c.id :: q → s.cmd c.id = some c → c.mute = false → s.bankOut b = false →
      (e.st = .waiting ∨ e.st = .suspended → s.ordinaryWaits b = false → e.quiet + 32 ≤ s.ptc.toNat → c.cancelled = false →
        c.held = false → s.engReady c false = true → (c.st = .queued → ∀ x ∈ c.op.banks, s.bankOut x = false) →
        Answers (.bankEngineResume b) s fun s' => (s'.bank b).st = .running ∧ (s'.bank b).row = e.row ∧ (s'.bank b).mpc = e.mpc ∧
          (s'.bank b).acc = e.acc ∧ (e.st = .waiting → CmdStands c.id .running s')) ∧
      (e.st = .running → c.op = .bankrun m u v w → r.ok = true →
        bankCols b m e.row (m.rowSteps e.mpc) (List.range m.cols) { acc := e.acc, steps := 0, ok := true } s = (r, s1) →
        (e.row + 1 < m.rows → Answers (.bankRowStep b) s fun s' =>
          let e' := s'.bank b
          let next := e.mpc + (m.rowSteps e.mpc).length + 1
          e'.row = e.row + 1 ∧ e'.acc = r.acc ∧ e'.mpc = (if next = m.steps.length then 0 else next) ∧
          e'.st = (if s.ordinaryWaits b = true ∨ c.cancelled = true then .suspended else .running) ∧
          e'.susp = e.susp + (if s.ordinaryWaits b = true then 1 else 0) ∧ s'.mem = s1.mem ∧
          (s'.cmd c.id).map (fun x => x.count) = some (min (c.count + r.steps + 1) (2 ^ 24 - 1))) ∧
        (m.rows ≤ e.row + 1 → c.bad = false → (s.eng.banks.map Prod.fst).Nodup → (∀ p ∈ s.eng.banks, p.1 ≠ b → c.id ∉ p.2.queue) →
          c.id ∉ q → Answers (.bankRowStep b) s fun s' => CmdStands c.id (.ended 0) s' ∧ s'.mem = s1.mem ∧ (s'.bank b).queue = q)) ∧
      (e.st = .running → c.op = .bankrun m u v w → m.cols = 1 → e.row + 1 < m.rows →
        let f := stepFmt wide
        let el (l : List Byte) (i : Nat) : XVal := decodeFloat f (elemAt f l i)
        let gives (g : Nat → XVal) (s' : State) : Prop := ∀ i < 256 / f.bits, elemAt f (s'.bank b).acc[x] i =
          (roundFloat f (.mode .rne) false (g i)).bits % 2 ^ f.bits
        (m.rowSteps e.mpc = [.scale x y wide ci] → Answers (.bankRowStep b) s
          (gives fun i => (mulX (el e.acc[y] i) (decodeFloat .f32 (m.consts.getD ci.val 0#32).toNat)).val)) ∧
        (m.rowSteps e.mpc = [.add x y z wide] → Answers (.bankRowStep b) s
          (gives fun i => (addX .rne (el e.acc[y] i) (el e.acc[z] i)).val)))) ∧
    (e.queue = c.id :: q → s.cmd c.id = some c → c.mute = false →
      (c.st = .queued → s.bankOut b = true ∨ (∃ x ∈ c.op.banks, s.bankOut x = true) → Answers (.bankEngineResume b) s fun s' =>
        CmdStands c.id (.ended 3) s' ∧ s'.mem = s.mem ∧ (s'.cmd c.id).map (fun x => x.count) = some c.count) ∧
      (c.st = .running → e.st = .running → c.op = .bankrun m u v w → s.bankOut b = true → Answers (.bankRowStep b) s fun s' =>
        s'.mem = s.mem ∧ (s'.bank b).queue = q ∧ (s'.cmd c.id).map (fun x => (x.count, x.bad)) = some (c.count, true))) ∧
    (s.acting id true = some d → d.mute = false → d.op = .bankst t b.stack v w → b.eng = v + k → k < w → b ∈ s.grantOf d →
      d.held = false → d.cancelled = false → d.step / 2 ^ k % 2 = 0 → tget s.teams d.coh.team = some tm →
      (s.bankOut b = true → Answers (.bankstSample id b) s fun s' => s'.mem = s.mem ∧
        s'.scratchGet d.coh.team (t.base + 16 * k) 16 = s.scratchGet d.coh.team (t.base + 16 * k) 16 ∧
        (s'.cmd id).map (fun x => x.bad) = some true) ∧
      (s.bankOut b = false → Answers (.bankstSample id b) s fun s' =>
        let code : Nat := match e.st with | .idle => 0 | .running => 1 | .suspended => 2 | .waiting => 3
        let lid := ((e.queue.head?.bind s.cmd).map fun d => d.coh.team.lid).getD 0
        s'.scratchGet d.coh.team (t.base + 16 * k) 16 =
          leBytes 1 code ++ leBytes 1 e.mpc ++ leBytes 2 0 ++ leBytes 4 e.row ++ leBytes 4 e.susp ++ leBytes 4 lid ∧
        ((∀ i < w, i ≠ k → ({ stack := b.stack, eng := v + i } : BankId) ∉ s.grantOf d ∨ d.step / 2 ^ i % 2 = 1) →
          CmdStands id (.ended (if d.bad then 3 else 0)) s')))

/-- The walkers and CKSUM (R387 to R390, R528, R542): a step of a walk reads degree, offset and neighbour by the generator's next
value, each on the walker of the stack that holds it, where it waits for its turn, stops at a dead end or a fault, its output holds its
vertices, its generator and where it stopped; a chunk's checksum is two sums modulo 2^31 - 1. That a walk which meets an outage ends with
STAT 3 is the model's choice (log entry 56), and that a cancelled CKSUM which ends its last step has status 0 its inference (log entry
45). -/
def Obligations.WalkAndChecksumStepsTakeEffect : Prop :=
  ∀ (s s1 s2 : State) (id deg no y out : Nat) (c : Command) (w : WalkRec) (v0 seed : Word) (r : WalkRun) (ok : Bool) (m : Team)
    (src dst : TensorRec) (ps : List EngPiece) (bs : List Byte), c.mute = false →
    (s.acting id false = some c → c.op = .walk w v0 seed out → s.walkRun id = some r →
      let at' := w.nb + w.rs * (r.out.getLastD 0#32).toNat
      let a := r.x ^^^ (r.x <<< 13)
      let b := a ^^^ (a >>> 17)
      let x' := b ^^^ (b <<< 5)
      let place : Nat := match r.read with | .degree => at' + w.doff | .offset _ => at' + w.noff | .neighbour va => va
      let came (n : Nat) : Prop := walkRead s c place = (.ok n, s1)
      let stands (q : WalkRun) (s' : State) : Prop := s'.walkRun id = some q
      let stopped (va : Nat) (s' : State) : Prop := stands { r with isOver := true, stop := some va } s'
      (r.isOver = false → s.walkServed r = false → Answers (.walkStep id) s fun s' => s' = s) ∧
      (r.isOver = false → c.cancelled = false → s.walkServed r = true →
        (walkRead s c place = (.error (.stopAt place), s1) → Answers (.walkStep id) s (stopped place)) ∧
        (walkRead s c place = (.error .outage, s1) → Answers (.walkStep id) s (CmdStands id (.ended 3))) ∧
        (r.read = .degree → came 0 → Answers (.walkStep id) s (stands { r with isOver := true })) ∧
        (∀ next, (r.read = .degree ∧ came deg ∧ 0 < deg ∧ next = WalkRead.offset deg) ∨
            (r.read = .offset deg ∧ came no ∧ next = .neighbour (w.nab + 4 * (no + x'.toNat % deg))) →
          let on := s1.placeWalk c w { r with read := next }
          ∀ q, on.walkRun id = some q → on.acting id false = some c →
            (on.walkServed q = false → Answers (.walkStep id) s fun s' => s' = on) ∧
            (on.walkServed q = true → exec (.walkStep id) s = exec (.walkStep id) on)) ∧
        (r.read = .neighbour place → came y → Answers (.walkStep id) s fun s' =>
          (∃ q, stands q s' ∧ q.x = x' ∧ q.out = r.out ++ [BitVec.ofNat 32 y] ∧ q.isOver = decide (w.steps ≤ r.out.length) ∧
            q.stop = r.stop ∧ q.read = .degree) ∧
          (s'.cmd id).map (fun d => d.count) = some r.out.length)) ∧
      (r.isOver = false → c.cancelled = true → s.walkServed r = true → r.read = .neighbour place → came y →
        Answers (.walkStep id) s (CmdStands id (.ended 4))) ∧
      (r.isOver = true →
        let a := r.stop.getD 0
        walkWrite c (r.out ++ List.replicate (w.steps + 1 - r.out.length) 0xFFFFFFFF#32 ++
          [r.x, BitVec.ofNat 32 a, BitVec.ofNat 32 (a / 2 ^ 32)]) out s = (ok, s1) →
        Answers (.walkOutput id) s fun s' => s'.mem = s1.mem ∧ CmdStands id (.ended (if ok ∧ r.stop = none then 0 else 3)) s')) ∧
    (c.op = .cksum src dst → s.acting id (src.inScratch || dst.inScratch) = some c → tget s.teams c.coh.team = some m →
      tensorPlace s c dst (8 * c.step) 8 = (some ps, s1) → tensorRead s1 c src (4096 * c.step) 4096 = (some bs, s2) →
      let p := 2 ^ 31 - 1
      let ws := (leWords bs).map BitVec.toNat
      let sum := ws.sum % p + 2 ^ 32 * ((ws.zipIdx.map fun x => (x.2 + 1) * x.1).sum % p)
      Answers (.cksumChunk id) s fun s' => Stepped c 1 (src.rows * src.rowBytes / 4096) s' ∧
        (dst.lay ≠ 0 → s'.scratchGet c.coh.team (dst.base + 8 * c.step) 8 = leBytes 8 sum) ∧
        (dst.lay = 0 → s'.mem = (engWrite c false ps (leBytes 8 sum) s2).mem))

/-- The collective engines (R528 to R540): a participant sends its shape and its chunks with their sums, writes and acknowledges what
verifies, asks again for what does not and gives up at the fifth failure, serves a request from its retained copy, and ends once all
is received and acknowledged, or after 20 ms without progress while it expects something. Each message is taken as it has arrived. -/
def Obligations.CollectiveStepsTakeEffect : Prop :=
  ∀ (s s0 s1 s2 : State) (id st g sum port : Nat) (c : Command) (d : CollRec) (r : CollRun) (bs data mine : List Byte) (ps : List EngPiece)
    (shape : List Nat), s.coll id = some (c, d, r) → c.mute = false →
    let here := (s.moduleNo, c.core.die)
    let prev := d.partOf ((r.rank + d.parts - 1) % d.parts)
    let next := d.partOf ((r.rank + 1) % d.parts)
    let run (s' : State) : Option CollRun := tget s'.eng.colls id
    let sent (s' : State) (tgt : Nat × Nat) (m : CollMsg) : Prop := ({ dst := tgt, src := here, msg := m } : CollSend) ∈ s'.eng.msgs
    let noted (s' : State) : Prop :=
      let q := (tget s.eng.errs (c.core.die, s.gateLid c.coh.team.lid)).getD { records := [], next := 0, dropped := 0 }
      q.records.length < 64 → ∃ v, (tget s'.eng.errs (c.core.die, s.gateLid c.coh.team.lid)).map (fun q => q.records) =
        some (q.records ++ [v]) ∧ v[1] = BitVec.ofNat 32 d.cid ∧ v[2] = BitVec.ofNat 32 g
    (c.cancelled = false → s.engReady c false = true → s.retained c.core.die < 2048 → d.nextSend c r s.ptc.toNat = some (st, g) →
      readChunk s c d g = (some bs, s1) → Answers (.chunkSend id) s fun s' =>
        let sum := (tget r.sums g).getD (chunkSum bs)
        sent s' next (.chunk d.cid st g (d.onWire st g bs) sum) ∧ (r.shapeSent = false → sent s' next (.shape d.cid d.shape)) ∧
        ∃ r', run s' = some r' ∧ (st, g) ∈ r'.sent ∧ tget r'.kept (st, g) = some (bs, sum)) ∧
    (s.takeColl c d prev (0, d.cid, 0, 0) = some (port, s0) →
      (shape = d.shape → Answers (.shapeReceive id shape) s fun s' => run s' = some { r with shapeIn := true }) ∧
      (shape ≠ d.shape → Answers (.shapeReceive id shape) s (CmdStands id (.ended 3)))) ∧
    (s.takeColl c d prev (1, d.cid, st, g) = some (port, s0) →
      (r.shapeIn = true → c.cancelled = false → s.engReady c false = true → data.length = 4096 →
        g ∈ d.sends ((r.rank + d.parts - 1) % d.parts) st →
        ((st, g) ∈ r.got → Answers (.chunkReceive id st g data sum) s fun s' => s' = s0) ∧
        ((st, g) ∉ r.got → chunkSum data = sum →
          (d.reduces st = true → readChunk s0 c d g = (some mine, s1)) → (d.reduces st = false → s1 = s0) →
          flatRange s1 c .write (d.buf + 4096 * g) 4096 = (some ps, s2) →
          Answers (.chunkReceive id st g data sum) s fun s' =>
            s'.mem = (engWrite c true ps (if d.reduces st then reduceChunk d.elem d.rop data mine else data) s2).mem ∧
            sent s' prev (.ack d.cid st g) ∧ (s'.cmd id).map (fun x => (x.count, x.step)) = some (min (c.count + 1) (2 ^ 24 - 1), c.step + 1) ∧
            (CmdStands id (.ended (if r.tainted then 2 else 0)) s' ∨ ∃ r', run s' = some r' ∧ r'.got = r.got ++ [(st, g)])) ∧
        ((st, g) ∉ r.got → chunkSum data ≠ sum → Answers (.chunkReceive id st g data sum) s fun s' => noted s' ∧
          ((tget r.asked (st, g)).getD 0 < 4 → sent s' prev (.again d.cid st g) ∧ ∃ r', run s' = some r' ∧ r'.tainted = true ∧
            tget r'.asked (st, g) = some ((tget r.asked (st, g)).getD 0 + 1)) ∧
          (4 ≤ (tget r.asked (st, g)).getD 0 → CmdStands id (.ended 3) s')))) ∧
    (s.engReady c false = false → Answers (.chunkReceive id st g data sum) s fun s' => s' = s) ∧
    (tget r.kept (st, g) = some (bs, sum) → s.takeColl c d next (3, d.cid, st, g) = some (port, s0) →
      (chunkSum bs = sum → Answers (.chunkReRequest id st g) s fun s' => sent s' next (.chunk d.cid st g bs sum) ∧
        run s' = some { r with tainted := true, last := s.ptc.toNat }) ∧
      (chunkSum bs ≠ sum → Answers (.chunkReRequest id st g) s fun s' => CmdStands id (.ended 3) s' ∧ noted s')) ∧
    (tget r.kept (st, g) = some (bs, sum) → s.takeColl c d next (2, d.cid, st, g) = some (port, s0) →
      Answers (.chunkAcknowledge id st g) s fun s' =>
        let isOver := d.expects r.rank ≤ r.got.length ∧ d.sendsAll r.rank ≤ r.sent.length ∧ terase r.kept (st, g) = []
        (isOver → CmdStands id (.ended (if r.tainted then 2 else 0)) s') ∧
        (¬ isOver → run s' = some { r with kept := terase r.kept (st, g), last := s.ptc.toNat })) ∧
    let expects : Prop := r.got.length < d.expects r.rank ∨ r.kept ≠ [] ∨
      (r.sent.length < d.sendsAll r.rank ∧ 2048 ≤ s.retained c.core.die)
    (expects → r.last + 20000000 ≤ s.ptc.toNat → Answers (.collectiveNoProgress id) s (CmdStands id (.ended 3))) ∧
    (¬ expects → Answers (.collectiveNoProgress id) s fun s' => s' = s)

/-! ### Launches, reliability, the fabric and the host -/

/-- Launches and saves (R224, R235 to R241, R450 to R454, R498, R499): a spawned record is accepted and its thread told, a head whose
signals are at their thresholds becomes eligible, a launch that is over adds its signal and goes with its gates, a chosen team stops
its commands and is saved whole once it has come to rest, one that has exited meanwhile stays, and a page is copied before it is written.
That signals and records are taken as their bytes stand, poisoned or not, and that the image keeps the exited lanes are the model's
inferences (log entries 57 and 67). -/
def Obligations.LaunchStepsTakeEffect : Prop :=
  ∀ (s s1 s2 : State) (x : Spawn) (xs : List Spawn) (bs : List Byte) (lid n : Nat) (l : Launch) (g : StageRun) (gs : List StageRun)
    (pa addr thr queue page : Nat) (p ok side : Bool) (t : TeamId) (m : Team) (tick k : Nat) (pc : PlacedCluster) (cells : List Host.Cell),
    let stateOf (s' : State) : Option (LaunchState × Nat) := (s'.launchOf g.lid).map fun l => (l.state, l.since)
    (s.cp.spawns = x :: xs →
      (∀ i ∈ x.after, s.unperformed i = false) → x.va + 512 ≤ 2 ^ 57 →
      cpRead { s with cp := { s.cp with spawns := xs } } x.root x.va 512 = (some bs, s1) →
      ∀ r, s1.accept (patch bs 128 (leBytes 4 x.arg.toNat)) = (r, s2) → Answers .launchAcceptance s fun s' =>
        s'.cp.spawns = xs ∧ s'.launches = s2.launches ∧ ∃ a ∈ s'.mem.arrivals, a.tid = x.tid ∧ a.pend = x.pend ∧
          match r with
          | .ok lid => a.words = [BitVec.ofNat 32 lid] ∧ ∃ l, s2.launches = s.launches ++ [l] ∧ l.state = .queued ∧ l.left = false ∧
              l.stages.head?.map (fun g => g.lid) = some lid
          | .error .full => a.words = [0xFFFFFFFF#32]
          | .error .illFormed => a.words = [0xFFFFFFFE#32]) ∧
    (s.queueHead queue = some l → l.state = .queued → l.stages = g :: gs →
      (l.desc.waits = [] → Answers (.eligibilityTest queue) s fun s' => stateOf s' = some (.eligible, s.ptc.toNat)) ∧
      (l.desc.waits = [(addr, thr)] → cpTranslate s l.root addr .read = (some pa, s1) → homeRead s1 pa 8 = ((bs, p), s2) →
        Answers (.eligibilityTest queue) s fun s' =>
          (thr ≤ leNat (bs.take 4) → stateOf s' = some (.eligible, s.ptc.toNat)) ∧
          (leNat (bs.take 4) < thr → s'.launches = s.launches)) ∧
      (l.desc.waits = [(addr, thr)] → (cpTranslate s l.root addr .read).1 = none → addr ∉ l.told → s.launchOf g.lid = some l →
        Answers (.eligibilityTest queue) s fun s' =>
          HostReport.metadata g.lid addr ∈ s'.cp.reports ∧ (stateOf s').map Prod.fst = some .queued)) ∧
    (s.launches = [l] → s.launchOf lid = some l → s.launchOver l = some ok → l.stages = g :: gs →
      Answers (.launchEnd lid) s fun s' => s'.launches = [] ∧ (∀ x ∈ s'.mem.gates, x.lid ≠ g.lid) ∧
        (l.desc.sigp ≠ 0 → cpTranslate s l.root l.desc.sigp .write = (some pa, s1) → homeRead s1 pa 8 = ((bs, p), s2) → pa % 8 = 0 →
          Roomy s1 2 → WholeSector s1 (pa / 32) → s1.readOutcome (pa / 32) ≠ .lost →
          s'.homeBytes pa 8 = leBytes 8 (leNat bs + (if ok then 1 else 2 ^ 32)))) ∧
    (tget s.teams t = some m → m.preempt = .chosen tick → s.teamExited t = false → tick + 100000 ≤ s.ptc.toNat ∨ m.core ∈ s.rel.fenced →
      Answers (.contextSaveStart t) s fun s' => (tget s'.teams t).map (fun m => m.preempt) = some .saving ∧
        ∀ c ∈ s.eng.cmds, c.coh.team = t → coreClass c.cls = true → c.st = .running → c.op.stops = true →
          { c with st := if c.cancelled then .ended 4 else .queued } ∈ s'.eng.cmds) ∧
    (tget s.teams t = some m → m.preempt = .saving → s.teamExited t = true →
      (∀ p ∈ s.parts, ∀ r ∈ p.2.runs, ∀ x ∈ r.tids, x.coh.team ≠ t) → Answers (.contextSaveComplete t) s fun s' =>
      (tget s'.teams t).map (fun m => m.preempt) = some .no ∧ s'.rel.saveFree = s.rel.saveFree ∧ s'.eng.cmds = s.eng.cmds) ∧
    (tget s.teams t = some m → m.preempt = .saving → s.teamExited t = false → (∀ p ∈ s.parts, ∀ r ∈ p.2.runs, ∀ x ∈ r.tids, x.coh.team ≠ t) →
      (∀ p ∈ s.mem.passes, p.tid.coh.team ≠ t) → (∀ p ∈ s.threads, p.1.coh.team = t → p.2.pends = [] ∧ p.2.kept = none) →
      (∀ p ∈ s.cohorts, p.1.team = t → p.2.pends = []) →
      (∀ c ∈ s.eng.cmds, c.coh.team = t → c.st = .running → coreClass c.cls = false) → 1 ≤ s.rel.saveFree →
      s.stage t.lid = some (l, g, k) → (g.placed.find? fun c => c.k4 = m.k4) = some pc → l.desc.tpc = pc.gone.length + 1 →
      Answers (.contextSaveComplete t) s fun s' => tget s'.teams t = none ∧ (∀ p ∈ s'.threads, p.1.coh.team ≠ t) ∧
        s'.rel.saveFree + 1 = s.rel.saveFree ∧ ∃ l' g' k', s'.stage t.lid = some (l', g', k') ∧ ∃ sc ∈ g'.saved, sc.k4 = m.k4 ∧
          ∃ m' ths cos bars layout left, (Fin.ofNat 8 m.k2.val, SavedTeam.image t.k3 m' ths cos bars layout left) ∈ sc.teams ∧
            m'.scratch = m.scratch ∧ m'.handles = m.handles ∧ m'.tiles = m.tiles ∧ m'.guards = m.guards ∧
            (∀ p ∈ s.threads, p.1.coh.team = t → p.2.status ≠ .exited → ∃ x ∈ ths, x.tid = p.1 ∧ x.rest = p.2 ∧ ∃ code,
              x.record = threadRecord (s.parkField p.1 p.2) code p.2 ∧
              match p.2.status with
              | .blocked _ => code = 2
              | .waiting => code = 1
              | .parked => code = 4
              | .seated | .arriving => if p.2.stopped = true then code = 3 else code ≤ 1
              | .inRun | .exited => True) ∧
            (∀ p ∈ s.threads, p.1.coh.team = t → p.2.status = .exited → p ∈ left) ∧
            (∀ p ∈ s.cohorts, p.1.team = t → (p.1.k1, p.2) ∈ cos) ∧
            layout.map Prod.fst = [.threads, .cohorts, .engine, .tiles, .handles, .scratch, .header]) ∧
    (s.launchOf lid = some l → l.replayable = true → (∀ x ∈ l.snapshot, x.page ≠ page) → s.pageWanted lid page = some side →
      65536 * (page + 1) ≤ dramLimit →
      (s.rel.snapFree = n + 1 → readPage side page s = ((cells, p), s1) → Answers (.snapshotCopy lid page) s fun s' =>
        (s'.launchOf lid).map (fun l => l.snapshot) = some (l.snapshot ++ [{ page := page, cells := cells, poison := p }]) ∧
        s'.rel.snapFree = n) ∧
      (s.rel.snapFree = 0 → Answers (.snapshotCopy lid page) s fun s' =>
        (s'.launchOf lid).map (fun l => (l.replayable, l.snapshot)) = some (false, [])))

/-- Placement (R246, R247, R253): a pass places the one cluster of the only launch where Fit finds a place for it, its threads at
their entry with their registers zero, and counts it placed. -/
def Obligations.PlacementStartsAFittingCluster : Prop :=
  ∀ (s : State) (l : Launch) (g : StageRun) (die hw : Nat) (p : Place),
    s.launches = [l] → l.stages = [g] → l.desc.stages = [] → l.desc.ncl = 1 → l.desc.tpc = 1 → l.desc.queue < 64 →
    l.state = .eligible → l.admitted = true → g.nextK4 = 0 → g.placed = [] → g.saved = [] → g.floors = [] →
    s.fit l = some (die, hw, [p]) →
    Answers .placementPass s fun s' =>
      let t : TeamId := { lid := g.lid, k3 := 0 }
      (∃ m, tget s'.teams t = some m ∧ m.core = p.core ∧ m.base = p.base ∧ m.scrBase = p.scrBase ∧ m.scratch = [] ∧
        m.restartable = true ∧ m.regionPc = g.entry) ∧
      (∀ k < l.desc.cpt, ∀ i : Fin 32, ∃ th, ({ coh := { team := t, k1 := k }, lane := i }, th) ∈ s'.threads ∧ th.pc = g.entry ∧
        th.status = .arriving ∧ (∀ n : Fin 16, th.g[n] = 0#32) ∧ th.preds = 0#8 ∧ th.stack = List.replicate (l.desc.regs - 16) 0#32) ∧
      s'.launches.map (fun l => l.stages.map fun g => (g.nextK4, g.placed.length)) = [[(1, 1)]]

/-- Scan tests, the lehr and rebuilds (R489 to R497, R501, R502): each begins, does its piece and ends as its conditions say, and
reports what it met; the lehr goes to each sector of the arrays, moves it to the live write version, and mends a parity sector that
differs from its stripe. What an unwritten sector's sideband holds, which sectors rebuild and what a read of a channel in degraded
service meets are the model's choices (log entry 12), and so is when the next test interval starts (log entry 53). -/
def Obligations.ReliabilityStepsTakeEffect : Prop :=
  ∀ (s : State) (c : Nat × Nat) (failing : List CoreId) (n sec stack group : Nat) (x : Stripe) (r : Retired),
    let now := s.ptc.toNat
    let old := (s.rel.vw + 3) % 4
    let visited (s' : State) : Prop := ∃ q ∈ s'.rel.visited, q.1 ≤ n ∧ n < q.1 + q.2
    (s.rel.testMinutes ≠ 0 → s.rel.draining = none → s.rel.lastTest + s.rel.testMinutes * 60000000000 ≤ now →
      ((clustersFrom s.rel.nextCluster).find? fun c => !s.passedOver c) = some c →
      Answers .scanTest s fun s' => s'.rel.draining = some c ∧ s'.rel.lastTest = now ∧
        s'.rel.nextCluster = (clustersFrom c).getD 1 (0, 0)) ∧
    (s.rel.draining = some c → (∀ p ∈ s.teams, ¬ (p.2.core.die = c.1 ∧ p.2.core.core / 8 = c.2)) →
      Answers (.scanTestComplete failing) s fun s' => s'.rel.draining = none ∧
        (∀ x ∈ failing, x.die = c.1 → x.core / 8 = c.2 → x ∈ s'.rel.fenced) ∧ ∀ x ∈ s.rel.fenced, x ∈ s'.rel.fenced) ∧
    (s.rel.passing = false → Answers .patrolPassStart s fun s' => s'.rel.passing = true ∧ s'.rel.passStart = now ∧
      s'.rel.vw = (s.rel.vw + 1) % 4 ∧ s'.rel.keys.toList[s'.rel.vw]? = some (some s.rel.keyGen) ∧ s'.rel.visited = [] ∧ s'.rel.bad = []) ∧
    (s.rel.passing = true → n < arraySectors →
      (s.arraySector n = (.data sec, false) →
        let same (s' : State) : Prop := visited s' ∧ ∀ y, s'.dramSector y = s.dramSector y
        let moved (s' : State) : Prop := s'.kvOf sec = if s.kvOf sec = old then s.rel.vw % 4 else s.kvOf sec
        let mended (s' : State) : Prop := s'.kvOf sec = s.rel.vw % 4 ∧ (s.byRebuild sec = false → tget s'.rel.sick sec = none)
        (s.readOutcome sec = .clean → Answers (.lehrSectorScrub n) s fun s' => same s' ∧ moved s' ∧ s'.psn sec = false) ∧
        (s.readOutcome sec = .poison → Answers (.lehrSectorScrub n) s fun s' => same s' ∧ moved s' ∧ s'.psn sec = true) ∧
        (s.readOutcome sec = .corrected → Answers (.lehrSectorScrub n) s fun s' => same s' ∧ mended s' ∧ Reported s 1 s') ∧
        (s.readOutcome sec = .rebuilt → Answers (.lehrSectorScrub n) s fun s' => same s' ∧ mended s' ∧ Reported s 2 s') ∧
        (s.readOutcome sec = .lost → Answers (.lehrSectorScrub n) s fun s' => visited s' ∧ mended s' ∧ s'.psn sec = true ∧
          s'.dramSector sec = List.replicate 32 0#8 ∧ Reported s 3 s')) ∧
      (s.arraySector n = (.parity x, false) →
        let p := s.parityOf x
        (tget s.rel.sickParity x = none → (∀ q, tget s.rel.parity x = some q → q = p) → Answers (.lehrSectorScrub n) s fun s' =>
          visited s' ∧ s'.rel.parity = s.rel.parity ∧ s'.rel.reports = s.rel.reports) ∧
        (tget s.rel.sickParity x ≠ none ∨ (∃ q, tget s.rel.parity x = some q ∧ q ≠ p) →
          (∀ y ∈ s.membersOf x, tget s.rel.sick y ≠ some .broken) → Answers (.lehrSectorScrub n) s fun s' =>
            visited s' ∧ tget s'.rel.parity x = some p ∧ tget s'.rel.sickParity x = none ∧ Reported s 2 s')) ∧
      (s.arraySector n = (.free, false) → Answers (.lehrSectorScrub n) s visited)) ∧
    ((s.arraySector n).2 = true → Answers (.lehrSectorScrub n) s fun s' => s' = s) ∧
    (s.rel.passing = true → s.rel.passStart + s.rel.passHours * 3600000000000 ≤ now → s.rel.visited = [(0, arraySectors)] →
      (∀ p ∈ s.rel.side, sideKv p.2 ≠ old) → Answers .passComplete s fun s' =>
        s'.rel.passing = false ∧ s'.rel.keys.toList[old]? = some none ∧ Reported s 7 s') ∧
    (s.rebuildOf stack group = some r →
      (r.boundary < 18164062 → Answers (.rebuildLineMove stack group) s fun s' =>
        s'.rebuildOf stack group = some { r with boundary := r.boundary + 1 }) ∧
      (18164062 ≤ r.boundary → Answers (.rebuildComplete stack group) s fun s' =>
        s'.rebuildOf stack group = none ∧ { r with done := true } ∈ s'.rel.retired ∧ Reported s 9 s'))

/-- Links and planes (R507, R510, R512 to R516): a lane mapped out and a failed link are reported, a link to the IOD takes its die's cores
out, and a link that does not exist takes nothing; a packet outside the table is dropped, an ill-formed message discarded, each counted,
and another is delivered; what a failed plane carried goes again on the plane that the list gives now. That packets are counted on die 0
and a message's length is the UET message's are the model's choices (log entry 50). -/
def Claims.LinksAndPlanesTakeEffect : Prop :=
  ∀ (s : State) (l : LinkId) (m : Umril) (plane : Nat) (up : Bool),
    let h := m.hdr
    let heard : Prop := m.port < 20 ∧ (m.port < 16 → m.port ∈ s.module.planes)
    let listed : Prop := (m.mode = .rud ∨ (m.mode = .rod ∧ m.port < 16)) ∧ (m.op = .send ∨ m.op = .rmaWrite)
    let good : Prop := h.ver = 1 ∧ 1 ≤ h.cls ∧ h.cls ≤ 5 ∧ h.dst = s.moduleNo ∧ h.len + 16 = m.uetLen ∧ (h.cls = 5 → m.word ≤ 1) ∧
      ∃ e ∈ s.module.maddr, e.1 = h.src
    let kept (s' : State) : Prop := s'.module.inbox = s.module.inbox
    (LinkId.ok l = true → Answers (.linkLaneMappedOut l) s fun s' => (s'.link l).mapped = (s.link l).mapped + 1 ∧ Reported s 15 s' ∧
      Counts s (.die l.die) 4 s') ∧
    (LinkId.ok l = true → (s.link l).failed = false →
      (l.other ≠ 4 → Answers (.linkFailure l) s fun s' => (s'.link l).failed = true ∧ Reported s 6 s' ∧ s'.teams = s.teams) ∧
      (l.other = 4 → (∀ t ∈ s.teams, t.2.core.die ≠ l.die) → Answers (.linkFailure l) s fun s' => (s'.link l).failed = true ∧
        ∀ k < 48, ({ die := l.die, core := k } : CoreId) ∈ s'.rel.fenced)) ∧
    (LinkId.ok l = true → Answers (.flitRetry l) s fun s' =>
      (s'.link l).retries = (s.link l).retries + 1 ∧ s'.mem = s.mem ∧ s'.threads = s.threads) ∧
    (¬ (l.die < 4 ∧ l.other ≤ 4 ∧ l.other ≠ l.die) →
      ∀ i ∈ [Instr.linkLaneMappedOut l, .linkFailure l, .flitRetry l], Answers i s fun s' => s' = s) ∧
    (¬ heard → Answers (.umrilMessageReceive m) s fun s' => s' = s) ∧
    (heard → ¬ listed → Answers (.umrilMessageReceive m) s fun s' => Counts s (.die 0) 6 s' ∧ kept s') ∧
    (heard → listed → ¬ good → Answers (.umrilMessageReceive m) s fun s' => Counts s (.die 0) 5 s' ∧ kept s') ∧
    (heard → listed → good → Answers (.umrilMessageReceive m) s fun s' => s'.module.inbox = s.module.inbox ++ [m]) ∧
    (Answers (.planeHealthChange plane up) s fun s' =>
      ∀ q < 16, q ∈ s'.module.planes ↔ if q = plane then up = true else q ∈ s.module.planes) ∧
    (plane ∉ s.module.planes → s.module.planes ≠ [] → Answers (.uetRetransmission plane) s fun s' =>
      ∀ (i : Nat) (f : Flight), s.module.flights[i]? = some f →
        (f.plane = some plane → s'.module.flights[i]? = some { f with plane :=
          s.module.planes[(s.moduleNo + f.dst + if f.cls ≤ 2 then 0 else f.n) % s.module.planes.length]? }) ∧
        ∀ q, f.plane = some q → q ≠ plane → s'.module.flights[i]? = some f)

/-- The clock (R519 to R522), on the port that the host has selected: the master of the lowest rank is the grandmaster, a two-step Sync
gives the offset, less the link's delay, which the peer-delay messages give, the first lock steps the PTC forward, passing time slews at
most 100 millionths of it, and a bad clock raises the alarm. The offset's sign and the ranks as numbers are the model's choice (log
entry 50). -/
def Claims.TheClockFollowsItsGrandmaster : Prop :=
  ∀ (s : State) (p : Ptp) (n seq rank gm at' origin t1 t2 t3 t4 : Nat) (corr : Int),
    let now := s.ptc.toNat
    let c := s.module.clock
    let clock (s' : State) : Clock := s'.module.clock
    let told (b : PtpBody) (P : State → Prop) : Prop := Answers (.ptpMessage { port := c.port, body := b }) s P
    (p.port ≠ c.port → Answers (.ptpMessage p) s fun s' => s' = s) ∧
    ((∀ r, c.rank = some r → rank < r) → told (.announce rank gm) fun s' =>
      (clock s').grandmaster = gm ∧ (clock s').rank = some rank ∧ s'.ptc = s.ptc) ∧
    (∀ r, c.rank = some r → r ≤ rank → gm ≠ c.grandmaster → told (.announce rank gm) fun s' => s' = s) ∧
    (c.rank.isSome = true → told (.sync c.grandmaster seq) fun s' => (clock s').sync = some (seq, now) ∧ s'.ptc = s.ptc) ∧
    (c.sync = some (seq, at') →
      let offset : Int := at' - (origin + corr) - c.delay
      let first : Prop := c.everLocked = false ∧ offset < 0
      told (.followUp c.grandmaster seq origin corr) fun s' => (clock s').locked = true ∧ (clock s').everLocked = true ∧
        (first → s'.ptc = s.ptc + BitVec.ofNat 64 offset.natAbs ∧ (clock s').offset = 0) ∧
        (¬ first → s'.ptc = s.ptc ∧ (clock s').offset = offset)) ∧
    (told (.delayResp t1 t2) fun s' => (clock s').asked = some (t1, t2, now) ∧ s'.ptc = s.ptc) ∧
    (c.asked = some (t1, t2, t4) → told (.delayFollowUp t3) fun s' =>
      (clock s').delay = (((t4 : Int) - t1) - ((t3 : Int) - t2)) / 2 ∧ s'.ptc = s.ptc) ∧
    (told .lost fun s' => (clock s').locked = false ∧ (clock s').lostAt = (if c.locked then now else c.lostAt) ∧ s'.ptc = s.ptc) ∧
    (∃ s', runTurn (.pass n) s = .next s' ∧ (clock s').offset.natAbs ≤ c.offset.natAbs ∧
      (c.offset.natAbs - (clock s').offset.natAbs) * 1000000 ≤ c.slew + 100 * n ∧
      (c.locked = false → (clock s').offset = c.offset)) ∧
    (500000 < c.offset.natAbs ∨ (c.locked = false ∧ c.lostAt + 1000000000 < now) → c.alarm = false →
      Answers .offsetAlarm s fun s' => (clock s').alarm = true ∧ HostReport.clock c.offset ∈ s'.cp.reports)

/-- Links, planes and the clock. -/
def Obligations.LinkAndClockStepsTakeEffect : Prop :=
  Claims.LinksAndPlanesTakeEffect ∧ Claims.TheClockFollowsItsGrandmaster

/-- Host commands on launches, bindings, translations, weights, grants and channels (R235, R240, R287, R382, R457, R464, R495, R552):
each has its effect and its status, or is refused with the status of its failure and no effect. The statuses of a CANCEL of no launch, of
a SUBMIT outside DRAM and of a BIND of a bad root are the model's inference (log entry 49). -/
def Obligations.HostCommandsTakeEffect : Prop :=
  ∀ (s s1 s2 : State) (seq : Word) (pa lid queue asid root vpn pages die off len stack first count channel : Nat) (bs : List Byte)
    (l : Launch) (r : Except Rejected Nat) (w : WLoad) (head : CommandHead), HostFree s →
    (pa % 64 = 0 → pa + 512 ≤ dramLimit → readSectors s pa 512 = (bs, s1) → s1.accept bs = (r, s2) →
      Answers (.submit seq pa) s fun s' => s'.launches = s2.launches ∧
        Finished s seq (match r with | .ok _ => 0 | .error .illFormed => 1 | .error .full => 2) s') ∧
    (¬ (pa % 64 = 0 ∧ pa + 512 ≤ dramLimit) → Answers (.submit seq pa) s fun s' => Finished s seq 1 s' ∧ s'.launches = s.launches) ∧
    (s.launchOf lid = none → Answers (.cancel seq lid) s fun s' => Finished s seq 2 s' ∧ s'.launches = s.launches) ∧
    (s.launchOf lid = some l → (∀ b, l.state ≠ .ending b) → Answers (.cancel seq lid) s fun s' => Finished s seq 0 s' ∧
      (s'.launchOf lid).map (fun l => l.state) = some (.ending false) ∧
      ∀ t ∈ s'.teams, ∀ g ∈ l.stages, t.1.lid ≠ g.lid) ∧
    (let ok : Prop := queue < 64 ∧ asid < 65536 ∧ root % 256 = 0 ∧ root < 2 ^ 52
     (ok → Answers (.bindQueue seq queue asid root) s fun s' => Finished s seq 0 s' ∧
        ∀ q, tget s'.bindings q = if q = queue then some (asid, root) else tget s.bindings q) ∧
     (¬ ok → Answers (.bindQueue seq queue asid root) s fun s' => Finished s seq 1 s' ∧ s'.bindings = s.bindings)) ∧
    (Answers (.shoot seq asid vpn pages) s fun s' =>
      (∃ d ∈ s'.mem.shootdowns, d.seq = some seq ∧ d.asid = asid ∧ d.vpn = vpn ∧ d.pages = pages ∧
        (∀ a ∈ s.mem.accesses, a.asid = asid → vpn ≤ a.va / 65536 → a.va / 65536 < vpn + pages → a.id ∈ d.waits) ∧
        ∀ x ∈ s.mem.arrivals, ∀ p, x.page = some p → p.asid = asid → vpn ≤ p.vpn → p.vpn < vpn + pages → x.pend ∈ d.waits) ∧
      s'.cp.completions = s.cp.completions ∧
      ∀ c l e, tget s'.mem.coreTlb c = some l → e ∈ l → e.asid = asid → e.vpn + e.pages ≤ vpn ∨ vpn + pages ≤ e.vpn) ∧
    (let ok : Prop := die < 4 ∧ off % 65536 = 0 ∧ pa % 65536 = 0 ∧ len % 65536 = 0 ∧ off + len ≤ 2 ^ 29 ∧ pa + len ≤ dramLimit
     (ok → Answers (.wload seq die off pa len) s fun s' => s'.cp.completions = s.cp.completions ∧
        s'.cp.wloads = s.cp.wloads ++ [{ seq := seq, die := die, off := off, pa := pa, len := len }]) ∧
     (¬ ok → Answers (.wload seq die off pa len) s fun s' => Finished s seq 1 s' ∧ s'.cp.wloads = s.cp.wloads)) ∧
    ((s.cp.wloads.find? fun w => w.die = die) = some w → s.weightUser die = false → readSectors s w.pa w.len = (bs, s1) →
      bs.length = w.len → Answers (.wloadComplete die) s fun s' => Finished s w.seq 0 s' ∧ s'.weightBytes die w.off w.len = bs ∧
        (∀ o, ¬ (w.off ≤ o ∧ o < w.off + w.len) → s'.weight die o = s.weight die o) ∧
        ∀ p ∈ s'.rel.weightSick, p.1.1 = die → ¬ (w.off ≤ 32 * p.1.2 ∧ 32 * p.1.2 < w.off + w.len)) ∧
    (let ok : Prop := queue < 64 ∧ stack < 24 ∧ first + count ≤ 80
     (ok → Answers (.grant seq queue stack first count) s fun s' => Finished s seq 0 s' ∧
        tget s'.cp.grants (queue, stack) = if count = 0 then none else some (first, count)) ∧
     (¬ ok → Answers (.grant seq queue stack first count) s fun s' => Finished s seq 1 s' ∧ s'.cp.grants = s.cp.grants)) ∧
    (let held := (s.rel.retired.filter fun x => x.stack = stack).flatMap fun x => x.group :: x.donors
     let donors := (((List.range 31).map fun i => (channel / 5 + i + 1) % 32).filter fun d => d ∉ held).take 7
     (stack < 24 → channel < 160 → channel / 5 ∉ held → donors.length = 7 → Answers (.retire seq stack channel) s fun s' =>
        Finished s seq 0 s' ∧ Reported s 8 s' ∧ s'.rel.retired = s.rel.retired ++
          [{ stack := stack, group := channel / 5, channel := channel, donors := donors, boundary := 0, done := false }]) ∧
     (stack < 24 → channel < 160 → channel / 5 ∈ held ∨ donors.length < 7 → Answers (.retire seq stack channel) s fun s' =>
        Finished s seq 2 s' ∧ (stack, channel) ∈ s'.rel.degraded ∧ s'.rel.retired = s.rel.retired) ∧
     (¬ (stack < 24 ∧ channel < 160) → Answers (.retire seq stack channel) s fun s' =>
        Finished s seq 1 s' ∧ s'.rel.retired = s.rel.retired)) ∧
    (¬ (1 ≤ head.code ∧ head.code ≤ 14 ∧ head.reserved = 0) → Answers (.invalidHostCommand seq head) s fun s' =>
      Finished s seq 1 s' ∧ s'.launches = s.launches ∧ s'.mem = s.mem)

/-- Host commands that answer declined faults and set tables, parameters, modes and counters (R152, R153, R246, R471, R480, R483, R486,
R492, R501, R513, R521, R552, R555, R557): a value within its limits is set and completes, another leaves it as it was. The statuses of
the values outside, and how the contents of a table come to the CP, are the model's inference (log entry 49). -/
def Obligations.HostSettingsTakeEffect : Prop :=
  ∀ (s : State) (seq : Word) (n die idx queue low pa : Nat) (coll debug : Bool) (ptc : DWord) (place : CtrPlace) (ctl : Word)
    (frames : List Nat) (maddr : List (Nat × Nat × Nat)) (d : Declined) (r : ParkRec) (l : Launch), HostFree s →
    let sets (i : Instr) (ok : Prop) (f : State → Prop) (kept : State → Prop) : Prop :=
      (ok → Answers i s fun s' => Finished s seq 0 s' ∧ f s') ∧ (¬ ok → Answers i s fun s' => Finished s seq 1 s' ∧ kept s')
    sets (.paramAge seq n) (1 ≤ n ∧ n ≤ 1000) (fun s' => s'.cp.ageMs = n) (fun s' => s'.cp.ageMs = s.cp.ageMs) ∧
    sets (.paramLease seq n) (1 ≤ n ∧ n ≤ 100) (fun s' => s'.vnp.leaseLen = n * 1000000) (fun s' => s'.vnp = s.vnp) ∧
    sets (.paramPass seq n) (1 ≤ n ∧ n ≤ 720) (fun s' => s'.rel.passHours = n) (fun s' => s'.rel = s.rel) ∧
    sets (.paramTestInterval seq n) (n ≤ 1440) (fun s' => s'.rel.testMinutes = n) (fun s' => s'.rel = s.rel) ∧
    sets (.paramAlertThreshold seq die n) (die < 5 ∧ 60 ≤ n ∧ n ≤ 100) (fun s' => ∀ j < 5, s'.thresholdOf j =
      if j = die then n else s.thresholdOf j) (fun s' => s'.module = s.module) ∧
    sets (.mode seq queue coll debug) (queue < 64) (fun s' => ∀ q, tget s'.cp.modes q =
      if q = queue then some (coll, debug) else tget s.cp.modes q) (fun s' => s'.cp.modes = s.cp.modes) ∧
    sets (.fwdstep seq ptc) (s.ptc.toNat < ptc.toNat) (fun s' => s'.ptc = ptc) (fun s' => s'.ptc = s.ptc) ∧
    sets (.tableHmap seq pa) (pa + 4096 ≤ dramLimit) (fun s' => s'.vnp.hmap = (readSectors s pa 4096).1.map BitVec.toNat)
      (fun s' => s'.vnp = s.vnp) ∧
    sets (.tableMaddr seq maddr) (∀ e ∈ maddr, e.1 < 256 ∧ e.2.1 < 16 ∧ e.2.2 < 2 ^ 128 ∧
      (maddr.filter fun f => f.1 = e.1 ∧ f.2.1 = e.2.1).length = 1) (fun s' => s'.module.maddr = maddr)
      (fun s' => s'.module = s.module) ∧
    sets (.tableFramePool seq frames low) True (fun s' => s'.vnp.low = low ∧ ∀ f, f ∈ s'.vnp.pool ↔ f ∈ frames ∧
      (∀ x ∈ s.vnp.frames, x.frame ≠ f) ∧ (∀ x ∈ s.vnp.chains, ∀ k w t, x.st ≠ .install (some f) k w t) ∧
      ∀ w ∈ s.vnp.writeOuts, w.frame ≠ some f) (fun _ => True) ∧
    (let old := s.counter place n
     sets (.ectl seq place n ctl) (n < CtrPlace.count place) (fun s' =>
       let new := s'.counter place n
       new.count = (if ctl.getLsbD 29 then 0#48 else old.count) ∧ new.ctl.getLsbD 31 = ctl.getLsbD 31 ∧
       new.ctl.getLsbD 30 = (old.ctl.getLsbD 30 && ctl.getLsbD 30) ∧ new.ctl.setWidth 30 = (ctl.setWidth 8).setWidth 30)
       (fun s' => s'.module = s.module) ∧
     (n < CtrPlace.count place → Answers (.counterClear place n) s fun s' =>
       (s'.counter place n).count = 0#48 ∧ (s'.counter place n).ctl = old.ctl)) ∧
    (∀ i ∈ [Instr.dfrespRetry seq die idx, .dfrespTrap seq die idx, .dfrespAbort seq die idx],
      (s.vnp.declined.find? fun d => d.die = die ∧ d.rfqi = idx) = none → Answers i s fun s' => Finished s seq 0 s' ∧ s'.vnp = s.vnp) ∧
    ((s.vnp.declined.find? fun d => d.die = die ∧ d.rfqi = idx) = some d →
      (s.vnp.rfq.filter fun r => decide (r.asked = some d.id) && r.awaits) = [r] →
      let told (s' : State) : Prop := Finished s seq 0 s' ∧ s'.vnp.declined = s.vnp.declined.erase d
      let alone : Prop := ∀ x ∈ s.vnp.rfq, x.group = r.group ∨ x.order = r.order → x = r
      let woken (s' : State) : Prop := (∀ x ∈ s'.vnp.rfq, x.group ≠ r.group) ∧
        ∀ t th, t ∈ r.tids → tget s.threads t = some th → (s'.thread t).status = .arriving
      let marked (s' : State) : Prop := ∀ t ∈ r.touch, ∀ th, tget s.threads t = some th →
        (r.key.asid, r.key.vpn) ∈ (s'.thread t).replayTrap
      (alone → r.st = .declined n → Answers (.dfrespRetry seq die idx) s (fun s' => told s' ∧ woken s') ∧
        Answers (.dfrespTrap seq die idx) s fun s' => told s' ∧ woken s' ∧ marked s') ∧
      (r.st = .saved (some n) false →
        Answers (.dfrespRetry seq die idx) s (fun s' => told s' ∧ { r with st := .saved (some n) true } ∈ s'.vnp.rfq) ∧
        Answers (.dfrespTrap seq die idx) s fun s' => told s' ∧ { r with st := .saved (some n) true } ∈ s'.vnp.rfq ∧ marked s') ∧
      (s.launchOf r.lid = some l → Answers (.dfrespAbort seq die idx) s fun s' => told s' ∧
        (s'.launchOf r.lid).map (fun l => l.state) = some (.ending false)))

/-- Power (R554, R556): a scope enters its state or is refused, gates once its last team has left, and returns, from P4 or P5 with its
completion once it is ready; P5 loses what a die's stacks held, their keys with it; a trip stops the machine until it is powered up. What
P4 and P5 do to the caches, that lost bytes read 0, and that a reading at the threshold counts as risen through it are the model's
inferences (log entries 52, 3 and 51). -/
def Claims.PowerStatesTakeEffect : Prop :=
  ∀ (s : State) (seq : Word) (target die sensor celsius old : Nat) (sc : PwrScope),
    let off (s' : State) : Prop := s'.module.booted = false ∧ s'.module.boot = 0x500#32 ∧ (∀ d < 4, (s'.powerOf (.die d)).state = 5) ∧
      s'.cp.reports = s.cp.reports ∧ s'.mem = State.reset.mem ∧ s'.teams = [] ∧ s'.threads = [] ∧ s'.rel.keys = Vector.replicate 4 none
    (HostFree s →
      let dieOnly : Prop := ∃ d, sc = .die d
      (Machine.PwrScope.ok sc = true → target ≤ 3 →
        ((s.powerOf sc).state ≤ 3 → Answers (.pwrset seq sc target) s fun s' => Finished s seq 0 s' ∧
          (s'.powerOf sc).state = target ∧ ((s'.powerOf sc).gating = true ↔ target = 3)) ∧
        (4 ≤ (s.powerOf sc).state → Answers (.pwrset seq sc target) s fun s' => s'.cp.completions = s.cp.completions ∧
          (s'.powerOf sc).state = target ∧ (s'.powerOf sc).returning = some ((s.powerOf sc).state, seq))) ∧
      (sc = .die die → die < 4 → target = 4 ∨ target = 5 → s.teams = [] → (∀ l ∈ s.launches, l.state ≠ .eligible) →
        Answers (.pwrset seq sc target) s fun s' => Finished s seq 0 s' ∧ (s'.powerOf sc).state = target ∧
          (∀ p ∈ s'.mem.l2, dieOf p.1 ≠ die) ∧
          (target = 5 → die ∈ s'.rel.keyless ∧ ∀ a, dieOf (a / 32) = die → cellGet 0#8 a s'.mem.dram = 0#8)) ∧
      (Machine.PwrScope.ok sc = true → dieOnly → target = 4 ∨ target = 5 → s.teams ≠ [] → Answers (.pwrset seq sc target) s fun s' =>
        Finished s seq 2 s' ∧ s'.module = s.module) ∧
      (Machine.PwrScope.ok sc = false ∨ 5 < target ∨ (4 ≤ target ∧ ¬ dieOnly) → Answers (.pwrset seq sc target) s fun s' =>
        Finished s seq 1 s' ∧ s'.module = s.module)) ∧
    ((s.powerOf sc).gating = true → (∀ t ∈ s.teams, Machine.PwrScope.holds sc t.2.core = false) → Answers (.powerGate sc) s fun s' =>
      s'.powerOf sc = { s.powerOf sc with gating := false }) ∧
    ((s.powerOf (.die die)).returning = some (old, seq) → Answers (.powerReturnComplete die) s fun s' => Finished s seq 0 s' ∧
      s'.powerOf (.die die) = { s.powerOf (.die die) with returning := none } ∧
      (∀ d, d ∈ s'.rel.keyless ↔ d ∈ s.rel.keyless ∧ (old = 5 → d ≠ die))) ∧
    (die < 5 → sensor < 4 → celsius < 105 → s.thresholdOf die ≤ celsius → (die, sensor) ∉ s.module.alerted →
      Answers (.thermalAlert die sensor celsius) s fun s' => HostReport.thermal die sensor celsius ∈ s'.cp.reports ∧
        (die, sensor) ∈ s'.module.alerted) ∧
    (celsius + 5 ≤ s.thresholdOf die → Answers (.sensorFallBelowThreshold die sensor celsius) s fun s' =>
      (die, sensor) ∉ s'.module.alerted) ∧
    (die < 5 → sensor < 4 → 105 ≤ celsius →
      ∀ i ∈ [Instr.thermalTrip die sensor celsius, .thermalAlert die sensor celsius], Answers i s off)

/-- Power-up (R550, R551, R556): the links train, then DRAM, then the host firmware is verified, then the three images that it loads, each
by its signature and its version against the fused counter; where one fails the machine stops there. The order of the causes within a
stage is the model's choice (log entry 49). -/
def Claims.PowerUpRunsTheBootStages : Prop :=
  ∀ (s : State) (b : BootInput),
    let fails (i : Image) (cause : Nat) : Prop := (i.signed = false ∧ cause = 1) ∨ (i.signed = true ∧ i.version < s.module.rollback ∧ cause = 2)
    let passes (i : Image) : Prop := i.signed = true ∧ s.module.rollback ≤ i.version
    let fresh (s' : State) : Prop := s'.mem = State.reset.mem ∧ s'.threads = [] ∧ s'.launches = [] ∧ s'.cp = State.reset.cp ∧ s'.ptc = 0#64
    let stops (stage cause : Nat) : Prop := Answers (.powerUp b) s fun s' => s'.module.booted = false ∧
      s'.module.boot.toNat = stage + 256 * cause ∧ fresh s'
    (b.links = false → stops 1 3) ∧ (b.links = true → b.dram = false → stops 1 4) ∧
    (b.links = true → b.dram = true →
      (∀ cause, fails b.firmware cause → stops 2 cause) ∧
      (passes b.firmware →
        (∀ cause, fails b.cp cause ∨ (passes b.cp ∧ (fails b.vnp cause ∨ (passes b.vnp ∧ fails b.supervisor cause))) → stops 3 cause) ∧
        (passes b.cp → passes b.vnp → passes b.supervisor → Answers (.powerUp b) s fun s' =>
          s'.module.booted = true ∧ s'.module.boot = 4#32 ∧ fresh s')))

/-- Power, thermal limits and power-up. -/
def Obligations.PowerStepsTakeEffect : Prop :=
  Claims.PowerStatesTakeEffect ∧ Claims.PowerUpRunsTheBootStages

/-! ### Operands and frames -/

/-- Operands (R23, R24, R26, R49, R50, R59, R196): a register is read at the lane its pattern names, a w-register through the window,
an s-register from the cohort, a k-register its special (R21), a pair low word first; a latch reads 0 off the group, its value, or traps where it is stale. -/
def Obligations.OperandsReadTheLaneTheyName : Prop :=
  ∀ (gd : Guard) (d : Dest) (s : State) (t u : Tid) (n : Fin 16) (m k : Fin 32) (l : Fin 4) (bf : Fin 5) (ro : Fin 7) (lane : Fin 32)
    (v : Word) (is : Issue) (th : Thread), u.coh = t.coh →
    (∀ p ∈ [(Perm.same, t.lane.val), (.bfly bf, t.lane.val ^^^ 2 ^ bf.val), (.rot ro, t.lane.val &&& 0x18 ||| (t.lane.val + ro.val + 1) % 8),
            (.rev, 31 - t.lane.val), (.repl lane, lane.val)], u.lane.val = p.2 →
      Completes (.mov gd d (.reg (.g n) p.1)) gd d s t [(s.thread u).g[n]] 0#5 ∧
      Completes (.mov gd d (.reg (.w m) p.1)) gd d s t
        [(s.thread u).stack.getD ((16 * (s.thread u).wb + m.val) % (s.thread u).stack.length) 0#32] 0#5 ∧
      (u ∉ s.group → Completes (.mov gd d (.latch l p.1)) gd d s t [0#32] 0#5) ∧
      (u ∈ s.group → (s.thread u).latches[l] = .valid v → Completes (.mov gd d (.latch l p.1)) gd d s t [v] 0#5) ∧
      (u ∈ s.group → (s.thread u).latches[l] = .invalid → Executes s is gd t th → s.execs gd = [t] →
        Answers (.mov gd d (.latch l p.1)) s (Trapped s is t th { cls := 3, info2 := BitVec.ofNat 32 l.val }))) ∧
    Completes (.mov gd d (.reg (.s k) .same)) gd d s t [(s.cohort t.coh).s[k]] 0#5 ∧
    (∀ e, tget s.teams t.coh.team = some e →
      ∀ p ∈ [((0 : Fin 32), t.lane.val), (1, t.coh.k1), (2, e.k2.val), (3, t.coh.team.k3), (4, e.k4), (5, t.coh.team.lid),
             (6, e.core.core), (7, e.core.die), (8, e.k8), (9, e.stage), (10, 0), (11, 0), (12, 0), (13, 0), (14, 0), (15, 0)],
        Completes (.mov gd d (.reg (.k p.1) .same)) gd d s t [BitVec.ofNat 32 p.2] 0#5) ∧
    (∀ x, s.launch t = some x → ∀ j : Fin 16,
      Completes (.mov gd d (.reg (.k (Fin.ofNat 32 (16 + j.val))) .same)) gd d s t [x.desc.args[j]] 0#5) ∧
    ∀ h : n.val + 1 < 16, Completes (.lea gd d (.reg (.g n) .same) 0#24) gd d s t [(s.thread t).g[n], (s.thread t).g[n.val + 1]] 0#5

/-- The frame of the register instructions, all that lie below opcode 0x70 (R23, R55, R56): they change threads of their group, the
s-registers that their destination names, and undelivered traps, and nothing else; a guard-false thread goes to its next slot, and its
result latch captures the destination register, or the write outstanding to it (of an s-register that other lanes write in the same
execution, the value before that write: log entry 25); where CVTF's format slot has a fault every thread takes its trap (R176). -/
def Obligations.RegisterInstructionsTouchOnlyTheirThreads : Prop :=
  ∀ (i : Instr) (v : View) (s s' : State), viewOf i = some v → v.op < 0x70 → exec i s = .next s' →
    s' = { s with threads := s'.threads, cohorts := s'.cohorts, traps := s'.traps } ∧
    (∀ u, u ∉ s.group → tget s'.threads u = tget s.threads u) ∧
    (∀ k, (s'.cohort k).conv = (s.cohort k).conv ∧ (s'.cohort k).counters = (s.cohort k).counters ∧
      (s'.cohort k).claims = (s.cohort k).claims ∧
      ∀ n : Fin 32, Reg.s n ∉ v.destRegs → (s'.cohort k).s[n] = (s.cohort k).s[n]) ∧
    ∀ is t th, s.issue = some is → t ∈ is.tids → tget s.threads t = some th → guardTrue v.guard th = false →
      let slotOk : Prop := ∀ gd d a b c deq ks kd n, i = .cvtf gd d a b c deq ks kd n →
        ∃ f, formatSlot s n = some f ∧ cvtfFault f (if deq then ks else kd) = none
      (slotOk →
        (s'.thread t).pc = nextPc is.pc ∧ (s'.thread t).g = th.g ∧ (s'.thread t).stack = th.stack ∧ (s'.thread t).preds = th.preds ∧
        (s'.thread t).flg = th.flg ∧ SameContext th (s'.thread t) ∧
        ((∀ d n, v.dest ≠ .result d n) → (s'.thread t).latches = th.latches) ∧
        ∀ d n, v.dest = .result d n →
          (∀ l : Fin 4, l ≠ d.rl → (s'.thread t).latches[l] = th.latches[l]) ∧
          let owed (id j : Nat) : Prop := ∃ p ∈ (if d.reg.isS then (s.cohort t.coh).pends else th.pends), p.id = id ∧
            ∃ c, cellOf th d.reg = some c ∧ p.cells[j]? = some c ∧ p.live[j]? = some true
          (s.claimOn t d.reg = none →
            ((∀ id j, ¬ owed id j) → (s'.thread t).latches[d.rl] = .valid (readReg s t d.reg)) ∧
            ((∃ id j, owed id j) → ∃ id j, owed id j ∧ (s'.thread t).latches[d.rl] = .pend id j)) ∧
          ∀ m e, s.claimOn t d.reg = some (m, e) → (s'.thread t).latches[d.rl] = .token m e) ∧
      ∀ gd d a b c deq ks kd n f x, i = .cvtf gd d a b c deq ks kd n → formatSlot s n = some f →
        cvtfFault f (if deq then ks else kd) = some x → Trapped s is t th (illegal x) s'

/-- The frame of the flat memory instructions and the atomics (R147, R298): no byte of memory changes, save what the checks of their
accesses themselves do to it (the walk's A and D bits, R460, and a poisoned sector read before its trap, R489); they change no barrier,
command, binding or time, of a team and a launch only whether it may restart and be replayed (R122, R498), and no register, predicate,
flag, latch, window or PC of a thread outside their group. -/
def Obligations.FlatMemoryInstructionsLeaveOthersAlone : Prop :=
  ∀ (gd : Guard) (d : Dest) (a b : Src) (off : BitVec 24) (lz : LdSize) (sz : StSize) (az : AtSize) (f : SubFmt) (cnt : BitVec 8)
    (lg : LogOp) (ro : RedOp) (ft : AtFmt) (sg : Bool) (s s' : State),
    ∀ i ∈ [Instr.ld gd d a off lz, .ldsub gd d a off f, .ldrc gd d a off lz, .ldwt gd d a off lz, .st gd a b off sz, .stna gd a b off sz,
           .strc gd a b off cnt sz, .aadd gd d a b off az, .amin gd d a b off sg az, .amax gd d a b off sg az, .alog gd d a b off lg az,
           .axch gd d a b off az, .acas gd d a b off az, .afadd gd d a b off ft, .ainc gd d a b off, .adec gd d a b off,
           .redi gd a b off ro sg az, .redlog gd a b off lg az, .redf gd a b off ft],
      exec i s = .next s' →
        (SameMemory s s' ∨ ∃ p ∈ flatForms s gd d a b off lz sz az f cnt lg ro ft sg, p.1 = i ∧
          SameMemory (judgeAll p.2.1 p.2.2.1 (s.execs gd) s).2 s') ∧
        let kept (m : Team) : Team := { m with restartable := true, closed := none }
        let alike (l : Launch) : Launch := { l with replayable := true }
        (∀ k, (tget s'.teams k).map kept = (tget s.teams k).map kept) ∧ s'.launches.map alike = s.launches.map alike ∧
        s'.barriers = s.barriers ∧ s'.eng = { s.eng with banks := s'.eng.banks } ∧ s'.bindings = s.bindings ∧ s'.ptc = s.ptc ∧ s'.cp = s.cp ∧
        ∀ u th, u ∉ s.group → tget s.threads u = some th → ∃ th', tget s'.threads u = some th' ∧ th'.pc = th.pc ∧ th'.g = th.g ∧
          th'.stack = th.stack ∧ th'.preds = th.preds ∧ th'.flg = th.flg ∧ th'.latches = th.latches ∧ th'.wb = th.wb

/-! ### Encoding -/

/-- Words written out from the spec's encodings decode to the instructions they stand for. -/
def Obligations.WrittenOutWordsDecode : Prop :=
  let always : Guard := { tt := 0xFF#8, pa := 0, pb := 0, pc := 0 }
  let g (n : Fin 16) : Src := .reg (.g n) .same
  let toG (n : Fin 16) : Dest := { reg := .g n, wbs := false, rl := 0 }
  decode 0x003028106080242000000000#96 =
    .ok (.add { tt := 0x30#8, pa := 1, pb := 2, pc := 0 } { reg := .g 3, wbs := false, rl := 1 } (g 4)
      (.src (.reg (.w 2) (.bfly 0))) false) ∧
  decode 0x30FF000020200C8001000009#96 = .ok (.icmpS always 1 (g 1) (.imm 100#12) .lt .and) ∧
  decode 0x60FF000020400000010C0000#96 = .ok (.cvt always (toG 1) (g 2) none .f32 .s32 .rne false 0 0) ∧
  decode 0x70FF00000001FFFFFFFE0000#96 = .ok (.bra always { off := 0xFFFFFFFF#32, slot := 0 }) ∧
  decode 0xA5FF000081400C0000010004#96 = .ok (.acas always (toG 4) (g 10) (g 6) 8#24 .w4) ∧
  decode 0xE0FF000000000000000A0000#96 = .ok (.trap always 5#32)

/-- Every well-formed instruction that has a word decodes from it to itself, with every operand at every value (R45 to R53, R119). -/
def Obligations.DecodingUndoesEncoding : Prop :=
  ∀ (i : Instr) (w : IWord), wellFormed i = true → encode i = some w → decode w = .ok i

/-- A word that decodes is the word of its instruction: no bit of it is dropped, reserved bits are zero, and the instruction is
well-formed (R45 to R53, R57, R60, R68). -/
def Obligations.EncodingUndoesDecoding : Prop :=
  ∀ (i : Instr) (w : IWord), decode w = .ok i → wellFormed i = true ∧ encode i = some w

/-! ### The step -/

/-- A step is the next turn and what follows it: a step of a unit or of the host is its exec, a host command waits behind those that have
not completed (R552), and where a partition issues a run whose line is there for the threads that stand at its slot, whose threads enter
that slot and whose word decodes and may act, it is exec of the decoded instruction, and of the second one of a pair, between the entry
and what becomes of the run (R40, R44, R57, R187, R189, R190). That a step is one turn, and which turn is next, is the model's choice (log
entry 1). -/
def Obligations.StepRunsTheDecodedInstruction : Prop :=
  ∀ (s s1 s2 : State) (rest : List Turn) (i j : Instr) (p : PartId) (r : Run) (t : Tid) (ts : List Tid) (bs : List Byte),
    s.module.booted = true →
    (s.nextCommand = some (i, s1) → step s = andThen (exec i s1) settle) ∧
    (s.nextCommand = none → s.sched = .event i :: rest →
      (isCommand i = false ∨ (s.ringBusy = false ∧ s.cp.ring = []) → step s = andThen (exec i { s with sched := rest }) settle) ∧
      (isCommand i = true → s.ringBusy = true ∨ s.cp.ring ≠ [] →
        step s = settle { s with sched := rest, cp := { s.cp with ring := s.cp.ring ++ [i] } })) ∧
    (s.nextCommand = none → s.sched = .issue p :: rest → State.select { s with sched := rest, cycle := s.cycle + 1 } p = some (r, s1) →
      let s1 := s1.bump (.core p.core) 1
      let here := t :: ts
      s1.hereOf r = here → fetchLine (here.any fun u => (s1.thread u).entry.checked) s1 t r.pc = (.line bs, s2) →
      (∀ u ∈ here, entryTrap bs r.pc (s2.thread u).entry = none) →
      let s3 := entered here s2
      let is := issueAt p r.pc bs here r.rsl
      let runs (k : Instr) (st : State) (x : Issue) := exec k (State.bump { st with issue := some x } (.core x.part.core) 2)
      decode is.word = .ok i → slotCause s3 is bs = none →
      (is.tpl ≠ 2 → step s = andThen (runs i s3 is) fun s4 => settle (afterLast p r is here (endReplayTraps r.pc here s4))) ∧
      (is.tpl = 2 → ∀ s4, runs i s3 is = .next s4 →
        let s5 := afterFirst is s3 (endReplayTraps r.pc here s4)
        let us := here.filter fun u => passed is (s5.thread u)
        let is2 := secondOf bs is us
        let s6 := s5.noteLate is (some is2) here
        (here.any fun u => stays is (s6.thread u) && !inSlot is (s6.thread u)) = false → us ≠ [] →
        us.all (s6.readyFor (instrOf is2.word).toList) = true → decode is2.word = .ok j → slotCause s6 is2 bs = none →
        step s = andThen (runs j s6 is2) fun s7 => settle (afterLast p r is2 us s7)))

/-- Every instruction completes in every state, and so does every step: whatever the spec describes is an effect, a trap, a status or
nothing, and none stops the machine. -/
def Obligations.EveryInstructionAnswers : Prop :=
  (∀ (i : Instr) (s : State), ∃ s', exec i s = .next s') ∧ ∀ s : State, ∃ s', step s = .next s'

/-- What holds between steps (R11, R185, R221, R228, R441): no instruction is in progress, no thread is still on its way to its seat,
no undelivered trap is unsettled, and no thread waits or is Blocked for a time that has come. -/
def Settled (s : State) : Prop :=
  s.issue = none ∧ s.traps = [] ∧ ∀ p ∈ s.threads, p.2.status ≠ .arriving ∧
    (∀ T, p.2.status = .waiting → p.2.wait = some (.time T) → s.ptc.toNat < T.toNat) ∧
    ∀ k ph T pp, p.2.status = .blocked (.bar k ph (some (T, pp))) → s.ptc.toNat < T.toNat

/-- Every step from a settled state leaves a settled state. -/
def Obligations.EveryStepLeavesTheMachineSettled : Prop := ∀ s s' : State, Settled s → step s = .next s' → Settled s'

/-- DRAM is kept in its canonical form by every instruction and every step: addresses rise and no listed byte is 0 (the model's own
form of memory, log entry 3). -/
def Obligations.MemoryStaysCanonical : Prop :=
  (∀ (i : Instr) (s s' : State), Memory.wf 0#8 s.mem.dram = true → exec i s = .next s' → Memory.wf 0#8 s'.mem.dram = true) ∧
  ∀ s s' : State, Memory.wf 0#8 s.mem.dram = true → step s = .next s' → Memory.wf 0#8 s'.mem.dram = true

/-- How an instruction or a step of a unit may leave the PTC: as it was; a forward step at the first lock of the clock; the host's forward
step; 0 after power-up. -/
def Claims.MovesTheClock (i : Instr) (s s' : State) : Prop :=
  s'.ptc = s.ptc ∨ (∃ m : Ptp, i = .ptpMessage m ∧ s.module.clock.everLocked = false ∧ ∃ n : Nat, s'.ptc = s.ptc + BitVec.ofNat 64 n) ∨
  (∃ q, i = .fwdstep q s'.ptc ∧ s.ptc.toNat < s'.ptc.toNat) ∨ ∃ b, i = .powerUp b ∧ s'.ptc = 0#64

/-- The PTC changes only by counting and by forward steps, and is 0 after power-up (R517, R521): a turn of time adds its ticks, the
host's FWDSTEP and a first lock step it forward, and no other instruction, turn or step writes it, nor does what follows a turn. That a
turn of time counts as many ticks as it names is the model's choice (log entry 2). -/
def Obligations.OnlyTimeMovesTheClock : Prop :=
  (∀ (n : Nat) (s : State), ∃ s', runTurn (.pass n) s = .next s' ∧ s'.ptc = s.ptc + BitVec.ofNat 64 n) ∧
  (∀ (i : Instr) (s s' : State), exec i s = .next s' → Claims.MovesTheClock i s s') ∧
  (∀ (t : Turn) (s s' : State), runTurn t s = .next s' →
    s'.ptc = s.ptc ∨ (∃ n, t = .pass n) ∨ ∃ i, t = .event i ∧ Claims.MovesTheClock i s s') ∧
  (∀ s s' : State, settle s = .next s' → s'.ptc = s.ptc) ∧
  ∀ s s' : State, step s = .next s' →
    s'.ptc = s.ptc ∨ (∃ n, s.takeTurn.1 = .pass n ∧ s'.ptc = s.ptc + BitVec.ofNat 64 n) ∨
    ∃ i, (s.takeTurn.1 = .event i ∨ s.nextCommand.map Prod.fst = some i) ∧ Claims.MovesTheClock i s s'

/-! ### Reset, boot and limits -/

/-- Reset and power-up (R211, R246, R278, R355, R480, R517, R555): nothing resident, caches, queues and directories empty, the PTC at
0, aging at 10 ms, leases of 10 ms, thresholds at 95; the machine is settled and its memory canonical. That memory reads 0, that the
caches are empty and that the clock starts unlocked are the model's choices (log entries 3, 4 and 8). -/
def Obligations.ResetLeavesTheMachineEmpty : Prop :=
  let s := State.reset
  s.ptc = 0#64 ∧ s.threads = [] ∧ s.teams = [] ∧ s.launches = [] ∧ s.barriers = [] ∧ s.eng.cmds = [] ∧ s.mem.l2 = [] ∧ s.mem.l1 = [] ∧
  s.mem.subs = [] ∧ s.vnp.leaseLen = 10000000 ∧ s.cp.ageMs = 10 ∧ (∀ d < 5, s.thresholdOf d = 95) ∧
  (∀ pa, s.homeByte pa = 0#8 ∧ cellGet 0#8 pa s.mem.dram = 0#8) ∧ s.module.clock.locked = false ∧ s.module.clock.everLocked = false ∧
  Settled s ∧ Memory.wf 0#8 s.mem.dram = true

/-- The boot status word (R551): a boot that stops reports its stage and its cause, one that completes reads 4, and where it has stopped no
step but power-up does anything, so that no later stage runs and no launch is accepted. That every turn but
power-up then passes is the model's inference (log entry 34). -/
def Claims.BootStatusReportsItsStage : Prop :=
  (∀ (s : State) (b : BootInput), Answers (.powerUp b) s fun s' => s'.launches = [] ∧
    (s'.module.booted = true → s'.module.boot = 0x00000004#32) ∧
    (s'.module.booted = false → s'.module.boot.toNat % 256 ∈ [1, 2, 3] ∧ s'.module.boot.toNat / 256 % 256 ∈ [1, 2, 3, 4] ∧
      s'.module.boot.toNat / 65536 = 0)) ∧
  ∀ s s' : State, s.module.booted = false → (∀ f, s.takeTurn.1 ≠ .event (.powerUp f)) → step s = .next s' →
    s' = { s with sched := s'.sched }

/-- The alerts of a die (R555): thresholds of 95 at reset and from 60 to 100 by PARAM, one alert when a sensor rises through its threshold,
none again until it has fallen 5 below it, and no other state changed by it. That a reading at the threshold less 5 has fallen is the
model's inference (log entry 51). -/
def Obligations.ThermalAlertsAreWrittenOnce : Prop :=
  (∀ d < 5, State.reset.thresholdOf d = 95) ∧
  ∀ (s : State) (seq : Word) (die sensor celsius : Nat), die < 5 → sensor < 4 →
    (HostFree s →
      (60 ≤ celsius ∧ celsius ≤ 100 → Answers (.paramAlertThreshold seq die celsius) s fun s' => s'.thresholdOf die = celsius ∧
        ∀ d < 5, d ≠ die → s'.thresholdOf d = s.thresholdOf d) ∧
      (¬ (60 ≤ celsius ∧ celsius ≤ 100) → Answers (.paramAlertThreshold seq die celsius) s fun s' => s'.module = s.module)) ∧
    (s.thresholdOf die < celsius → celsius < 105 → (die, sensor) ∉ s.module.alerted → Answers (.thermalAlert die sensor celsius) s fun s' =>
      s' = { s with module := { s.module with alerted := s.module.alerted ++ [(die, sensor)] },
                    cp := { s.cp with reports := s.cp.reports ++ [HostReport.thermal die sensor celsius] } }) ∧
    (celsius < 105 → (die, sensor) ∈ s.module.alerted → Answers (.thermalAlert die sensor celsius) s fun s' => s' = s) ∧
    (celsius + 5 ≤ s.thresholdOf die → Answers (.sensorFallBelowThreshold die sensor celsius) s fun s' =>
      ∀ x, x ∈ s'.module.alerted ↔ x ∈ s.module.alerted ∧ x ≠ (die, sensor)) ∧
    (s.thresholdOf die < celsius + 5 → Answers (.sensorFallBelowThreshold die sensor celsius) s fun s' => s' = s)

/-- The trip (R556): at 105 degrees every die is in P5 with nothing of its memory, threads and teams kept, the boot status word says stage 0 and cause 5, nothing is saved or
reported, and every step but power-up leaves it so. That the CP's own records stand until power-up, and that a turn then passes, are the
model's inferences (log entries 52 and 34). -/
def Claims.ATripLastsUntilPowerUp : Prop :=
  (∀ (s : State) (die sensor celsius : Nat), die < 5 → sensor < 4 → 105 ≤ celsius →
    Answers (.thermalTrip die sensor celsius) s fun s' => (∀ d < 4, (s'.powerOf (.die d)).state = 5) ∧
      s'.module.boot.toNat % 256 = 0 ∧ s'.module.boot.toNat / 256 = 5 ∧ s'.module.booted = false ∧ s'.cp = s.cp ∧
      s'.rel.reports = s.rel.reports ∧ s'.mem = State.reset.mem ∧ s'.threads = [] ∧ s'.teams = [] ∧ s'.launches = s.launches) ∧
  ∀ s s' : State, s.module.booted = false → (∀ f, s.takeTurn.1 ≠ .event (.powerUp f)) → step s = .next s' →
    s'.module.boot = s.module.boot ∧ s'.module.booted = false ∧ s'.module.power = s.module.power

/-- The boot status word, and what a stopped boot and a trip leave until power-up, the corners of both by log entries 34 and 52. -/
def Obligations.StoppedBootsAndTripsLast : Prop := Claims.BootStatusReportsItsStage ∧ Claims.ATripLastsUntilPowerUp
end

