-- ==== Sys2Proof/Laws/Tables.lean ====
section
/-!
SUPPORT. Laws of tables and of memory cells: reading after a change, and that every memory operation keeps the canonical form.
-/

namespace Sys2Proof.Machine

variable {κ α : Type} [DecidableEq κ]

/-! ### Tables -/

@[simp] theorem tget_nil (k : κ) : tget ([] : Tbl κ α) k = none := rfl

theorem tget_cons (p : κ × α) (t : Tbl κ α) (k : κ) : tget (p :: t) k = if p.1 = k then some p.2 else tget t k := rfl

/-- A changed entry, and every other as it was. -/
theorem tget_tmod (t : Tbl κ α) (k j : κ) (f : α → α) : tget (tmod t k f) j = if k = j then (tget t j).map f else tget t j := by
  induction t with
  | nil => simp [tmod, tget]
  | cons p t ih =>
    simp only [tmod, List.map_cons, tget_cons] at ih ⊢
    by_cases hp : p.1 = k
    · subst hp; by_cases hj : p.1 = j <;> simp [hj, ih]
    · by_cases hj : p.1 = j
      · have : k ≠ j := fun h => hp (hj.trans h.symm)
        rw [if_neg this]
        simp [hj, this.symm]
      · rw [ih]; simp [hp, hj]

@[simp] theorem tget_tmod_self (t : Tbl κ α) (k : κ) (f : α → α) : tget (tmod t k f) k = (tget t k).map f := by simp [tget_tmod]

theorem tget_tmod_ne (t : Tbl κ α) {k j : κ} (h : k ≠ j) (f : α → α) : tget (tmod t k f) j = tget t j := by simp [tget_tmod, h]

/-- A set entry, and every other as it was. -/
theorem tget_tput (t : Tbl κ α) (k j : κ) (v : α) : tget (tput t k v) j = if k = j then some v else tget t j := by
  induction t with
  | nil => simp [tput, tget]
  | cons p t ih =>
    by_cases hp : p.1 = k
    · subst hp; by_cases hj : p.1 = j <;> simp [tput, tget_cons, hj]
    · by_cases hj : p.1 = j
      · have : k ≠ j := fun h => hp (hj.trans h.symm)
        rw [if_neg this, tput, if_neg hp, tget_cons, if_pos hj, tget_cons, if_pos hj]
      · simp [tput, tget_cons, hp, hj, ih]

@[simp] theorem tget_tput_self (t : Tbl κ α) (k : κ) (v : α) : tget (tput t k v) k = some v := by simp [tget_tput]

theorem tget_tput_ne (t : Tbl κ α) {k j : κ} (h : k ≠ j) (v : α) : tget (tput t k v) j = tget t j := by simp [tget_tput, h]

/-- An erased key is gone, and every other entry stands. -/
theorem tget_terase (t : Tbl κ α) (k j : κ) : tget (terase t k) j = if k = j then none else tget t j := by
  induction t with
  | nil => simp [terase, tget]
  | cons p t ih =>
    simp only [terase, List.filter_cons, tget_cons] at ih ⊢
    by_cases hp : p.1 = k
    · simp only [hp, ne_eq, not_true_eq_false, decide_false, Bool.false_eq_true, if_false]
      rw [ih]
      by_cases hj : k = j <;> simp [hj]
    · simp only [hp, ne_eq, not_false_eq_true, decide_true, if_true, tget_cons]
      rw [ih]
      by_cases hj : k = j
      · have : p.1 ≠ j := fun h => hp (h.trans hj.symm)
        simp [hj, this]
      · simp [hj]

/-- Entries mapped key by key. -/
theorem tget_map (t : Tbl κ α) (f : κ × α → κ × α) (hf : ∀ p, (f p).1 = p.1) (k : κ) :
    tget (t.map f) k = (tget t k).map fun v => (f (k, v)).2 := by
  induction t with
  | nil => simp [tget]
  | cons p t ih =>
    obtain ⟨a, v⟩ := p
    simp only [List.map_cons, tget_cons, hf, ih]
    by_cases h : a = k <;> simp [h]

/-! ### Cells -/

variable (dflt : Byte)

theorem cellGet_cellDrop (a b : Nat) (m : List Host.Cell) : cellGet dflt b (cellDrop a m) = if b = a then dflt else cellGet dflt b m := by
  induction m with
  | nil => simp [cellDrop, cellGet]
  | cons p m ih =>
    obtain ⟨c, w⟩ := p
    simp only [cellDrop, List.filter_cons] at ih ⊢
    by_cases hc : c = a
    · subst hc
      simp only [ne_eq, not_true_eq_false, decide_false, Bool.false_eq_true, if_false, ih, cellGet]
      by_cases hb : b = c <;> simp [hb]
    · simp only [ne_eq, hc, not_false_eq_true, decide_true, if_true, cellGet, ih]
      by_cases hb : b = c
      · have : b ≠ a := fun h => hc (hb.symm.trans h)
        simp [hb, hc]
      · simp [hb]

theorem cellGet_cellInsert (a b : Nat) (v : Byte) (m : List Host.Cell) (h : cellGet dflt a m = dflt) (hn : ∀ p ∈ m, p.1 ≠ a) :
    cellGet dflt b (cellInsert a v m) = if b = a then v else cellGet dflt b m := by
  induction m with
  | nil => simp [cellInsert, cellGet]
  | cons p m ih =>
    obtain ⟨c, w⟩ := p
    have hc : c ≠ a := hn _ List.mem_cons_self
    have hg : cellGet dflt a m = dflt := by simpa [cellGet, Ne.symm hc] using h
    simp only [cellInsert]
    split
    · simp [cellGet]
    · simp only [cellGet, ih hg fun q hq => hn q (List.mem_cons_of_mem _ hq)]
      by_cases hb : b = c
      · simp [hb, hc]
      · simp [hb]

/-- Reading after a write: the byte written, or what stood there. -/
theorem cellGet_cellPut (a b : Nat) (v : Byte) (m : List Host.Cell) :
    cellGet dflt b (cellPut dflt a v m) = if b = a then v else cellGet dflt b m := by
  unfold cellPut
  split
  · rename_i hv; rw [cellGet_cellDrop, hv]
  · rw [cellGet_cellInsert _ _ _ _ _ (by rw [cellGet_cellDrop]; simp) (by simp [cellDrop]), cellGet_cellDrop]
    by_cases hb : b = a <;> simp [hb]

/-- The canonical form, entry by entry. -/
theorem wf_cons (p : Host.Cell) (m : List Host.Cell) :
    Memory.wf dflt (p :: m) = true ↔ p.2 ≠ dflt ∧ (∀ q ∈ m, p.1 < q.1) ∧ Memory.wf dflt m = true := by
  induction m generalizing p with
  | nil => simp [Memory.wf]
  | cons q m ih =>
    simp only [Memory.wf, Bool.and_eq_true, decide_eq_true_eq, List.mem_cons, forall_eq_or_imp]
    constructor
    · rintro ⟨⟨h1, h2⟩, h3⟩
      exact ⟨h1, ⟨h2, fun r hr => Nat.lt_trans h2 (((ih q).mp h3).2.1 r hr)⟩, h3⟩
    · rintro ⟨h1, ⟨h2, -⟩, h3⟩
      exact ⟨⟨h1, h2⟩, h3⟩

/-- Cells left out keep the canonical form. -/
theorem wf_filter (f : Host.Cell → Bool) {m : List Host.Cell} (h : Memory.wf dflt m = true) : Memory.wf dflt (m.filter f) = true := by
  induction m with
  | nil => rfl
  | cons p m ih =>
    obtain ⟨h1, h2, h3⟩ := (wf_cons dflt p m).mp h
    rw [List.filter_cons]
    split
    · exact (wf_cons dflt p _).mpr ⟨h1, fun q hq => h2 q (List.mem_filter.mp hq).1, ih h3⟩
    · exact ih h3

theorem mem_cellInsert (a : Nat) (v : Byte) (m : List Host.Cell) (q : Host.Cell) : q ∈ cellInsert a v m ↔ q = (a, v) ∨ q ∈ m := by
  induction m with
  | nil => simp [cellInsert]
  | cons p m ih =>
    simp only [cellInsert]
    split
    · simp
    · simp only [List.mem_cons, ih]
      exact ⟨fun h => by rcases h with h | h | h <;> simp [h], fun h => by rcases h with h | h | h <;> simp [h]⟩

theorem wf_cellInsert (a : Nat) (v : Byte) (hv : v ≠ dflt) {m : List Host.Cell} (h : Memory.wf dflt m = true) (hn : ∀ p ∈ m, p.1 ≠ a) :
    Memory.wf dflt (cellInsert a v m) = true := by
  induction m with
  | nil => simp [cellInsert, Memory.wf, hv]
  | cons p m ih =>
    obtain ⟨h1, h2, h3⟩ := (wf_cons dflt p m).mp h
    simp only [cellInsert]
    split
    · rename_i hlt
      refine (wf_cons dflt _ _).mpr ⟨hv, fun q hq => ?_, h⟩
      rcases List.mem_cons.mp hq with rfl | hq
      · exact hlt
      · exact Nat.lt_trans hlt (h2 q hq)
    · rename_i hge
      refine (wf_cons dflt _ _).mpr ⟨h1, fun q hq => ?_, ih h3 fun q hq => hn q (List.mem_cons_of_mem _ hq)⟩
      rcases (mem_cellInsert a v m q).mp hq with rfl | hq
      · have := hn p List.mem_cons_self
        show p.1 < a
        omega
      · exact h2 q hq

/-- A write keeps the canonical form. -/
theorem wf_cellPut (a : Nat) (v : Byte) {m : List Host.Cell} (h : Memory.wf dflt m = true) : Memory.wf dflt (cellPut dflt a v m) = true := by
  unfold cellPut cellDrop
  split
  · exact wf_filter dflt _ h
  · rename_i hv
    exact wf_cellInsert dflt a v hv (wf_filter dflt _ h) (by simp)

/-- Writing bytes keeps the canonical form. -/
theorem wf_cellPutAll (a : Nat) (vs : List Byte) {m : List Host.Cell} (h : Memory.wf dflt m = true) :
    Memory.wf dflt (cellPutAll dflt a vs m) = true := by
  induction vs generalizing a m with
  | nil => exact h
  | cons v vs ih => exact ih (a + 1) (wf_cellPut dflt a v h)

/-- Reading a byte after bytes are written from a up. -/
theorem cellGet_cellPutAll (a b : Nat) (vs : List Byte) (m : List Host.Cell) :
    cellGet dflt b (cellPutAll dflt a vs m) = if a ≤ b ∧ b < a + vs.length then vs.getD (b - a) dflt else cellGet dflt b m := by
  induction vs generalizing a m with
  | nil => simp [cellPutAll] <;> omega
  | cons v vs ih =>
    rw [cellPutAll, ih (a + 1), cellGet_cellPut dflt a b v m]
    by_cases h1 : b = a
    · subst h1
      have h0 : ¬ b + 1 ≤ b := Nat.not_succ_le_self b
      simp [h0]
    · by_cases h2 : a + 1 ≤ b ∧ b < a + 1 + vs.length
      · have h3 : a ≤ b ∧ b < a + (v :: vs).length := ⟨by omega, by simp; omega⟩
        rw [if_pos h2, if_pos h3]
        obtain ⟨n, hn⟩ : ∃ n, b - a = n + 1 := ⟨b - a - 1, by omega⟩
        have hn' : b - (a + 1) = n := by omega
        simp [hn, hn']
      · have h3 : ¬ (a ≤ b ∧ b < a + (v :: vs).length) := by simp; omega
        rw [if_neg h2, if_neg h3, if_neg h1]

@[simp] theorem cellGetAll_length (a n : Nat) (m : List Host.Cell) : (cellGetAll dflt a n m).length = n := by
  induction n generalizing a with
  | zero => rfl
  | succ n ih => simp [cellGetAll, ih]

@[simp] theorem leBytes_length (n v : Nat) : (leBytes n v).length = n := by
  induction n generalizing v with
  | zero => rfl
  | succ n ih => simp [leBytes, ih]

end Sys2Proof.Machine
end

