-- ==== Sys2Proof/Laws/Group.lean ====
section
/-!
SUPPORT. What carrying an instruction out over its group leaves (runGroup), thread by thread, and what a result leaves (result).
-/

namespace Sys2Proof.Machine

variable (gd : Guard) (f : Tid → Thread → Except Trap (Thread × Act)) (skip : Tid → Thread → Thread) (s : State)

theorem State.thread_of_tget {s : State} {t : Tid} {th : Thread} (h : tget s.threads t = some th) : s.thread t = th := by
  simp [State.thread, h]

/-- Carrying an instruction out changes threads and traps alone. -/
theorem runGroup_eq : ∃ th tr, runGroup gd f skip s = { s with threads := th, traps := tr } := by
  unfold runGroup
  split
  · exact ⟨s.threads, s.traps, rfl⟩
  · exact ⟨_, _, rfl⟩

@[simp] theorem runGroup_cohorts : (runGroup gd f skip s).cohorts = s.cohorts := by
  obtain ⟨a, b, h⟩ := runGroup_eq gd f skip s; rw [h]
@[simp] theorem runGroup_teams : (runGroup gd f skip s).teams = s.teams := by
  obtain ⟨a, b, h⟩ := runGroup_eq gd f skip s; rw [h]
@[simp] theorem runGroup_launches : (runGroup gd f skip s).launches = s.launches := by
  obtain ⟨a, b, h⟩ := runGroup_eq gd f skip s; rw [h]
@[simp] theorem runGroup_mem : (runGroup gd f skip s).mem = s.mem := by
  obtain ⟨a, b, h⟩ := runGroup_eq gd f skip s; rw [h]
@[simp] theorem runGroup_eng : (runGroup gd f skip s).eng = s.eng := by
  obtain ⟨a, b, h⟩ := runGroup_eq gd f skip s; rw [h]
@[simp] theorem runGroup_issue : (runGroup gd f skip s).issue = s.issue := by
  obtain ⟨a, b, h⟩ := runGroup_eq gd f skip s; rw [h]
@[simp] theorem runGroup_moduleNo : (runGroup gd f skip s).moduleNo = s.moduleNo := by
  obtain ⟨a, b, h⟩ := runGroup_eq gd f skip s; rw [h]
@[simp] theorem runGroup_ptc : (runGroup gd f skip s).ptc = s.ptc := by
  obtain ⟨a, b, h⟩ := runGroup_eq gd f skip s; rw [h]

variable {s}

/-- A thread of the group takes the instruction's outcome. -/
theorem runGroup_member {is : Issue} {t : Tid} {th : Thread} (hi : s.issue = some is) (ht : t ∈ is.tids)
    (he : tget s.threads t = some th) : tget (runGroup gd f skip s).threads t = some (threadStep s is gd f skip t th) := by
  simp only [runGroup, hi]
  rw [tget_map _ _ (fun p => by split <;> rfl)]
  simp [he, ht]

/-- A thread outside the group is untouched. -/
theorem runGroup_outside {is : Issue} {t : Tid} (hi : s.issue = some is) (ht : t ∉ is.tids) :
    tget (runGroup gd f skip s).threads t = tget s.threads t := by
  simp only [runGroup, hi]
  rw [tget_map _ _ (fun p => by split <;> rfl)]
  cases tget s.threads t <;> simp [ht]

/-- An executing thread for which the instruction has its effect. -/
theorem runGroup_ok {is : Issue} {t : Tid} {th th' : Thread} {a : Act} (h : Executes s is gd t th) (hf : f t th = .ok (th', a)) :
    (runGroup gd f skip s).thread t = applyAct is a th' := by
  apply State.thread_of_tget
  rw [runGroup_member gd f skip h.issue h.member h.entry]
  simp [threadStep, h.guard, hf]

/-- An executing thread that the instruction traps. -/
theorem runGroup_trap {is : Issue} {t : Tid} {th : Thread} {tr : Trap} (h : Executes s is gd t th) (hf : f t th = .error tr) :
    (runGroup gd f skip s).thread t = takeTrap s is t tr th := by
  apply State.thread_of_tget
  rw [runGroup_member gd f skip h.issue h.member h.entry]
  simp [threadStep, h.guard, hf]

/-- A guard-false thread goes past its slot (R55). -/
theorem runGroup_skip {is : Issue} {t : Tid} {th : Thread} (hi : s.issue = some is) (ht : t ∈ is.tids)
    (he : tget s.threads t = some th) (hg : guardTrue gd th = false) :
    (runGroup gd f skip s).thread t = advance is (skip t th) := by
  apply State.thread_of_tget
  rw [runGroup_member gd f skip hi ht he]
  simp [threadStep, hg]

end Sys2Proof.Machine
end

