-- ==== Sys2Proof/Laws/Memory.lean ====
section
/-!
SUPPORT. Laws of the memory operations: each keeps the canonical form of DRAM and of a team's scratch, a write is read back, and
what a sector's read reports leaves memory alone.
-/

namespace Sys2Proof.Machine

/-- The DRAM of a state is in its canonical form. -/
abbrev State.dramWf (s : State) : Prop := Memory.wf 0#8 s.mem.dram = true

theorem reset_dramWf : State.reset.dramWf := rfl

/-- Steps that each keep the form keep it together. -/
theorem foldl_dramWf {α : Type} (f : State → α → State) (hf : ∀ s a, State.dramWf s → (f s a).dramWf) (l : List α) :
    ∀ {s : State}, s.dramWf → (l.foldl f s).dramWf := by
  induction l with
  | nil => exact fun h => h
  | cons a l ih => exact fun h => ih (hf _ a h)

/-! ### Reports, counters and bank engines leave memory alone -/

@[simp] theorem report_mem (s : State) (k pa loc : Nat) : (s.report k pa loc).mem = s.mem := by unfold State.report; dsimp only; split <;> rfl

@[simp] theorem bump_mem (s : State) (p : CtrPlace) (n : Nat) : (s.bump p n).mem = s.mem := rfl

@[simp] theorem reportSector_mem (s : State) (k pa st loc : Nat) : (s.reportSector k pa st loc).mem = s.mem := by
  simp [State.reportSector]

@[simp] theorem retireChannel_mem (s : State) (st c : Nat) : (s.retireChannel st c).mem = s.mem := by
  unfold State.retireChannel; dsimp only; split <;> simp

@[simp] theorem countBad_mem (s : State) (st c : Nat) : (s.countBad st c).mem = s.mem := by
  unfold State.countBad; dsimp only; split <;> simp

@[simp] theorem ordinary_mem (s : State) (b : BankId) : (s.ordinary b).mem = s.mem := rfl

@[simp] theorem putParity_mem (s : State) (sec : Nat) : (s.putParity sec).mem = s.mem := rfl

/-! ### DRAM -/

/-- Writing DRAM keeps its form, and the bytes written are read back while every other stands. -/
theorem dramPut_wf {s : State} (a : Nat) (bs : List Byte) (h : s.dramWf) : (s.dramPut a bs).dramWf := wf_cellPutAll 0#8 a bs h

theorem dramPut_byte (s : State) (a b : Nat) (bs : List Byte) :
    cellGet 0#8 b (s.dramPut a bs).mem.dram =
      if a ≤ b ∧ b < a + bs.length then bs.getD (b - a) 0#8 else cellGet 0#8 b s.mem.dram :=
  cellGet_cellPutAll 0#8 a b bs s.mem.dram

@[simp] theorem dramSector_length (s : State) (sec : Nat) : (s.dramSector sec).length = 32 := cellGetAll_length 0#8 _ _ _

/-- A sector put whole is its bytes in DRAM, and nothing else of the memory system. -/
@[simp] theorem sectorPut_mem (s : State) (sec : Nat) (bs : List Byte) (p : Bool) :
    (s.sectorPut sec bs p).mem = (s.dramPut (32 * sec) bs).mem := rfl

theorem sectorPut_wf {s : State} (sec : Nat) (bs : List Byte) (p : Bool) (h : s.dramWf) : (s.sectorPut sec bs p).dramWf :=
  dramPut_wf (s := s) _ _ h

/-- A sector's read gives 32 bytes. -/
theorem sectorRead_length (s : State) (sec : Nat) : (sectorRead s sec).1.1.length = 32 := by
  unfold sectorRead; split <;> simp [zeroSector]

theorem sectorRead_wf {s : State} (sec : Nat) (h : s.dramWf) : (sectorRead s sec).2.dramWf := by
  unfold sectorRead
  split
  · exact h
  · exact h
  · simpa [State.dramWf] using sectorPut_wf sec (s.dramSector sec) false h
  · simpa [State.dramWf] using sectorPut_wf sec (s.dramSector sec) false h
  · simpa [State.dramWf] using sectorPut_wf sec zeroSector true h

theorem sectorStore_wf {s : State} (sec : Nat) (bs : List Byte) (p : Bool) (h : s.dramWf) : (sectorStore s sec bs p).dramWf :=
  sectorPut_wf (s := ((s.ordinary (s.bankOf sec)).ordinary (s.parityBank sec)).dropHeld sec) _ _ _ h

theorem sectorWrite_wf {s : State} (a : Nat) (bs : List Byte) (h : s.dramWf) : (sectorWrite s a bs).dramWf := by
  unfold sectorWrite; split
  · exact sectorStore_wf _ _ _ h
  · exact sectorStore_wf _ _ _ (sectorRead_wf (a / 32) h)

/-! ### Base dies -/

theorem evictSide_wf {s : State} (line : Nat) (h : s.dramWf) : (evictSide line s).dramWf :=
  foldl_dramWf _ (fun _ x h => sectorStore_wf x.1 _ _ h) _ h

theorem sideRoom_wf {s : State} (line : Nat) (h : s.dramWf) : (s.sideRoom line).dramWf := by
  unfold State.sideRoom; split
  · exact h
  · dsimp only; split
    · exact h
    · exact evictSide_wf _ h

theorem sideRead_wf {s : State} (sec : Nat) (h : s.dramWf) : (sideRead s sec).2.dramWf := by
  have hr : (sectorRead (s.ordinary (s.bankOf sec)) sec).2.dramWf := sectorRead_wf sec h
  unfold sideRead; split
  · exact h
  · dsimp only; split
    · exact hr
    · exact sideRoom_wf (sec / 4) hr

theorem baseRead_wf {s : State} (pa n : Nat) (h : s.dramWf) : (baseRead s pa n).2.dramWf := sideRead_wf (pa / 32) h

theorem baseStore_wf {s : State} (sec : Nat) (bs : List Byte) (p : Bool) (h : s.dramWf) : (baseStore s sec bs p).dramWf := by
  have hs := sectorStore_wf sec bs p h
  unfold baseStore; split
  · exact h
  · dsimp only; split <;> exact hs

@[simp] theorem seeWrite_dram (s : State) (pa : Nat) (bs : List Byte) : (s.seeWrite pa bs).mem.dram = s.mem.dram := rfl

theorem seeWrite_wf {s : State} (pa : Nat) (bs : List Byte) (h : s.dramWf) : (s.seeWrite pa bs).dramWf := h

theorem sidePeek_wf {s : State} (sec : Nat) (h : s.dramWf) : (sidePeek s sec).2.dramWf := by
  unfold sidePeek; split
  · exact h
  · exact sectorRead_wf sec h

theorem baseWrite_wf {s : State} (pa : Nat) (bs : List Byte) (h : s.dramWf) : (baseWrite s pa bs).dramWf := by
  unfold baseWrite
  apply seeWrite_wf; split
  · exact baseStore_wf _ _ _ h
  · exact baseStore_wf _ _ _ (sidePeek_wf (pa / 32) h)

/-! ### Home slices -/

@[simp] theorem dropCopies_dram (s : State) (pa : Nat) (secs : List Nat) : (s.dropCopies pa secs).mem.dram = s.mem.dram := rfl

@[simp] theorem dropTile_dram (s : State) (pa : Nat) : (s.dropTile pa).mem.dram = s.mem.dram := by
  unfold State.dropTile; split <;> rfl

theorem evictSector_wf {s : State} (sec : Nat) (h : s.dramWf) : (evictSector s sec).dramWf := by
  unfold evictSector; split
  · exact h
  · dsimp only; split
    · exact baseStore_wf _ _ _ h
    · exact h

theorem evictLine_wf {s : State} (line : Nat) (h : s.dramWf) : (evictLine line s).dramWf := by
  unfold evictLine State.dramWf
  rw [dropTile_dram]
  exact foldl_dramWf _ (fun _ x h => evictSector_wf x h) _ h

theorem l2Room_wf {s : State} (line : Nat) (h : s.dramWf) : (s.l2Room line).dramWf := by
  unfold State.l2Room; split
  · exact h
  · dsimp only; split
    · exact h
    · exact evictLine_wf _ h

theorem putL2_wf {s : State} (sec : Nat) (l : L2Sector) (h : s.dramWf) : (s.putL2 sec l).dramWf := l2Room_wf (sec / 4) h

theorem homeFill_wf {s : State} (sec : Nat) (h : s.dramWf) : (homeFill s sec).2.dramWf := by
  unfold homeFill; split
  · exact h
  · split
    · exact putL2_wf _ _ h
    · exact putL2_wf _ _ (sideRead_wf sec h)

theorem homeRead_wf {s : State} (pa n : Nat) (h : s.dramWf) : (homeRead s pa n).2.dramWf := homeFill_wf (pa / 32) h

theorem homeWrite_wf {s : State} (pa : Nat) (bs : List Byte) (al : Bool) (h : s.dramWf) : (homeWrite s pa bs al).dramWf := by
  unfold homeWrite; dsimp only; split
  · exact seeWrite_wf _ _ (putL2_wf _ _ h)
  · split
    · exact seeWrite_wf _ _ (putL2_wf _ _ (homeFill_wf (pa / 32) h))
    · exact baseWrite_wf pa bs h

/-! ### Dies -/

theorem flushDie_wf {s : State} (d : Nat) (h : s.dramWf) : (s.flushDie d).dramWf :=
  foldl_dramWf _ (fun _ n h => evictSide_wf n h) _
    (foldl_dramWf _ (fun _ x h => evictSector_wf x h) _
      (foldl_dramWf (fun st (w : WriteBackMsg) => baseStore st w.sector w.data w.poison) (fun _ w h => baseStore_wf w.sector _ _ h) _ h))

theorem emptyDie_wf {s : State} (d : Nat) (back : Bool) (h : s.dramWf) : (s.emptyDie d back).dramWf := by
  cases back
  · exact h
  · exact flushDie_wf d h

theorem loseMemory_wf {s : State} (d : Nat) (h : s.dramWf) : (s.loseMemory d).dramWf :=
  wf_filter 0#8 _ (emptyDie_wf d false h)

/-! ### Scratch -/

/-- Writing scratch keeps its form, and the bytes written are read back while every other stands. -/
theorem scratchPut_wf {m : Team} (o : Nat) (bs : List Byte) (h : Memory.wf 0#8 m.scratch = true) :
    Memory.wf 0#8 (m.scratchPut o bs).scratch = true := wf_cellPutAll 0#8 o bs h

theorem scratchPut_byte (m : Team) (o b : Nat) (bs : List Byte) :
    cellGet 0#8 b (m.scratchPut o bs).scratch =
      if o ≤ b ∧ b < o + bs.length then bs.getD (b - o) 0#8 else cellGet 0#8 b m.scratch :=
  cellGet_cellPutAll 0#8 o b bs m.scratch

end Sys2Proof.Machine
end

