-- ==== Sys2Proof/Laws/Result.lean ====
section
/-!
SUPPORT. Writing registers, and what a result leaves: one lemma for every instruction whose effect is a register result.
-/

namespace Sys2Proof.Machine

/-- The value a cell of a thread holds; an s-register is none of its own. -/
def Thread.cell (th : Thread) : RegCell → Word
  | .g n => th.g[n]
  | .stk n => th.entryAt n
  | .s _ => 0#32

/-- A cell that a thread has. -/
def Thread.hasCell (th : Thread) : RegCell → Bool
  | .g _ => true
  | .stk n => decide (n < th.depth)
  | .s _ => false

@[simp] theorem writeCell_depth (th : Thread) (c : RegCell) (v : Word) : (writeCell th c v).depth = th.depth := by
  cases c <;> simp [writeCell, Thread.depth]

/-- A written cell, and every other as it was. -/
theorem cell_writeCell (th : Thread) (c e : RegCell) (v : Word) :
    (writeCell th c v).cell e = if c = e ∧ th.hasCell c then v else th.cell e := by
  cases c with
  | s k => simp [writeCell, Thread.hasCell]
  | g n =>
    cases e with
    | g m =>
      by_cases h : n = m
      · subst h; simp [writeCell, Thread.cell, Thread.hasCell]
      · have h2 : n.val ≠ m.val := fun x => h (Fin.ext x)
        simp [writeCell, Thread.cell, h, h2]
    | stk m => simp [writeCell, Thread.cell, Thread.entryAt]
    | s m => simp [Thread.cell]
  | stk n =>
    cases e with
    | g m => simp [writeCell, Thread.cell]
    | stk m =>
      by_cases h : n = m
      · subst h
        by_cases hl : n < th.stack.length
        · simp [writeCell, Thread.cell, Thread.entryAt, Thread.hasCell, Thread.depth, hl]
        · simp [writeCell, Thread.cell, Thread.entryAt, Thread.hasCell, Thread.depth, hl]
      · simp [writeCell, Thread.cell, Thread.entryAt, h]
    | s m => simp [Thread.cell]

/-- Cells written in order, none twice: each holds its value. -/
theorem cell_writeCells (ps : List (RegCell × Word)) (th : Thread) (e : RegCell) (hd : (ps.map Prod.fst).Nodup) :
    (writeCells th ps).cell e = match ps.find? fun p => p.1 = e with
      | some p => if th.hasCell e then p.2 else th.cell e
      | none => th.cell e := by
  induction ps generalizing th with
  | nil => rfl
  | cons p ps ih =>
    obtain ⟨c, v⟩ := p
    simp only [List.map_cons, List.nodup_cons] at hd
    have hh : ∀ x, (writeCell th c v).hasCell x = th.hasCell x := by intro x; cases x <;> simp [Thread.hasCell]
    rw [writeCells, ih _ hd.2]
    by_cases h : c = e
    · subst h
      have hn : ps.find? (fun p => decide (p.1 = c)) = none := by
        simp only [List.find?_eq_none, decide_eq_true_eq]
        rintro ⟨x, y⟩ hx rfl
        exact hd.1 (List.mem_map_of_mem hx)
      simp only [hn, List.find?_cons, decide_true, cell_writeCell, true_and]
    · simp only [List.find?_cons, h, decide_false, cell_writeCell, false_and, if_false, hh]

@[simp] theorem writeCells_nil (th : Thread) : writeCells th [] = th := rfl

/-- The parts of a thread that writing cells leaves alone. -/
theorem writeCells_keep (ps : List (RegCell × Word)) (th : Thread) :
    (writeCells th ps).pc = th.pc ∧ (writeCells th ps).latches = th.latches ∧ (writeCells th ps).flg = th.flg ∧
    SameContext th (writeCells th ps) ∧ (writeCells th ps).depth = th.depth ∧ (writeCells th ps).preds = th.preds := by
  induction ps generalizing th with
  | nil => exact ⟨rfl, rfl, rfl, ⟨rfl, rfl, rfl, rfl, rfl, rfl, rfl, rfl⟩, rfl, rfl⟩
  | cons p ps ih =>
    obtain ⟨c, v⟩ := p
    obtain ⟨h1, h2, h3, h4, h5, h6⟩ := ih (writeCell th c v)
    rw [writeCells]
    cases c <;> exact ⟨h1, h2, h3, ⟨h4.1, h4.2, h4.3, h4.4, h4.5, h4.6, h4.7, h4.8⟩, h5.trans (by simp), h6⟩

/-- The s-registers after cells are written. -/
theorem writeS_get (ps : List (RegCell × Word)) (c : Cohort) (m : Fin 32) (hd : (ps.map Prod.fst).Nodup) :
    (c.writeS ps).s[m] = match ps.find? fun p => p.1 = .s m with
      | some p => p.2
      | none => c.s[m] := by
  induction ps generalizing c with
  | nil => rfl
  | cons p ps ih =>
    obtain ⟨e, v⟩ := p
    simp only [List.map_cons, List.nodup_cons] at hd
    by_cases h : e = .s m
    · subst h
      have hn : ps.find? (fun p => decide (p.1 = RegCell.s m)) = none := by
        simp only [List.find?_eq_none, decide_eq_true_eq]
        rintro ⟨x, y⟩ hx rfl
        exact hd.1 (List.mem_map_of_mem hx)
      simp only [Cohort.writeS, List.find?_cons, decide_true, ih _ hd.2, hn]
      simp
    · have h' : decide (e = RegCell.s m) = false := by simp [h]
      simp only [List.find?_cons, h']
      cases e with
      | s k =>
        have hk : k.val ≠ m.val := fun x => h (by rw [Fin.ext x])
        rw [Cohort.writeS, ih _ hd.2]
        cases List.find? (fun p => decide (p.1 = RegCell.s m)) ps
        · simp [hk]
        · rfl
      | g k => rw [Cohort.writeS, ih _ hd.2]; exact fun _ _ h => nomatch h
      | stk k => rw [Cohort.writeS, ih _ hd.2]; exact fun _ _ h => nomatch h

/-- The entry of a key that stands once in a list. -/
theorem find_of_mem {α β : Type} [DecidableEq α] {ps : List (α × β)} {p : α × β} (hm : p ∈ ps) (hd : (ps.map Prod.fst).Nodup) :
    ps.find? (fun q => decide (q.1 = p.1)) = some p := by
  induction ps with
  | nil => cases hm
  | cons q ps ih =>
    simp only [List.map_cons, List.nodup_cons] at hd
    rcases List.mem_cons.mp hm with h | h
    · subst h; simp
    · have : q.1 ≠ p.1 := fun e => hd.1 (e ▸ List.mem_map_of_mem h)
      simp [this, ih h hd.2]

/-- The cell of the register i above r; s0's where there is none. -/
def posCell (th : Thread) (r : Reg) (i : Nat) : RegCell := (cellOf th (r.plus i)).getD (.s 0)

theorem cellOf_plus (th : Thread) (r : Reg) (i : Nat) (h : r.isK = false) : cellOf th (r.plus i) = some (posCell th r i) := by
  cases r <;> simp_all [posCell, Reg.plus, cellOf, Reg.isK]

theorem cellsOf_eq (th : Thread) (r : Reg) (n : Nat) (h : r.isK = false) : cellsOf th r n = (List.range n).map (posCell th r) := by
  simp only [cellsOf, Reg.span, List.filterMap_map]
  rw [← List.filterMap_eq_map]
  congr 1
  funext i
  simp [cellOf_plus th r i h]

theorem cellsOf_k (th : Thread) (r : Reg) (n : Nat) (h : r.isK = true) : cellsOf th r n = [] := by
  cases r <;> simp_all [cellsOf, Reg.span, Reg.plus, cellOf, Reg.isK]

/-- Positions that land have cells of their own. -/
theorem posCell_inj {s : State} {gd : Guard} {t : Tid} {th : Thread} {r : Reg} {n : Nat} (h : Lands s gd t th r n) :
    r.isK = false ∧ ∀ i < n, ∀ j < n, posCell th r i = posCell th r j → i = j := by
  cases r with
  | g m =>
    refine ⟨rfl, fun i hi j hj e => ?_⟩
    simp only [Lands] at h
    simp only [posCell, Reg.plus, cellOf, Option.getD_some, RegCell.g.injEq, Fin.ext_iff, Fin.val_ofNat] at e
    rw [Nat.mod_eq_of_lt (by omega), Nat.mod_eq_of_lt (by omega)] at e
    omega
  | w m =>
    refine ⟨rfl, fun i hi j hj e => ?_⟩
    simp only [Lands] at h
    simp only [posCell, Reg.plus, cellOf, Option.getD_some, RegCell.stk.injEq, Fin.val_ofNat] at e
    rw [Nat.mod_eq_of_lt (by omega : m.val + i < 32), Nat.mod_eq_of_lt (by omega : m.val + j < 32)] at e
    have h1 := Nat.div_add_mod (16 * th.wb + (m.val + i)) th.depth
    have h2 := Nat.div_add_mod (16 * th.wb + (m.val + j)) th.depth
    rw [e] at h1
    by_cases hq : (16 * th.wb + (m.val + i)) / th.depth = (16 * th.wb + (m.val + j)) / th.depth
    · rw [hq] at h1; omega
    · exfalso
      rcases Nat.lt_or_gt_of_ne hq with hl | hl
      · have := Nat.mul_le_mul_left th.depth hl
        rw [Nat.mul_succ] at this
        omega
      · have := Nat.mul_le_mul_left th.depth hl
        rw [Nat.mul_succ] at this
        omega
  | s m =>
    refine ⟨rfl, fun i hi j hj e => ?_⟩
    simp only [Lands] at h
    simp only [posCell, Reg.plus, cellOf, Option.getD_some, RegCell.s.injEq, Fin.ext_iff, Fin.val_ofNat] at e
    rw [Nat.mod_eq_of_lt (by omega), Nat.mod_eq_of_lt (by omega)] at e
    omega
  | k m => exact h.elim

@[simp] theorem advance_latches (is : Issue) (th : Thread) : (advance is th).latches = th.latches := by
  unfold advance leaveLine; split <;> rfl
@[simp] theorem advance_flg (is : Issue) (th : Thread) : (advance is th).flg = th.flg := by unfold advance leaveLine; split <;> rfl
@[simp] theorem advance_pc (is : Issue) (th : Thread) : (advance is th).pc = nextPc is.pc := by unfold advance leaveLine; split <;> rfl
@[simp] theorem advance_depth (is : Issue) (th : Thread) : (advance is th).depth = th.depth := by unfold advance leaveLine; split <;> rfl
@[simp] theorem advance_wb (is : Issue) (th : Thread) : (advance is th).wb = th.wb := by unfold advance leaveLine; split <;> rfl
@[simp] theorem advance_preds (is : Issue) (th : Thread) : (advance is th).preds = th.preds := by unfold advance leaveLine; split <;> rfl
@[simp] theorem advance_cell (is : Issue) (th : Thread) (c : RegCell) : (advance is th).cell c = th.cell c := by
  unfold advance leaveLine; split <;> cases c <;> rfl
theorem advance_context (is : Issue) (th : Thread) : SameContext th (advance is th) := by
  unfold advance leaveLine; split <;> exact ⟨rfl, rfl, rfl, rfl, rfl, rfl, rfl, rfl⟩

theorem SameContext.trans {a b c : Thread} (h : SameContext a b) (k : SameContext b c) : SameContext a c :=
  ⟨k.1.trans h.1, k.2.trans h.2, k.3.trans h.3, k.4.trans h.4, k.5.trans h.5, k.6.trans h.6, k.7.trans h.7, k.8.trans h.8⟩

/-- A register of a thread's own is its cell. -/
theorem readReg_cell (s : State) (t : Tid) {r : Reg} {c : RegCell} (h : cellOf (s.thread t) r = some c) (hs : r.isS = false) :
    readReg s t r = (s.thread t).cell c := by
  cases r with
  | g n => simp only [cellOf, Option.some.injEq] at h; subst h; rfl
  | w n => simp only [cellOf, Option.some.injEq] at h; subst h; rfl
  | s n => cases hs
  | k n => cases h

/-- A thread's registers have the cells they had where its stack's depth and its window base are the same. -/
theorem cellOf_congr {a b : Thread} (hd : a.depth = b.depth) (hw : a.wb = b.wb) (r : Reg) : cellOf a r = cellOf b r := by
  cases r <;> simp [cellOf, hd, hw]

theorem special_congr {s s' : State} (h1 : s'.teams = s.teams) (h2 : s'.launches = s.launches) (h3 : s'.moduleNo = s.moduleNo)
    (t : Tid) (n : Fin 32) : special s' t n = special s t n := by
  simp only [special, State.team, State.launch, State.launchOf, h1, h2, h3]

/-- A cell that is not written. -/
theorem cell_writeCells_other (ps : List (RegCell × Word)) (th : Thread) (e : RegCell) (h : ∀ p ∈ ps, p.1 ≠ e) :
    (writeCells th ps).cell e = th.cell e := by
  induction ps generalizing th with
  | nil => rfl
  | cons p ps ih =>
    obtain ⟨c, v⟩ := p
    rw [writeCells, ih _ (fun q hq => h q (List.mem_cons_of_mem _ hq)), cell_writeCell]
    have : c ≠ e := h _ List.mem_cons_self
    simp [this]

/-- An s-register that is not written. -/
theorem writeS_other (ps : List (RegCell × Word)) (c : Cohort) (m : Fin 32) (h : ∀ p ∈ ps, p.1 ≠ .s m) :
    (c.writeS ps).s[m] = c.s[m] := by
  induction ps generalizing c with
  | nil => rfl
  | cons p ps ih =>
    obtain ⟨e, v⟩ := p
    have h1 := fun c => ih c (fun q hq => h q (List.mem_cons_of_mem _ hq))
    have h2 : e ≠ .s m := h _ List.mem_cons_self
    cases e with
    | s k =>
      have hk : k.val ≠ m.val := fun x => h2 (by rw [Fin.ext x])
      rw [Cohort.writeS, h1]; simp [hk]
    | g k => rw [Cohort.writeS, h1]; exact fun _ _ h => nomatch h
    | stk k => rw [Cohort.writeS, h1]; exact fun _ _ h => nomatch h

/-- The cells of a position are those of its registers. -/
theorem mem_zip_cells {th : Thread} {r : Reg} {n : Nat} {ws : List Word} {p : RegCell × Word} (h : p ∈ (cellsOf th r n).zip ws) :
    ∃ i < n, some p.1 = cellOf th (r.plus i) := by
  have h1 := (List.of_mem_zip (a := p.1) (b := p.2) h).1
  simp only [cellsOf, Reg.span, List.mem_filterMap, List.mem_map, List.mem_range] at h1
  obtain ⟨x, ⟨i, hi, rfl⟩, hx⟩ := h1
  exact ⟨i, hi, hx.symm⟩

/-- An s-register's cell is the same for every thread. -/
theorem cellOf_s (a b : Thread) {r : Reg} (h : r.isS = true) : cellOf a r = cellOf b r := by cases r <;> first | rfl | cases h

@[simp] theorem isS_plus (r : Reg) (i : Nat) : (r.plus i).isS = r.isS := by cases r <;> rfl

section Result
variable {s : State} {gd : Guard} {is : Issue} {t : Tid} {th : Thread} {d : Dest} {n : Nat} {f : Tid → Except Trap Result} {r : Result}

/-- The thread after a result. -/
theorem result_thread (h : Executes s is gd t th) (hf : f t = .ok r) (hfl : r.flags &&& tenOf s t = 0#5) :
    (result gd d n f s).thread t = advance is (putResult th d n r) := by
  have hc : computed s f t = .ok r := by
    simp [computed, hf, checkFlags, bind, Except.bind, hfl]
  have h1 : Executes ({ s with cohorts := putShared s gd d n f } : State) is gd t th := ⟨h.1, h.2, h.3, h.4⟩
  have := runGroup_ok gd (fun t th => (computed s f t).map fun r => (putResult th d n r, Act.next)) (skipCapture s d) h1
    (th' := putResult th d n r) (a := .next) (by simp [hc, Except.map])
  simpa [result, applyAct] using this

/-- What a thread's result leaves of it. -/
theorem putResult_keep (th : Thread) (d : Dest) (n : Nat) (r : Result) :
    (putResult th d n r).latches = th.latches.set d.rl (.valid (r.words.headD 0#32)) ∧ (putResult th d n r).flg = th.flg ||| r.flags ∧
    SameContext th (putResult th d n r) ∧ (putResult th d n r).depth = th.depth ∧ (putResult th d n r).preds = th.preds := by
  unfold putResult
  split
  · exact ⟨rfl, rfl, ⟨rfl, rfl, rfl, rfl, rfl, rfl, rfl, rfl⟩, rfl, rfl⟩
  · obtain ⟨-, h2, h3, h4, h5, h6⟩ := writeCells_keep
      ((cellsOf (setLatch { th with flg := th.flg ||| r.flags } d.rl (.valid (r.words.headD 0#32))) d.reg n).zip r.words)
      (setLatch { th with flg := th.flg ||| r.flags } d.rl (.valid (r.words.headD 0#32)))
    exact ⟨h2, h3, ⟨h4.1, h4.2, h4.3, h4.4, h4.5, h4.6, h4.7, h4.8⟩, h5, h6⟩

/-- The pairs of a position's cells and their words. -/
theorem zip_cells (th : Thread) (r : Reg) (ws : List Word) (h : r.isK = false) :
    (cellsOf th r ws.length).zip ws = (List.range ws.length).map fun i => (posCell th r i, ws.getD i 0#32) := by
  rw [cellsOf_eq th r _ h]
  apply List.ext_getElem
  · simp
  · intro i h1 h2
    simp at h1
    simp [h1]

theorem keys_nodup {th : Thread} {r : Reg} {n : Nat} {ws : List Word} (h : ∀ i < n, ∀ j < n, posCell th r i = posCell th r j → i = j) :
    (((List.range n).map fun i => (posCell th r i, ws.getD i 0#32)).map Prod.fst).Nodup := by
  rw [List.map_map]
  refine List.pairwise_map.mpr (List.Pairwise.imp_of_mem ?_ List.nodup_range)
  intro i j hi hj hne e
  exact hne (h i (List.mem_range.mp hi) j (List.mem_range.mp hj) e)

/-- The cohorts after a thread's result, where it is the lowest executing lane and the destination an s-register. -/
theorem putShared_lead (hc : computed s f t = .ok r) (hd : (s.execs gd).head? = some t) (hw : d.wbs = false) (hs : d.reg.isS = true) :
    putShared s gd d n f = tmod s.cohorts t.coh fun c => c.writeS ((cellsOf (s.thread t) d.reg n).zip r.words) := by
  have : leadResult s gd f = some (t, r) := by
    unfold leadResult
    cases he : s.execs gd with
    | nil => simp [he] at hd
    | cons u us =>
      simp only [he, List.head?_cons, Option.some.injEq] at hd
      subst hd
      simp [hc]
  simp [putShared, hw, hs, this]

theorem putShared_other (h : d.wbs = true ∨ d.reg.isS = false) : putShared s gd d n f = s.cohorts := by
  rcases h with h | h <;> simp [putShared, h]

/-- A result reaches its destination, its latch and its flags, and the thread goes past its slot. -/
theorem gotResult (h : Executes s is gd t th) (hf : f t = .ok r) (hl : r.words.length = n) (hfl : r.flags &&& tenOf s t = 0#5) :
    GotResult s gd is t th d r.words r.flags (result gd d n f s) := by
  subst hl
  have hc : computed s f t = .ok r := by simp [computed, hf, checkFlags, bind, Except.bind, hfl]
  have ht := result_thread (d := d) (n := r.words.length) h hf hfl
  obtain ⟨k1, k2, k3, k4, k5⟩ := putResult_keep th d r.words.length r
  have hth : s.thread t = th := State.thread_of_tget h.entry
  have hco : (result gd d r.words.length f s).cohorts = putShared s gd d r.words.length f := by simp [result]
  have hcell : ∀ x, cellOf ((result gd d r.words.length f s).thread t) x = cellOf th x := by
    intro x
    rw [ht]
    exact cellOf_congr (by simp [k4]) (by simp [k3.wb]) x
  constructor
  · simp [ht]
  · simp [ht, k1]
  · intro m hm
    have : d.rl.val ≠ m.val := fun e => hm (Fin.ext e.symm)
    simp [ht, k1, this]
  · simp [ht, k2]
  · intro hw hla i hi
    obtain ⟨hk, hinj⟩ := posCell_inj hla
    have hz := zip_cells th d.reg r.words hk
    have hnd := keys_nodup (ws := r.words) hinj
    have hfind : (((List.range r.words.length).map fun i => (posCell th d.reg i, r.words.getD i 0#32)).find?
        fun q => decide (q.1 = posCell th d.reg i)) = some (posCell th d.reg i, r.words.getD i 0#32) :=
      find_of_mem (p := (posCell th d.reg i, r.words.getD i 0#32)) (List.mem_map.mpr ⟨i, List.mem_range.mpr hi, rfl⟩) hnd
    have hget : r.words.getD i 0#32 = r.words[i] := by simp [hi]
    by_cases hs : d.reg.isS = true
    · obtain ⟨m, hm⟩ : ∃ m, d.reg = .s m := by
        cases hreg : d.reg <;> simp_all [Reg.isS]
      rw [hm] at hla
      simp only [Lands] at hla
      rw [putShared_lead hc hla.2.1 hw hs, hth, hz] at hco
      obtain ⟨c, hcoh⟩ := Option.isSome_iff_exists.mp hla.2.2
      have hc' : (result gd d r.words.length f s).cohort t.coh = c.writeS ((List.range r.words.length).map fun i =>
          (posCell th d.reg i, r.words.getD i 0#32)) := by
        simp [State.cohort, hco, hcoh]
      rw [hm] at hfind hnd hc' ⊢
      simp only [Reg.plus, readReg, hc', writeS_get _ _ _ hnd]
      have hfind' : (((List.range r.words.length).map fun i => (posCell th (.s m) i, r.words.getD i 0#32)).find?
          fun p => decide (p.1 = RegCell.s (Fin.ofNat 32 (m.val + i)))) = some (posCell th (.s m) i, r.words.getD i 0#32) := hfind
      rw [hfind']
      exact hget
    · have hs' : d.reg.isS = false := by simpa using hs
      rw [readReg_cell _ t (c := posCell th d.reg i) (by rw [hcell, cellOf_plus th d.reg i hk]) (by simpa using hs'), ht, advance_cell]
      simp only [putResult, hw, Bool.false_eq_true, if_false]
      have hcells : ∀ m, cellsOf (setLatch { th with flg := th.flg ||| r.flags } d.rl (.valid (r.words.headD 0#32))) d.reg m =
          cellsOf th d.reg m := fun m => rfl
      rw [hcells, hz, cell_writeCells _ _ _ hnd, hfind]
      have hhas : (setLatch { th with flg := th.flg ||| r.flags } d.rl (.valid (r.words.headD 0#32))).hasCell (posCell th d.reg i) := by
        cases hreg : d.reg with
        | g m => rfl
        | w m =>
          rw [hreg] at hla
          simp only [Lands] at hla
          simp only [posCell, Reg.plus, cellOf, Option.getD_some, Thread.hasCell, decide_eq_true_eq]
          exact Nat.mod_lt _ (by show 0 < th.depth; omega)
        | s m => simp [hreg, Reg.isS] at hs'
        | k m => simp [hreg, Reg.isK] at hk
      exact (if_pos hhas).trans hget
  · intro x hx
    have hnot : d.wbs = false → ∀ u (ws : List Word), ∀ p ∈ (cellsOf u d.reg r.words.length).zip ws, (u = th ∨ d.reg.isS = true) → some p.1 ≠ cellOf th x := by
      intro hw u ws p hp hu
      obtain ⟨i, hi, hpe⟩ := mem_zip_cells hp
      rcases hx with hx | hx
      · simp [hx] at hw
      · rw [hpe]
        have := (hx i hi).symm
        rcases hu with rfl | hu
        · exact this
        · rwa [cellOf_s u th (by simpa using hu)]
    cases x with
    | k m => exact special_congr (by simp [result]) (by simp [result]) (by simp [result]) t m
    | s m =>
      simp only [readReg]
      by_cases hd : d.wbs = true ∨ d.reg.isS = false
      · rw [State.cohort, hco, putShared_other hd, State.cohort]
      · simp only [not_or, Bool.not_eq_true, Bool.not_eq_false] at hd
        have hput : putShared s gd d r.words.length f = s.cohorts ∨ ∃ u q, putShared s gd d r.words.length f =
            tmod s.cohorts u fun c => c.writeS ((cellsOf q d.reg r.words.length).zip (((leadResult s gd f).map fun x => x.2.words).getD [])) := by
          simp only [putShared, hd.1, hd.2, Bool.not_true, Bool.or_false, Bool.false_eq_true, if_false]
          cases leadResult s gd f with
          | none => exact .inl rfl
          | some p => exact .inr ⟨p.1.coh, s.thread p.1, rfl⟩
        rcases hput with hput | ⟨u, q, hput⟩
        · rw [State.cohort, hco, hput, State.cohort]
        · rw [State.cohort, hco, hput, State.cohort, tget_tmod]
          split
          · cases tget s.cohorts t.coh with
            | none => rfl
            | some c =>
              simp only [Option.map_some, Option.getD_some]
              exact writeS_other _ _ _ fun p hp e => hnot hd.1 q _ p hp (.inr hd.2) (by rw [e]; rfl)
          · rfl
    | g m =>
      rw [readReg_cell _ t (c := .g m) (by rw [hcell]; rfl) rfl, readReg_cell s t (c := .g m) (by rw [hth]; rfl) rfl, ht, hth, advance_cell]
      unfold putResult
      split
      · rfl
      · rename_i hw
        exact cell_writeCells_other _ _ _ fun p hp e => hnot (by simpa using hw) th _ p hp (.inl rfl) (by rw [e]; rfl)
    | w m =>
      have hm : cellOf th (.w m) = some (.stk ((16 * th.wb + m.val) % th.depth)) := rfl
      rw [readReg_cell _ t (by rw [hcell]; exact hm) rfl, readReg_cell s t (by rw [hth]; exact hm) rfl, ht, hth, advance_cell]
      unfold putResult
      split
      · rfl
      · rename_i hw
        exact cell_writeCells_other _ _ _ fun p hp e => hnot (by simpa using hw) th _ p hp (.inl rfl) (by rw [e]; rfl)
  · simp [ht, k5]
  · rw [ht]; exact k3.trans (advance_context _ _)

/-- An instruction that is a result completes with it. -/
theorem completes_result {i : Instr} (he : exec i s = .next (result gd d n f s)) (hf : f t = .ok r) (hl : r.words.length = n)
    (hfl : r.flags &&& tenOf s t = 0#5) : Completes i gd d s t r.words r.flags :=
  fun _ _ h => ⟨_, he, gotResult h hf hl hfl⟩

end Result

/-! ### Predicates -/

@[simp] theorem setPred_pred (th : Thread) (p k : Fin 8) (v : Bool) : (setPred th p v).pred k = if p = k then v else th.pred k := by
  simp only [Thread.pred, setPred]
  have hp := p.isLt
  have hk := k.isLt
  by_cases h : p = k
  · subst h
    cases v <;> simp [hp]
  · have h2 : p.val ≠ k.val := fun e => h (Fin.ext e)
    cases v
    · simp [h, hk]
      intro _
      omega
    · simp [h, hk]
      intro _
      omega

/-- What setting predicates leaves of a thread. -/
theorem setPreds_keep (ps : List (Fin 8 × Bool)) (th : Thread) :
    (setPreds th ps).latches = th.latches ∧ (setPreds th ps).flg = th.flg ∧ SameContext th (setPreds th ps) ∧
    (setPreds th ps).depth = th.depth ∧ ∀ c, (setPreds th ps).cell c = th.cell c := by
  induction ps generalizing th with
  | nil => exact ⟨rfl, rfl, ⟨rfl, rfl, rfl, rfl, rfl, rfl, rfl, rfl⟩, rfl, fun _ => rfl⟩
  | cons p ps ih =>
    obtain ⟨h1, h2, h4, h5, h6⟩ := ih (setPred th p.1 p.2)
    exact ⟨h1, h2, ⟨h4.1, h4.2, h4.3, h4.4, h4.5, h4.6, h4.7, h4.8⟩, h5, fun c => (h6 c).trans (by cases c <;> rfl)⟩

theorem setPreds_other (ps : List (Fin 8 × Bool)) (th : Thread) (k : Fin 8) (h : ∀ p ∈ ps, p.1 ≠ k) :
    (setPreds th ps).pred k = th.pred k := by
  induction ps generalizing th with
  | nil => rfl
  | cons p ps ih =>
    have h1 : p.1 ≠ k := h p List.mem_cons_self
    simp only [setPreds]
    rw [ih _ fun q hq => h q (List.mem_cons_of_mem _ hq)]
    simp [h1]

theorem setPreds_set (ps : List (Fin 8 × Bool)) (th : Thread) (hd : (ps.map Prod.fst).Nodup) :
    ∀ p ∈ ps, (setPreds th ps).pred p.1 = p.2 := by
  induction ps generalizing th with
  | nil => intro p hp; cases hp
  | cons q ps ih =>
    intro p hp
    simp only [List.map_cons, List.nodup_cons] at hd
    rcases List.mem_cons.mp hp with h | h
    · subst h
      simp only [setPreds]
      rw [setPreds_other _ _ _ fun x hx e => hd.1 (List.mem_map.mpr ⟨x, hx, e⟩)]
      simp
    · exact ih _ hd.2 p h

/-- A thread that is the same but for its place and its predicates reads the same registers. -/
theorem readReg_same {s s' : State} {t : Tid} (hc : ∀ c, (s'.thread t).cell c = (s.thread t).cell c)
    (hd : (s'.thread t).depth = (s.thread t).depth) (hw : (s'.thread t).wb = (s.thread t).wb) (h0 : s'.cohorts = s.cohorts)
    (h1 : s'.teams = s.teams) (h2 : s'.launches = s.launches) (h3 : s'.moduleNo = s.moduleNo) (r : Reg) :
    readReg s' t r = readReg s t r := by
  cases r with
  | g n => exact hc (.g n)
  | w n =>
    have := hc (.stk ((16 * (s.thread t).wb + n.val) % (s.thread t).depth))
    simpa [readReg, hd, hw, Thread.cell] using this
  | s n => simp [readReg, State.cohort, h0]
  | k n => exact special_congr h1 h2 h3 t n

/-- Predicates set, and the thread past its slot. -/
theorem gotPreds {s : State} {gd : Guard} {is : Issue} {t : Tid} {th : Thread}
    {f : Tid → Thread → Except Trap (List (Fin 8 × Bool))} {ps : List (Fin 8 × Bool)} (h : Executes s is gd t th)
    (hf : f t th = .ok ps) (hd : (ps.map Prod.fst).Nodup) : GotPreds s is t th ps (predResult gd f s) := by
  have hth : s.thread t = th := State.thread_of_tget h.entry
  have ht : (predResult gd f s).thread t = advance is (setPreds th ps) := by
    have := runGroup_ok gd (fun t th => (f t th).map fun ps => (setPreds th ps, Act.next)) skipPlain h (th' := setPreds th ps)
      (a := .next) (by simp [hf, Except.map])
    simpa [predResult, applyAct] using this
  obtain ⟨k1, k2, k3, k4, k5⟩ := setPreds_keep ps th
  constructor
  · simp [ht]
  · intro p hp; simp only [ht, Thread.pred, advance_preds]; exact setPreds_set ps th hd p hp
  · intro k hk; simp only [ht, Thread.pred, advance_preds]; exact setPreds_other ps th k hk
  · exact readReg_same (by simp [ht, hth, k5]) (by simp [ht, hth, k4]) (by simp [ht, hth, k3.wb]) (by simp [predResult])
      (by simp [predResult]) (by simp [predResult]) (by simp [predResult])
  · simp [ht, k1]
  · simp [ht, k2]
  · rw [ht]; exact k3.trans (advance_context _ _)

end Sys2Proof.Machine
end

