-- ==== Sys2Proof/Laws/State.lean ====
section
/-!
SUPPORT. One lemma for each field under each update of the state: what an update leaves, and where it is a plain one, what it sets.
-/

namespace Sys2Proof.Machine

/-! ### modThread -/

@[simp] theorem State.modThread_threads (s : State) (t : Tid) (f : Thread → Thread) : (s.modThread t f).threads = tmod s.threads t f := rfl
@[simp] theorem State.modThread_cohorts (s : State) (t : Tid) (f : Thread → Thread) : (s.modThread t f).cohorts = s.cohorts := rfl
@[simp] theorem State.modThread_teams (s : State) (t : Tid) (f : Thread → Thread) : (s.modThread t f).teams = s.teams := rfl
@[simp] theorem State.modThread_barriers (s : State) (t : Tid) (f : Thread → Thread) : (s.modThread t f).barriers = s.barriers := rfl
@[simp] theorem State.modThread_parts (s : State) (t : Tid) (f : Thread → Thread) : (s.modThread t f).parts = s.parts := rfl
@[simp] theorem State.modThread_launches (s : State) (t : Tid) (f : Thread → Thread) : (s.modThread t f).launches = s.launches := rfl
@[simp] theorem State.modThread_traps (s : State) (t : Tid) (f : Thread → Thread) : (s.modThread t f).traps = s.traps := rfl
@[simp] theorem State.modThread_issue (s : State) (t : Tid) (f : Thread → Thread) : (s.modThread t f).issue = s.issue := rfl
@[simp] theorem State.modThread_late (s : State) (t : Tid) (f : Thread → Thread) : (s.modThread t f).late = s.late := rfl
@[simp] theorem State.modThread_sched (s : State) (t : Tid) (f : Thread → Thread) : (s.modThread t f).sched = s.sched := rfl
@[simp] theorem State.modThread_cycle (s : State) (t : Tid) (f : Thread → Thread) : (s.modThread t f).cycle = s.cycle := rfl
@[simp] theorem State.modThread_nextId (s : State) (t : Tid) (f : Thread → Thread) : (s.modThread t f).nextId = s.nextId := rfl
@[simp] theorem State.modThread_free (s : State) (t : Tid) (f : Thread → Thread) : (s.modThread t f).free = s.free := rfl
@[simp] theorem State.modThread_moduleNo (s : State) (t : Tid) (f : Thread → Thread) : (s.modThread t f).moduleNo = s.moduleNo := rfl
@[simp] theorem State.modThread_mem (s : State) (t : Tid) (f : Thread → Thread) : (s.modThread t f).mem = s.mem := rfl
@[simp] theorem State.modThread_eng (s : State) (t : Tid) (f : Thread → Thread) : (s.modThread t f).eng = s.eng := rfl
@[simp] theorem State.modThread_rel (s : State) (t : Tid) (f : Thread → Thread) : (s.modThread t f).rel = s.rel := rfl
@[simp] theorem State.modThread_vnp (s : State) (t : Tid) (f : Thread → Thread) : (s.modThread t f).vnp = s.vnp := rfl
@[simp] theorem State.modThread_cp (s : State) (t : Tid) (f : Thread → Thread) : (s.modThread t f).cp = s.cp := rfl
@[simp] theorem State.modThread_module (s : State) (t : Tid) (f : Thread → Thread) : (s.modThread t f).module = s.module := rfl
@[simp] theorem State.modThread_bindings (s : State) (t : Tid) (f : Thread → Thread) : (s.modThread t f).bindings = s.bindings := rfl
@[simp] theorem State.modThread_ptc (s : State) (t : Tid) (f : Thread → Thread) : (s.modThread t f).ptc = s.ptc := rfl

/-! ### modCohort -/

@[simp] theorem State.modCohort_threads (s : State) (c : CohId) (f : Cohort → Cohort) : (s.modCohort c f).threads = s.threads := rfl
@[simp] theorem State.modCohort_cohorts (s : State) (c : CohId) (f : Cohort → Cohort) : (s.modCohort c f).cohorts = tmod s.cohorts c f := rfl
@[simp] theorem State.modCohort_teams (s : State) (c : CohId) (f : Cohort → Cohort) : (s.modCohort c f).teams = s.teams := rfl
@[simp] theorem State.modCohort_barriers (s : State) (c : CohId) (f : Cohort → Cohort) : (s.modCohort c f).barriers = s.barriers := rfl
@[simp] theorem State.modCohort_parts (s : State) (c : CohId) (f : Cohort → Cohort) : (s.modCohort c f).parts = s.parts := rfl
@[simp] theorem State.modCohort_launches (s : State) (c : CohId) (f : Cohort → Cohort) : (s.modCohort c f).launches = s.launches := rfl
@[simp] theorem State.modCohort_traps (s : State) (c : CohId) (f : Cohort → Cohort) : (s.modCohort c f).traps = s.traps := rfl
@[simp] theorem State.modCohort_issue (s : State) (c : CohId) (f : Cohort → Cohort) : (s.modCohort c f).issue = s.issue := rfl
@[simp] theorem State.modCohort_late (s : State) (c : CohId) (f : Cohort → Cohort) : (s.modCohort c f).late = s.late := rfl
@[simp] theorem State.modCohort_sched (s : State) (c : CohId) (f : Cohort → Cohort) : (s.modCohort c f).sched = s.sched := rfl
@[simp] theorem State.modCohort_cycle (s : State) (c : CohId) (f : Cohort → Cohort) : (s.modCohort c f).cycle = s.cycle := rfl
@[simp] theorem State.modCohort_nextId (s : State) (c : CohId) (f : Cohort → Cohort) : (s.modCohort c f).nextId = s.nextId := rfl
@[simp] theorem State.modCohort_free (s : State) (c : CohId) (f : Cohort → Cohort) : (s.modCohort c f).free = s.free := rfl
@[simp] theorem State.modCohort_moduleNo (s : State) (c : CohId) (f : Cohort → Cohort) : (s.modCohort c f).moduleNo = s.moduleNo := rfl
@[simp] theorem State.modCohort_mem (s : State) (c : CohId) (f : Cohort → Cohort) : (s.modCohort c f).mem = s.mem := rfl
@[simp] theorem State.modCohort_eng (s : State) (c : CohId) (f : Cohort → Cohort) : (s.modCohort c f).eng = s.eng := rfl
@[simp] theorem State.modCohort_rel (s : State) (c : CohId) (f : Cohort → Cohort) : (s.modCohort c f).rel = s.rel := rfl
@[simp] theorem State.modCohort_vnp (s : State) (c : CohId) (f : Cohort → Cohort) : (s.modCohort c f).vnp = s.vnp := rfl
@[simp] theorem State.modCohort_cp (s : State) (c : CohId) (f : Cohort → Cohort) : (s.modCohort c f).cp = s.cp := rfl
@[simp] theorem State.modCohort_module (s : State) (c : CohId) (f : Cohort → Cohort) : (s.modCohort c f).module = s.module := rfl
@[simp] theorem State.modCohort_bindings (s : State) (c : CohId) (f : Cohort → Cohort) : (s.modCohort c f).bindings = s.bindings := rfl
@[simp] theorem State.modCohort_ptc (s : State) (c : CohId) (f : Cohort → Cohort) : (s.modCohort c f).ptc = s.ptc := rfl

/-! ### modTeam -/

@[simp] theorem State.modTeam_threads (s : State) (t : TeamId) (f : Team → Team) : (s.modTeam t f).threads = s.threads := rfl
@[simp] theorem State.modTeam_cohorts (s : State) (t : TeamId) (f : Team → Team) : (s.modTeam t f).cohorts = s.cohorts := rfl
@[simp] theorem State.modTeam_teams (s : State) (t : TeamId) (f : Team → Team) : (s.modTeam t f).teams = tmod s.teams t f := rfl
@[simp] theorem State.modTeam_barriers (s : State) (t : TeamId) (f : Team → Team) : (s.modTeam t f).barriers = s.barriers := rfl
@[simp] theorem State.modTeam_parts (s : State) (t : TeamId) (f : Team → Team) : (s.modTeam t f).parts = s.parts := rfl
@[simp] theorem State.modTeam_launches (s : State) (t : TeamId) (f : Team → Team) : (s.modTeam t f).launches = s.launches := rfl
@[simp] theorem State.modTeam_traps (s : State) (t : TeamId) (f : Team → Team) : (s.modTeam t f).traps = s.traps := rfl
@[simp] theorem State.modTeam_issue (s : State) (t : TeamId) (f : Team → Team) : (s.modTeam t f).issue = s.issue := rfl
@[simp] theorem State.modTeam_late (s : State) (t : TeamId) (f : Team → Team) : (s.modTeam t f).late = s.late := rfl
@[simp] theorem State.modTeam_sched (s : State) (t : TeamId) (f : Team → Team) : (s.modTeam t f).sched = s.sched := rfl
@[simp] theorem State.modTeam_cycle (s : State) (t : TeamId) (f : Team → Team) : (s.modTeam t f).cycle = s.cycle := rfl
@[simp] theorem State.modTeam_nextId (s : State) (t : TeamId) (f : Team → Team) : (s.modTeam t f).nextId = s.nextId := rfl
@[simp] theorem State.modTeam_free (s : State) (t : TeamId) (f : Team → Team) : (s.modTeam t f).free = s.free := rfl
@[simp] theorem State.modTeam_moduleNo (s : State) (t : TeamId) (f : Team → Team) : (s.modTeam t f).moduleNo = s.moduleNo := rfl
@[simp] theorem State.modTeam_mem (s : State) (t : TeamId) (f : Team → Team) : (s.modTeam t f).mem = s.mem := rfl
@[simp] theorem State.modTeam_eng (s : State) (t : TeamId) (f : Team → Team) : (s.modTeam t f).eng = s.eng := rfl
@[simp] theorem State.modTeam_rel (s : State) (t : TeamId) (f : Team → Team) : (s.modTeam t f).rel = s.rel := rfl
@[simp] theorem State.modTeam_vnp (s : State) (t : TeamId) (f : Team → Team) : (s.modTeam t f).vnp = s.vnp := rfl
@[simp] theorem State.modTeam_cp (s : State) (t : TeamId) (f : Team → Team) : (s.modTeam t f).cp = s.cp := rfl
@[simp] theorem State.modTeam_module (s : State) (t : TeamId) (f : Team → Team) : (s.modTeam t f).module = s.module := rfl
@[simp] theorem State.modTeam_bindings (s : State) (t : TeamId) (f : Team → Team) : (s.modTeam t f).bindings = s.bindings := rfl
@[simp] theorem State.modTeam_ptc (s : State) (t : TeamId) (f : Team → Team) : (s.modTeam t f).ptc = s.ptc := rfl

/-! ### modLaunch -/

@[simp] theorem State.modLaunch_threads (s : State) (n : Nat) (f : Launch → Launch) : (s.modLaunch n f).threads = s.threads := rfl
@[simp] theorem State.modLaunch_cohorts (s : State) (n : Nat) (f : Launch → Launch) : (s.modLaunch n f).cohorts = s.cohorts := rfl
@[simp] theorem State.modLaunch_teams (s : State) (n : Nat) (f : Launch → Launch) : (s.modLaunch n f).teams = s.teams := rfl
@[simp] theorem State.modLaunch_barriers (s : State) (n : Nat) (f : Launch → Launch) : (s.modLaunch n f).barriers = s.barriers := rfl
@[simp] theorem State.modLaunch_parts (s : State) (n : Nat) (f : Launch → Launch) : (s.modLaunch n f).parts = s.parts := rfl
@[simp] theorem State.modLaunch_traps (s : State) (n : Nat) (f : Launch → Launch) : (s.modLaunch n f).traps = s.traps := rfl
@[simp] theorem State.modLaunch_issue (s : State) (n : Nat) (f : Launch → Launch) : (s.modLaunch n f).issue = s.issue := rfl
@[simp] theorem State.modLaunch_late (s : State) (n : Nat) (f : Launch → Launch) : (s.modLaunch n f).late = s.late := rfl
@[simp] theorem State.modLaunch_sched (s : State) (n : Nat) (f : Launch → Launch) : (s.modLaunch n f).sched = s.sched := rfl
@[simp] theorem State.modLaunch_cycle (s : State) (n : Nat) (f : Launch → Launch) : (s.modLaunch n f).cycle = s.cycle := rfl
@[simp] theorem State.modLaunch_nextId (s : State) (n : Nat) (f : Launch → Launch) : (s.modLaunch n f).nextId = s.nextId := rfl
@[simp] theorem State.modLaunch_free (s : State) (n : Nat) (f : Launch → Launch) : (s.modLaunch n f).free = s.free := rfl
@[simp] theorem State.modLaunch_moduleNo (s : State) (n : Nat) (f : Launch → Launch) : (s.modLaunch n f).moduleNo = s.moduleNo := rfl
@[simp] theorem State.modLaunch_mem (s : State) (n : Nat) (f : Launch → Launch) : (s.modLaunch n f).mem = s.mem := rfl
@[simp] theorem State.modLaunch_eng (s : State) (n : Nat) (f : Launch → Launch) : (s.modLaunch n f).eng = s.eng := rfl
@[simp] theorem State.modLaunch_rel (s : State) (n : Nat) (f : Launch → Launch) : (s.modLaunch n f).rel = s.rel := rfl
@[simp] theorem State.modLaunch_vnp (s : State) (n : Nat) (f : Launch → Launch) : (s.modLaunch n f).vnp = s.vnp := rfl
@[simp] theorem State.modLaunch_cp (s : State) (n : Nat) (f : Launch → Launch) : (s.modLaunch n f).cp = s.cp := rfl
@[simp] theorem State.modLaunch_module (s : State) (n : Nat) (f : Launch → Launch) : (s.modLaunch n f).module = s.module := rfl
@[simp] theorem State.modLaunch_bindings (s : State) (n : Nat) (f : Launch → Launch) : (s.modLaunch n f).bindings = s.bindings := rfl
@[simp] theorem State.modLaunch_ptc (s : State) (n : Nat) (f : Launch → Launch) : (s.modLaunch n f).ptc = s.ptc := rfl

/-! ### modConv -/

@[simp] theorem State.modConv_threads (s : State) (c : CohId) (f : List ConvEntry → List ConvEntry) : (s.modConv c f).threads = s.threads := rfl
@[simp] theorem State.modConv_teams (s : State) (c : CohId) (f : List ConvEntry → List ConvEntry) : (s.modConv c f).teams = s.teams := rfl
@[simp] theorem State.modConv_barriers (s : State) (c : CohId) (f : List ConvEntry → List ConvEntry) : (s.modConv c f).barriers = s.barriers := rfl
@[simp] theorem State.modConv_parts (s : State) (c : CohId) (f : List ConvEntry → List ConvEntry) : (s.modConv c f).parts = s.parts := rfl
@[simp] theorem State.modConv_launches (s : State) (c : CohId) (f : List ConvEntry → List ConvEntry) : (s.modConv c f).launches = s.launches := rfl
@[simp] theorem State.modConv_traps (s : State) (c : CohId) (f : List ConvEntry → List ConvEntry) : (s.modConv c f).traps = s.traps := rfl
@[simp] theorem State.modConv_issue (s : State) (c : CohId) (f : List ConvEntry → List ConvEntry) : (s.modConv c f).issue = s.issue := rfl
@[simp] theorem State.modConv_late (s : State) (c : CohId) (f : List ConvEntry → List ConvEntry) : (s.modConv c f).late = s.late := rfl
@[simp] theorem State.modConv_sched (s : State) (c : CohId) (f : List ConvEntry → List ConvEntry) : (s.modConv c f).sched = s.sched := rfl
@[simp] theorem State.modConv_cycle (s : State) (c : CohId) (f : List ConvEntry → List ConvEntry) : (s.modConv c f).cycle = s.cycle := rfl
@[simp] theorem State.modConv_nextId (s : State) (c : CohId) (f : List ConvEntry → List ConvEntry) : (s.modConv c f).nextId = s.nextId := rfl
@[simp] theorem State.modConv_free (s : State) (c : CohId) (f : List ConvEntry → List ConvEntry) : (s.modConv c f).free = s.free := rfl
@[simp] theorem State.modConv_moduleNo (s : State) (c : CohId) (f : List ConvEntry → List ConvEntry) : (s.modConv c f).moduleNo = s.moduleNo := rfl
@[simp] theorem State.modConv_mem (s : State) (c : CohId) (f : List ConvEntry → List ConvEntry) : (s.modConv c f).mem = s.mem := rfl
@[simp] theorem State.modConv_eng (s : State) (c : CohId) (f : List ConvEntry → List ConvEntry) : (s.modConv c f).eng = s.eng := rfl
@[simp] theorem State.modConv_rel (s : State) (c : CohId) (f : List ConvEntry → List ConvEntry) : (s.modConv c f).rel = s.rel := rfl
@[simp] theorem State.modConv_vnp (s : State) (c : CohId) (f : List ConvEntry → List ConvEntry) : (s.modConv c f).vnp = s.vnp := rfl
@[simp] theorem State.modConv_cp (s : State) (c : CohId) (f : List ConvEntry → List ConvEntry) : (s.modConv c f).cp = s.cp := rfl
@[simp] theorem State.modConv_module (s : State) (c : CohId) (f : List ConvEntry → List ConvEntry) : (s.modConv c f).module = s.module := rfl
@[simp] theorem State.modConv_bindings (s : State) (c : CohId) (f : List ConvEntry → List ConvEntry) : (s.modConv c f).bindings = s.bindings := rfl
@[simp] theorem State.modConv_ptc (s : State) (c : CohId) (f : List ConvEntry → List ConvEntry) : (s.modConv c f).ptc = s.ptc := rfl

/-! ### setPart -/

@[simp] theorem State.setPart_threads (s : State) (p : PartId) (q : Part) : (s.setPart p q).threads = s.threads := rfl
@[simp] theorem State.setPart_cohorts (s : State) (p : PartId) (q : Part) : (s.setPart p q).cohorts = s.cohorts := rfl
@[simp] theorem State.setPart_teams (s : State) (p : PartId) (q : Part) : (s.setPart p q).teams = s.teams := rfl
@[simp] theorem State.setPart_barriers (s : State) (p : PartId) (q : Part) : (s.setPart p q).barriers = s.barriers := rfl
@[simp] theorem State.setPart_parts (s : State) (p : PartId) (q : Part) : (s.setPart p q).parts = tput s.parts p q := rfl
@[simp] theorem State.setPart_launches (s : State) (p : PartId) (q : Part) : (s.setPart p q).launches = s.launches := rfl
@[simp] theorem State.setPart_traps (s : State) (p : PartId) (q : Part) : (s.setPart p q).traps = s.traps := rfl
@[simp] theorem State.setPart_issue (s : State) (p : PartId) (q : Part) : (s.setPart p q).issue = s.issue := rfl
@[simp] theorem State.setPart_late (s : State) (p : PartId) (q : Part) : (s.setPart p q).late = s.late := rfl
@[simp] theorem State.setPart_sched (s : State) (p : PartId) (q : Part) : (s.setPart p q).sched = s.sched := rfl
@[simp] theorem State.setPart_cycle (s : State) (p : PartId) (q : Part) : (s.setPart p q).cycle = s.cycle := rfl
@[simp] theorem State.setPart_nextId (s : State) (p : PartId) (q : Part) : (s.setPart p q).nextId = s.nextId := rfl
@[simp] theorem State.setPart_free (s : State) (p : PartId) (q : Part) : (s.setPart p q).free = s.free := rfl
@[simp] theorem State.setPart_moduleNo (s : State) (p : PartId) (q : Part) : (s.setPart p q).moduleNo = s.moduleNo := rfl
@[simp] theorem State.setPart_mem (s : State) (p : PartId) (q : Part) : (s.setPart p q).mem = s.mem := rfl
@[simp] theorem State.setPart_eng (s : State) (p : PartId) (q : Part) : (s.setPart p q).eng = s.eng := rfl
@[simp] theorem State.setPart_rel (s : State) (p : PartId) (q : Part) : (s.setPart p q).rel = s.rel := rfl
@[simp] theorem State.setPart_vnp (s : State) (p : PartId) (q : Part) : (s.setPart p q).vnp = s.vnp := rfl
@[simp] theorem State.setPart_cp (s : State) (p : PartId) (q : Part) : (s.setPart p q).cp = s.cp := rfl
@[simp] theorem State.setPart_module (s : State) (p : PartId) (q : Part) : (s.setPart p q).module = s.module := rfl
@[simp] theorem State.setPart_bindings (s : State) (p : PartId) (q : Part) : (s.setPart p q).bindings = s.bindings := rfl
@[simp] theorem State.setPart_ptc (s : State) (p : PartId) (q : Part) : (s.setPart p q).ptc = s.ptc := rfl

/-! ### complete -/

@[simp] theorem State.complete_threads (s : State) (n st : Nat) : (s.complete n st).threads = s.threads := rfl
@[simp] theorem State.complete_cohorts (s : State) (n st : Nat) : (s.complete n st).cohorts = s.cohorts := rfl
@[simp] theorem State.complete_teams (s : State) (n st : Nat) : (s.complete n st).teams = s.teams := rfl
@[simp] theorem State.complete_barriers (s : State) (n st : Nat) : (s.complete n st).barriers = s.barriers := rfl
@[simp] theorem State.complete_parts (s : State) (n st : Nat) : (s.complete n st).parts = s.parts := rfl
@[simp] theorem State.complete_launches (s : State) (n st : Nat) : (s.complete n st).launches = s.launches := rfl
@[simp] theorem State.complete_traps (s : State) (n st : Nat) : (s.complete n st).traps = s.traps := rfl
@[simp] theorem State.complete_issue (s : State) (n st : Nat) : (s.complete n st).issue = s.issue := rfl
@[simp] theorem State.complete_late (s : State) (n st : Nat) : (s.complete n st).late = s.late := rfl
@[simp] theorem State.complete_sched (s : State) (n st : Nat) : (s.complete n st).sched = s.sched := rfl
@[simp] theorem State.complete_cycle (s : State) (n st : Nat) : (s.complete n st).cycle = s.cycle := rfl
@[simp] theorem State.complete_nextId (s : State) (n st : Nat) : (s.complete n st).nextId = s.nextId := rfl
@[simp] theorem State.complete_free (s : State) (n st : Nat) : (s.complete n st).free = s.free := rfl
@[simp] theorem State.complete_moduleNo (s : State) (n st : Nat) : (s.complete n st).moduleNo = s.moduleNo := rfl
@[simp] theorem State.complete_mem (s : State) (n st : Nat) : (s.complete n st).mem = s.mem := rfl
@[simp] theorem State.complete_eng (s : State) (n st : Nat) : (s.complete n st).eng = s.eng := rfl
@[simp] theorem State.complete_rel (s : State) (n st : Nat) : (s.complete n st).rel = s.rel := rfl
@[simp] theorem State.complete_vnp (s : State) (n st : Nat) : (s.complete n st).vnp = s.vnp := rfl
@[simp] theorem State.complete_module (s : State) (n st : Nat) : (s.complete n st).module = s.module := rfl
@[simp] theorem State.complete_bindings (s : State) (n st : Nat) : (s.complete n st).bindings = s.bindings := rfl
@[simp] theorem State.complete_ptc (s : State) (n st : Nat) : (s.complete n st).ptc = s.ptc := rfl

/-! ### modVnp -/

@[simp] theorem State.modVnp_threads (s : State) (f : Vnp → Vnp) : (s.modVnp f).threads = s.threads := rfl
@[simp] theorem State.modVnp_cohorts (s : State) (f : Vnp → Vnp) : (s.modVnp f).cohorts = s.cohorts := rfl
@[simp] theorem State.modVnp_teams (s : State) (f : Vnp → Vnp) : (s.modVnp f).teams = s.teams := rfl
@[simp] theorem State.modVnp_barriers (s : State) (f : Vnp → Vnp) : (s.modVnp f).barriers = s.barriers := rfl
@[simp] theorem State.modVnp_parts (s : State) (f : Vnp → Vnp) : (s.modVnp f).parts = s.parts := rfl
@[simp] theorem State.modVnp_launches (s : State) (f : Vnp → Vnp) : (s.modVnp f).launches = s.launches := rfl
@[simp] theorem State.modVnp_traps (s : State) (f : Vnp → Vnp) : (s.modVnp f).traps = s.traps := rfl
@[simp] theorem State.modVnp_issue (s : State) (f : Vnp → Vnp) : (s.modVnp f).issue = s.issue := rfl
@[simp] theorem State.modVnp_late (s : State) (f : Vnp → Vnp) : (s.modVnp f).late = s.late := rfl
@[simp] theorem State.modVnp_sched (s : State) (f : Vnp → Vnp) : (s.modVnp f).sched = s.sched := rfl
@[simp] theorem State.modVnp_cycle (s : State) (f : Vnp → Vnp) : (s.modVnp f).cycle = s.cycle := rfl
@[simp] theorem State.modVnp_nextId (s : State) (f : Vnp → Vnp) : (s.modVnp f).nextId = s.nextId := rfl
@[simp] theorem State.modVnp_free (s : State) (f : Vnp → Vnp) : (s.modVnp f).free = s.free := rfl
@[simp] theorem State.modVnp_moduleNo (s : State) (f : Vnp → Vnp) : (s.modVnp f).moduleNo = s.moduleNo := rfl
@[simp] theorem State.modVnp_mem (s : State) (f : Vnp → Vnp) : (s.modVnp f).mem = s.mem := rfl
@[simp] theorem State.modVnp_eng (s : State) (f : Vnp → Vnp) : (s.modVnp f).eng = s.eng := rfl
@[simp] theorem State.modVnp_rel (s : State) (f : Vnp → Vnp) : (s.modVnp f).rel = s.rel := rfl
@[simp] theorem State.modVnp_vnp (s : State) (f : Vnp → Vnp) : (s.modVnp f).vnp = f s.vnp := rfl
@[simp] theorem State.modVnp_cp (s : State) (f : Vnp → Vnp) : (s.modVnp f).cp = s.cp := rfl
@[simp] theorem State.modVnp_module (s : State) (f : Vnp → Vnp) : (s.modVnp f).module = s.module := rfl
@[simp] theorem State.modVnp_bindings (s : State) (f : Vnp → Vnp) : (s.modVnp f).bindings = s.bindings := rfl
@[simp] theorem State.modVnp_ptc (s : State) (f : Vnp → Vnp) : (s.modVnp f).ptc = s.ptc := rfl

/-! ### modCmd -/

@[simp] theorem State.modCmd_threads (s : State) (n : Nat) (f : Command → Command) : (s.modCmd n f).threads = s.threads := rfl
@[simp] theorem State.modCmd_cohorts (s : State) (n : Nat) (f : Command → Command) : (s.modCmd n f).cohorts = s.cohorts := rfl
@[simp] theorem State.modCmd_teams (s : State) (n : Nat) (f : Command → Command) : (s.modCmd n f).teams = s.teams := rfl
@[simp] theorem State.modCmd_barriers (s : State) (n : Nat) (f : Command → Command) : (s.modCmd n f).barriers = s.barriers := rfl
@[simp] theorem State.modCmd_parts (s : State) (n : Nat) (f : Command → Command) : (s.modCmd n f).parts = s.parts := rfl
@[simp] theorem State.modCmd_launches (s : State) (n : Nat) (f : Command → Command) : (s.modCmd n f).launches = s.launches := rfl
@[simp] theorem State.modCmd_traps (s : State) (n : Nat) (f : Command → Command) : (s.modCmd n f).traps = s.traps := rfl
@[simp] theorem State.modCmd_issue (s : State) (n : Nat) (f : Command → Command) : (s.modCmd n f).issue = s.issue := rfl
@[simp] theorem State.modCmd_late (s : State) (n : Nat) (f : Command → Command) : (s.modCmd n f).late = s.late := rfl
@[simp] theorem State.modCmd_sched (s : State) (n : Nat) (f : Command → Command) : (s.modCmd n f).sched = s.sched := rfl
@[simp] theorem State.modCmd_cycle (s : State) (n : Nat) (f : Command → Command) : (s.modCmd n f).cycle = s.cycle := rfl
@[simp] theorem State.modCmd_nextId (s : State) (n : Nat) (f : Command → Command) : (s.modCmd n f).nextId = s.nextId := rfl
@[simp] theorem State.modCmd_free (s : State) (n : Nat) (f : Command → Command) : (s.modCmd n f).free = s.free := rfl
@[simp] theorem State.modCmd_moduleNo (s : State) (n : Nat) (f : Command → Command) : (s.modCmd n f).moduleNo = s.moduleNo := rfl
@[simp] theorem State.modCmd_mem (s : State) (n : Nat) (f : Command → Command) : (s.modCmd n f).mem = s.mem := rfl
@[simp] theorem State.modCmd_rel (s : State) (n : Nat) (f : Command → Command) : (s.modCmd n f).rel = s.rel := rfl
@[simp] theorem State.modCmd_vnp (s : State) (n : Nat) (f : Command → Command) : (s.modCmd n f).vnp = s.vnp := rfl
@[simp] theorem State.modCmd_cp (s : State) (n : Nat) (f : Command → Command) : (s.modCmd n f).cp = s.cp := rfl
@[simp] theorem State.modCmd_module (s : State) (n : Nat) (f : Command → Command) : (s.modCmd n f).module = s.module := rfl
@[simp] theorem State.modCmd_bindings (s : State) (n : Nat) (f : Command → Command) : (s.modCmd n f).bindings = s.bindings := rfl
@[simp] theorem State.modCmd_ptc (s : State) (n : Nat) (f : Command → Command) : (s.modCmd n f).ptc = s.ptc := rfl

/-! ### setBank -/

@[simp] theorem State.setBank_threads (s : State) (b : BankId) (e : BankEng) : (s.setBank b e).threads = s.threads := rfl
@[simp] theorem State.setBank_cohorts (s : State) (b : BankId) (e : BankEng) : (s.setBank b e).cohorts = s.cohorts := rfl
@[simp] theorem State.setBank_teams (s : State) (b : BankId) (e : BankEng) : (s.setBank b e).teams = s.teams := rfl
@[simp] theorem State.setBank_barriers (s : State) (b : BankId) (e : BankEng) : (s.setBank b e).barriers = s.barriers := rfl
@[simp] theorem State.setBank_parts (s : State) (b : BankId) (e : BankEng) : (s.setBank b e).parts = s.parts := rfl
@[simp] theorem State.setBank_launches (s : State) (b : BankId) (e : BankEng) : (s.setBank b e).launches = s.launches := rfl
@[simp] theorem State.setBank_traps (s : State) (b : BankId) (e : BankEng) : (s.setBank b e).traps = s.traps := rfl
@[simp] theorem State.setBank_issue (s : State) (b : BankId) (e : BankEng) : (s.setBank b e).issue = s.issue := rfl
@[simp] theorem State.setBank_late (s : State) (b : BankId) (e : BankEng) : (s.setBank b e).late = s.late := rfl
@[simp] theorem State.setBank_sched (s : State) (b : BankId) (e : BankEng) : (s.setBank b e).sched = s.sched := rfl
@[simp] theorem State.setBank_cycle (s : State) (b : BankId) (e : BankEng) : (s.setBank b e).cycle = s.cycle := rfl
@[simp] theorem State.setBank_nextId (s : State) (b : BankId) (e : BankEng) : (s.setBank b e).nextId = s.nextId := rfl
@[simp] theorem State.setBank_free (s : State) (b : BankId) (e : BankEng) : (s.setBank b e).free = s.free := rfl
@[simp] theorem State.setBank_moduleNo (s : State) (b : BankId) (e : BankEng) : (s.setBank b e).moduleNo = s.moduleNo := rfl
@[simp] theorem State.setBank_mem (s : State) (b : BankId) (e : BankEng) : (s.setBank b e).mem = s.mem := rfl
@[simp] theorem State.setBank_rel (s : State) (b : BankId) (e : BankEng) : (s.setBank b e).rel = s.rel := rfl
@[simp] theorem State.setBank_vnp (s : State) (b : BankId) (e : BankEng) : (s.setBank b e).vnp = s.vnp := rfl
@[simp] theorem State.setBank_cp (s : State) (b : BankId) (e : BankEng) : (s.setBank b e).cp = s.cp := rfl
@[simp] theorem State.setBank_module (s : State) (b : BankId) (e : BankEng) : (s.setBank b e).module = s.module := rfl
@[simp] theorem State.setBank_bindings (s : State) (b : BankId) (e : BankEng) : (s.setBank b e).bindings = s.bindings := rfl
@[simp] theorem State.setBank_ptc (s : State) (b : BankId) (e : BankEng) : (s.setBank b e).ptc = s.ptc := rfl

/-! ### setWalk -/

@[simp] theorem State.setWalk_threads (s : State) (n : Nat) (r : WalkRun) : (s.setWalk n r).threads = s.threads := rfl
@[simp] theorem State.setWalk_cohorts (s : State) (n : Nat) (r : WalkRun) : (s.setWalk n r).cohorts = s.cohorts := rfl
@[simp] theorem State.setWalk_teams (s : State) (n : Nat) (r : WalkRun) : (s.setWalk n r).teams = s.teams := rfl
@[simp] theorem State.setWalk_barriers (s : State) (n : Nat) (r : WalkRun) : (s.setWalk n r).barriers = s.barriers := rfl
@[simp] theorem State.setWalk_parts (s : State) (n : Nat) (r : WalkRun) : (s.setWalk n r).parts = s.parts := rfl
@[simp] theorem State.setWalk_launches (s : State) (n : Nat) (r : WalkRun) : (s.setWalk n r).launches = s.launches := rfl
@[simp] theorem State.setWalk_traps (s : State) (n : Nat) (r : WalkRun) : (s.setWalk n r).traps = s.traps := rfl
@[simp] theorem State.setWalk_issue (s : State) (n : Nat) (r : WalkRun) : (s.setWalk n r).issue = s.issue := rfl
@[simp] theorem State.setWalk_late (s : State) (n : Nat) (r : WalkRun) : (s.setWalk n r).late = s.late := rfl
@[simp] theorem State.setWalk_sched (s : State) (n : Nat) (r : WalkRun) : (s.setWalk n r).sched = s.sched := rfl
@[simp] theorem State.setWalk_cycle (s : State) (n : Nat) (r : WalkRun) : (s.setWalk n r).cycle = s.cycle := rfl
@[simp] theorem State.setWalk_nextId (s : State) (n : Nat) (r : WalkRun) : (s.setWalk n r).nextId = s.nextId := rfl
@[simp] theorem State.setWalk_free (s : State) (n : Nat) (r : WalkRun) : (s.setWalk n r).free = s.free := rfl
@[simp] theorem State.setWalk_moduleNo (s : State) (n : Nat) (r : WalkRun) : (s.setWalk n r).moduleNo = s.moduleNo := rfl
@[simp] theorem State.setWalk_mem (s : State) (n : Nat) (r : WalkRun) : (s.setWalk n r).mem = s.mem := rfl
@[simp] theorem State.setWalk_rel (s : State) (n : Nat) (r : WalkRun) : (s.setWalk n r).rel = s.rel := rfl
@[simp] theorem State.setWalk_vnp (s : State) (n : Nat) (r : WalkRun) : (s.setWalk n r).vnp = s.vnp := rfl
@[simp] theorem State.setWalk_cp (s : State) (n : Nat) (r : WalkRun) : (s.setWalk n r).cp = s.cp := rfl
@[simp] theorem State.setWalk_module (s : State) (n : Nat) (r : WalkRun) : (s.setWalk n r).module = s.module := rfl
@[simp] theorem State.setWalk_bindings (s : State) (n : Nat) (r : WalkRun) : (s.setWalk n r).bindings = s.bindings := rfl
@[simp] theorem State.setWalk_ptc (s : State) (n : Nat) (r : WalkRun) : (s.setWalk n r).ptc = s.ptc := rfl

/-! ### setColl -/

@[simp] theorem State.setColl_threads (s : State) (n : Nat) (r : CollRun) : (s.setColl n r).threads = s.threads := rfl
@[simp] theorem State.setColl_cohorts (s : State) (n : Nat) (r : CollRun) : (s.setColl n r).cohorts = s.cohorts := rfl
@[simp] theorem State.setColl_teams (s : State) (n : Nat) (r : CollRun) : (s.setColl n r).teams = s.teams := rfl
@[simp] theorem State.setColl_barriers (s : State) (n : Nat) (r : CollRun) : (s.setColl n r).barriers = s.barriers := rfl
@[simp] theorem State.setColl_parts (s : State) (n : Nat) (r : CollRun) : (s.setColl n r).parts = s.parts := rfl
@[simp] theorem State.setColl_launches (s : State) (n : Nat) (r : CollRun) : (s.setColl n r).launches = s.launches := rfl
@[simp] theorem State.setColl_traps (s : State) (n : Nat) (r : CollRun) : (s.setColl n r).traps = s.traps := rfl
@[simp] theorem State.setColl_issue (s : State) (n : Nat) (r : CollRun) : (s.setColl n r).issue = s.issue := rfl
@[simp] theorem State.setColl_late (s : State) (n : Nat) (r : CollRun) : (s.setColl n r).late = s.late := rfl
@[simp] theorem State.setColl_sched (s : State) (n : Nat) (r : CollRun) : (s.setColl n r).sched = s.sched := rfl
@[simp] theorem State.setColl_cycle (s : State) (n : Nat) (r : CollRun) : (s.setColl n r).cycle = s.cycle := rfl
@[simp] theorem State.setColl_nextId (s : State) (n : Nat) (r : CollRun) : (s.setColl n r).nextId = s.nextId := rfl
@[simp] theorem State.setColl_free (s : State) (n : Nat) (r : CollRun) : (s.setColl n r).free = s.free := rfl
@[simp] theorem State.setColl_moduleNo (s : State) (n : Nat) (r : CollRun) : (s.setColl n r).moduleNo = s.moduleNo := rfl
@[simp] theorem State.setColl_mem (s : State) (n : Nat) (r : CollRun) : (s.setColl n r).mem = s.mem := rfl
@[simp] theorem State.setColl_rel (s : State) (n : Nat) (r : CollRun) : (s.setColl n r).rel = s.rel := rfl
@[simp] theorem State.setColl_vnp (s : State) (n : Nat) (r : CollRun) : (s.setColl n r).vnp = s.vnp := rfl
@[simp] theorem State.setColl_cp (s : State) (n : Nat) (r : CollRun) : (s.setColl n r).cp = s.cp := rfl
@[simp] theorem State.setColl_module (s : State) (n : Nat) (r : CollRun) : (s.setColl n r).module = s.module := rfl
@[simp] theorem State.setColl_bindings (s : State) (n : Nat) (r : CollRun) : (s.setColl n r).bindings = s.bindings := rfl
@[simp] theorem State.setColl_ptc (s : State) (n : Nat) (r : CollRun) : (s.setColl n r).ptc = s.ptc := rfl

/-! ### setLink -/

@[simp] theorem State.setLink_threads (s : State) (l : LinkId) (x : Link) : (s.setLink l x).threads = s.threads := rfl
@[simp] theorem State.setLink_cohorts (s : State) (l : LinkId) (x : Link) : (s.setLink l x).cohorts = s.cohorts := rfl
@[simp] theorem State.setLink_teams (s : State) (l : LinkId) (x : Link) : (s.setLink l x).teams = s.teams := rfl
@[simp] theorem State.setLink_barriers (s : State) (l : LinkId) (x : Link) : (s.setLink l x).barriers = s.barriers := rfl
@[simp] theorem State.setLink_parts (s : State) (l : LinkId) (x : Link) : (s.setLink l x).parts = s.parts := rfl
@[simp] theorem State.setLink_launches (s : State) (l : LinkId) (x : Link) : (s.setLink l x).launches = s.launches := rfl
@[simp] theorem State.setLink_traps (s : State) (l : LinkId) (x : Link) : (s.setLink l x).traps = s.traps := rfl
@[simp] theorem State.setLink_issue (s : State) (l : LinkId) (x : Link) : (s.setLink l x).issue = s.issue := rfl
@[simp] theorem State.setLink_late (s : State) (l : LinkId) (x : Link) : (s.setLink l x).late = s.late := rfl
@[simp] theorem State.setLink_sched (s : State) (l : LinkId) (x : Link) : (s.setLink l x).sched = s.sched := rfl
@[simp] theorem State.setLink_cycle (s : State) (l : LinkId) (x : Link) : (s.setLink l x).cycle = s.cycle := rfl
@[simp] theorem State.setLink_nextId (s : State) (l : LinkId) (x : Link) : (s.setLink l x).nextId = s.nextId := rfl
@[simp] theorem State.setLink_free (s : State) (l : LinkId) (x : Link) : (s.setLink l x).free = s.free := rfl
@[simp] theorem State.setLink_moduleNo (s : State) (l : LinkId) (x : Link) : (s.setLink l x).moduleNo = s.moduleNo := rfl
@[simp] theorem State.setLink_mem (s : State) (l : LinkId) (x : Link) : (s.setLink l x).mem = s.mem := rfl
@[simp] theorem State.setLink_eng (s : State) (l : LinkId) (x : Link) : (s.setLink l x).eng = s.eng := rfl
@[simp] theorem State.setLink_rel (s : State) (l : LinkId) (x : Link) : (s.setLink l x).rel = s.rel := rfl
@[simp] theorem State.setLink_vnp (s : State) (l : LinkId) (x : Link) : (s.setLink l x).vnp = s.vnp := rfl
@[simp] theorem State.setLink_cp (s : State) (l : LinkId) (x : Link) : (s.setLink l x).cp = s.cp := rfl
@[simp] theorem State.setLink_bindings (s : State) (l : LinkId) (x : Link) : (s.setLink l x).bindings = s.bindings := rfl
@[simp] theorem State.setLink_ptc (s : State) (l : LinkId) (x : Link) : (s.setLink l x).ptc = s.ptc := rfl

/-! ### setClock -/

@[simp] theorem State.setClock_threads (s : State) (c : Clock) : (s.setClock c).threads = s.threads := rfl
@[simp] theorem State.setClock_cohorts (s : State) (c : Clock) : (s.setClock c).cohorts = s.cohorts := rfl
@[simp] theorem State.setClock_teams (s : State) (c : Clock) : (s.setClock c).teams = s.teams := rfl
@[simp] theorem State.setClock_barriers (s : State) (c : Clock) : (s.setClock c).barriers = s.barriers := rfl
@[simp] theorem State.setClock_parts (s : State) (c : Clock) : (s.setClock c).parts = s.parts := rfl
@[simp] theorem State.setClock_launches (s : State) (c : Clock) : (s.setClock c).launches = s.launches := rfl
@[simp] theorem State.setClock_traps (s : State) (c : Clock) : (s.setClock c).traps = s.traps := rfl
@[simp] theorem State.setClock_issue (s : State) (c : Clock) : (s.setClock c).issue = s.issue := rfl
@[simp] theorem State.setClock_late (s : State) (c : Clock) : (s.setClock c).late = s.late := rfl
@[simp] theorem State.setClock_sched (s : State) (c : Clock) : (s.setClock c).sched = s.sched := rfl
@[simp] theorem State.setClock_cycle (s : State) (c : Clock) : (s.setClock c).cycle = s.cycle := rfl
@[simp] theorem State.setClock_nextId (s : State) (c : Clock) : (s.setClock c).nextId = s.nextId := rfl
@[simp] theorem State.setClock_free (s : State) (c : Clock) : (s.setClock c).free = s.free := rfl
@[simp] theorem State.setClock_moduleNo (s : State) (c : Clock) : (s.setClock c).moduleNo = s.moduleNo := rfl
@[simp] theorem State.setClock_mem (s : State) (c : Clock) : (s.setClock c).mem = s.mem := rfl
@[simp] theorem State.setClock_eng (s : State) (c : Clock) : (s.setClock c).eng = s.eng := rfl
@[simp] theorem State.setClock_rel (s : State) (c : Clock) : (s.setClock c).rel = s.rel := rfl
@[simp] theorem State.setClock_vnp (s : State) (c : Clock) : (s.setClock c).vnp = s.vnp := rfl
@[simp] theorem State.setClock_cp (s : State) (c : Clock) : (s.setClock c).cp = s.cp := rfl
@[simp] theorem State.setClock_bindings (s : State) (c : Clock) : (s.setClock c).bindings = s.bindings := rfl
@[simp] theorem State.setClock_ptc (s : State) (c : Clock) : (s.setClock c).ptc = s.ptc := rfl

/-! ### setPower -/

@[simp] theorem State.setPower_threads (s : State) (sc : PwrScope) (p : Power) : (s.setPower sc p).threads = s.threads := rfl
@[simp] theorem State.setPower_cohorts (s : State) (sc : PwrScope) (p : Power) : (s.setPower sc p).cohorts = s.cohorts := rfl
@[simp] theorem State.setPower_teams (s : State) (sc : PwrScope) (p : Power) : (s.setPower sc p).teams = s.teams := rfl
@[simp] theorem State.setPower_barriers (s : State) (sc : PwrScope) (p : Power) : (s.setPower sc p).barriers = s.barriers := rfl
@[simp] theorem State.setPower_parts (s : State) (sc : PwrScope) (p : Power) : (s.setPower sc p).parts = s.parts := rfl
@[simp] theorem State.setPower_launches (s : State) (sc : PwrScope) (p : Power) : (s.setPower sc p).launches = s.launches := rfl
@[simp] theorem State.setPower_traps (s : State) (sc : PwrScope) (p : Power) : (s.setPower sc p).traps = s.traps := rfl
@[simp] theorem State.setPower_issue (s : State) (sc : PwrScope) (p : Power) : (s.setPower sc p).issue = s.issue := rfl
@[simp] theorem State.setPower_late (s : State) (sc : PwrScope) (p : Power) : (s.setPower sc p).late = s.late := rfl
@[simp] theorem State.setPower_sched (s : State) (sc : PwrScope) (p : Power) : (s.setPower sc p).sched = s.sched := rfl
@[simp] theorem State.setPower_cycle (s : State) (sc : PwrScope) (p : Power) : (s.setPower sc p).cycle = s.cycle := rfl
@[simp] theorem State.setPower_nextId (s : State) (sc : PwrScope) (p : Power) : (s.setPower sc p).nextId = s.nextId := rfl
@[simp] theorem State.setPower_free (s : State) (sc : PwrScope) (p : Power) : (s.setPower sc p).free = s.free := rfl
@[simp] theorem State.setPower_moduleNo (s : State) (sc : PwrScope) (p : Power) : (s.setPower sc p).moduleNo = s.moduleNo := rfl
@[simp] theorem State.setPower_mem (s : State) (sc : PwrScope) (p : Power) : (s.setPower sc p).mem = s.mem := rfl
@[simp] theorem State.setPower_eng (s : State) (sc : PwrScope) (p : Power) : (s.setPower sc p).eng = s.eng := rfl
@[simp] theorem State.setPower_rel (s : State) (sc : PwrScope) (p : Power) : (s.setPower sc p).rel = s.rel := rfl
@[simp] theorem State.setPower_vnp (s : State) (sc : PwrScope) (p : Power) : (s.setPower sc p).vnp = s.vnp := rfl
@[simp] theorem State.setPower_cp (s : State) (sc : PwrScope) (p : Power) : (s.setPower sc p).cp = s.cp := rfl
@[simp] theorem State.setPower_bindings (s : State) (sc : PwrScope) (p : Power) : (s.setPower sc p).bindings = s.bindings := rfl
@[simp] theorem State.setPower_ptc (s : State) (sc : PwrScope) (p : Power) : (s.setPower sc p).ptc = s.ptc := rfl

/-! ### dramPut -/

@[simp] theorem State.dramPut_threads (s : State) (a : Nat) (bs : List Byte) : (s.dramPut a bs).threads = s.threads := rfl
@[simp] theorem State.dramPut_cohorts (s : State) (a : Nat) (bs : List Byte) : (s.dramPut a bs).cohorts = s.cohorts := rfl
@[simp] theorem State.dramPut_teams (s : State) (a : Nat) (bs : List Byte) : (s.dramPut a bs).teams = s.teams := rfl
@[simp] theorem State.dramPut_barriers (s : State) (a : Nat) (bs : List Byte) : (s.dramPut a bs).barriers = s.barriers := rfl
@[simp] theorem State.dramPut_parts (s : State) (a : Nat) (bs : List Byte) : (s.dramPut a bs).parts = s.parts := rfl
@[simp] theorem State.dramPut_launches (s : State) (a : Nat) (bs : List Byte) : (s.dramPut a bs).launches = s.launches := rfl
@[simp] theorem State.dramPut_traps (s : State) (a : Nat) (bs : List Byte) : (s.dramPut a bs).traps = s.traps := rfl
@[simp] theorem State.dramPut_issue (s : State) (a : Nat) (bs : List Byte) : (s.dramPut a bs).issue = s.issue := rfl
@[simp] theorem State.dramPut_late (s : State) (a : Nat) (bs : List Byte) : (s.dramPut a bs).late = s.late := rfl
@[simp] theorem State.dramPut_sched (s : State) (a : Nat) (bs : List Byte) : (s.dramPut a bs).sched = s.sched := rfl
@[simp] theorem State.dramPut_cycle (s : State) (a : Nat) (bs : List Byte) : (s.dramPut a bs).cycle = s.cycle := rfl
@[simp] theorem State.dramPut_nextId (s : State) (a : Nat) (bs : List Byte) : (s.dramPut a bs).nextId = s.nextId := rfl
@[simp] theorem State.dramPut_free (s : State) (a : Nat) (bs : List Byte) : (s.dramPut a bs).free = s.free := rfl
@[simp] theorem State.dramPut_moduleNo (s : State) (a : Nat) (bs : List Byte) : (s.dramPut a bs).moduleNo = s.moduleNo := rfl
@[simp] theorem State.dramPut_eng (s : State) (a : Nat) (bs : List Byte) : (s.dramPut a bs).eng = s.eng := rfl
@[simp] theorem State.dramPut_rel (s : State) (a : Nat) (bs : List Byte) : (s.dramPut a bs).rel = s.rel := rfl
@[simp] theorem State.dramPut_vnp (s : State) (a : Nat) (bs : List Byte) : (s.dramPut a bs).vnp = s.vnp := rfl
@[simp] theorem State.dramPut_cp (s : State) (a : Nat) (bs : List Byte) : (s.dramPut a bs).cp = s.cp := rfl
@[simp] theorem State.dramPut_module (s : State) (a : Nat) (bs : List Byte) : (s.dramPut a bs).module = s.module := rfl
@[simp] theorem State.dramPut_bindings (s : State) (a : Nat) (bs : List Byte) : (s.dramPut a bs).bindings = s.bindings := rfl
@[simp] theorem State.dramPut_ptc (s : State) (a : Nat) (bs : List Byte) : (s.dramPut a bs).ptc = s.ptc := rfl

/-! ### keepL1 -/

@[simp] theorem State.keepL1_threads (s : State) (k : L1Key → Nat → Bool) : (s.keepL1 k).threads = s.threads := rfl
@[simp] theorem State.keepL1_cohorts (s : State) (k : L1Key → Nat → Bool) : (s.keepL1 k).cohorts = s.cohorts := rfl
@[simp] theorem State.keepL1_teams (s : State) (k : L1Key → Nat → Bool) : (s.keepL1 k).teams = s.teams := rfl
@[simp] theorem State.keepL1_barriers (s : State) (k : L1Key → Nat → Bool) : (s.keepL1 k).barriers = s.barriers := rfl
@[simp] theorem State.keepL1_parts (s : State) (k : L1Key → Nat → Bool) : (s.keepL1 k).parts = s.parts := rfl
@[simp] theorem State.keepL1_launches (s : State) (k : L1Key → Nat → Bool) : (s.keepL1 k).launches = s.launches := rfl
@[simp] theorem State.keepL1_traps (s : State) (k : L1Key → Nat → Bool) : (s.keepL1 k).traps = s.traps := rfl
@[simp] theorem State.keepL1_issue (s : State) (k : L1Key → Nat → Bool) : (s.keepL1 k).issue = s.issue := rfl
@[simp] theorem State.keepL1_late (s : State) (k : L1Key → Nat → Bool) : (s.keepL1 k).late = s.late := rfl
@[simp] theorem State.keepL1_sched (s : State) (k : L1Key → Nat → Bool) : (s.keepL1 k).sched = s.sched := rfl
@[simp] theorem State.keepL1_cycle (s : State) (k : L1Key → Nat → Bool) : (s.keepL1 k).cycle = s.cycle := rfl
@[simp] theorem State.keepL1_nextId (s : State) (k : L1Key → Nat → Bool) : (s.keepL1 k).nextId = s.nextId := rfl
@[simp] theorem State.keepL1_free (s : State) (k : L1Key → Nat → Bool) : (s.keepL1 k).free = s.free := rfl
@[simp] theorem State.keepL1_moduleNo (s : State) (k : L1Key → Nat → Bool) : (s.keepL1 k).moduleNo = s.moduleNo := rfl
@[simp] theorem State.keepL1_eng (s : State) (k : L1Key → Nat → Bool) : (s.keepL1 k).eng = s.eng := rfl
@[simp] theorem State.keepL1_rel (s : State) (k : L1Key → Nat → Bool) : (s.keepL1 k).rel = s.rel := rfl
@[simp] theorem State.keepL1_vnp (s : State) (k : L1Key → Nat → Bool) : (s.keepL1 k).vnp = s.vnp := rfl
@[simp] theorem State.keepL1_cp (s : State) (k : L1Key → Nat → Bool) : (s.keepL1 k).cp = s.cp := rfl
@[simp] theorem State.keepL1_module (s : State) (k : L1Key → Nat → Bool) : (s.keepL1 k).module = s.module := rfl
@[simp] theorem State.keepL1_bindings (s : State) (k : L1Key → Nat → Bool) : (s.keepL1 k).bindings = s.bindings := rfl
@[simp] theorem State.keepL1_ptc (s : State) (k : L1Key → Nat → Bool) : (s.keepL1 k).ptc = s.ptc := rfl

/-! ### keepLine -/

@[simp] theorem State.keepLine_threads (s : State) (c : CoreId) (pa : Nat) (bs : List Byte) : (s.keepLine c pa bs).threads = s.threads := rfl
@[simp] theorem State.keepLine_cohorts (s : State) (c : CoreId) (pa : Nat) (bs : List Byte) : (s.keepLine c pa bs).cohorts = s.cohorts := rfl
@[simp] theorem State.keepLine_teams (s : State) (c : CoreId) (pa : Nat) (bs : List Byte) : (s.keepLine c pa bs).teams = s.teams := rfl
@[simp] theorem State.keepLine_barriers (s : State) (c : CoreId) (pa : Nat) (bs : List Byte) : (s.keepLine c pa bs).barriers = s.barriers := rfl
@[simp] theorem State.keepLine_parts (s : State) (c : CoreId) (pa : Nat) (bs : List Byte) : (s.keepLine c pa bs).parts = s.parts := rfl
@[simp] theorem State.keepLine_launches (s : State) (c : CoreId) (pa : Nat) (bs : List Byte) : (s.keepLine c pa bs).launches = s.launches := rfl
@[simp] theorem State.keepLine_traps (s : State) (c : CoreId) (pa : Nat) (bs : List Byte) : (s.keepLine c pa bs).traps = s.traps := rfl
@[simp] theorem State.keepLine_issue (s : State) (c : CoreId) (pa : Nat) (bs : List Byte) : (s.keepLine c pa bs).issue = s.issue := rfl
@[simp] theorem State.keepLine_late (s : State) (c : CoreId) (pa : Nat) (bs : List Byte) : (s.keepLine c pa bs).late = s.late := rfl
@[simp] theorem State.keepLine_sched (s : State) (c : CoreId) (pa : Nat) (bs : List Byte) : (s.keepLine c pa bs).sched = s.sched := rfl
@[simp] theorem State.keepLine_cycle (s : State) (c : CoreId) (pa : Nat) (bs : List Byte) : (s.keepLine c pa bs).cycle = s.cycle := rfl
@[simp] theorem State.keepLine_nextId (s : State) (c : CoreId) (pa : Nat) (bs : List Byte) : (s.keepLine c pa bs).nextId = s.nextId := rfl
@[simp] theorem State.keepLine_free (s : State) (c : CoreId) (pa : Nat) (bs : List Byte) : (s.keepLine c pa bs).free = s.free := rfl
@[simp] theorem State.keepLine_moduleNo (s : State) (c : CoreId) (pa : Nat) (bs : List Byte) : (s.keepLine c pa bs).moduleNo = s.moduleNo := rfl
@[simp] theorem State.keepLine_eng (s : State) (c : CoreId) (pa : Nat) (bs : List Byte) : (s.keepLine c pa bs).eng = s.eng := rfl
@[simp] theorem State.keepLine_rel (s : State) (c : CoreId) (pa : Nat) (bs : List Byte) : (s.keepLine c pa bs).rel = s.rel := rfl
@[simp] theorem State.keepLine_vnp (s : State) (c : CoreId) (pa : Nat) (bs : List Byte) : (s.keepLine c pa bs).vnp = s.vnp := rfl
@[simp] theorem State.keepLine_cp (s : State) (c : CoreId) (pa : Nat) (bs : List Byte) : (s.keepLine c pa bs).cp = s.cp := rfl
@[simp] theorem State.keepLine_module (s : State) (c : CoreId) (pa : Nat) (bs : List Byte) : (s.keepLine c pa bs).module = s.module := rfl
@[simp] theorem State.keepLine_bindings (s : State) (c : CoreId) (pa : Nat) (bs : List Byte) : (s.keepLine c pa bs).bindings = s.bindings := rfl
@[simp] theorem State.keepLine_ptc (s : State) (c : CoreId) (pa : Nat) (bs : List Byte) : (s.keepLine c pa bs).ptc = s.ptc := rfl

/-! ### dropLine -/

@[simp] theorem State.dropLine_threads (s : State) (c : CoreId) (n : Nat) : (s.dropLine c n).threads = s.threads := rfl
@[simp] theorem State.dropLine_cohorts (s : State) (c : CoreId) (n : Nat) : (s.dropLine c n).cohorts = s.cohorts := rfl
@[simp] theorem State.dropLine_teams (s : State) (c : CoreId) (n : Nat) : (s.dropLine c n).teams = s.teams := rfl
@[simp] theorem State.dropLine_barriers (s : State) (c : CoreId) (n : Nat) : (s.dropLine c n).barriers = s.barriers := rfl
@[simp] theorem State.dropLine_parts (s : State) (c : CoreId) (n : Nat) : (s.dropLine c n).parts = s.parts := rfl
@[simp] theorem State.dropLine_launches (s : State) (c : CoreId) (n : Nat) : (s.dropLine c n).launches = s.launches := rfl
@[simp] theorem State.dropLine_traps (s : State) (c : CoreId) (n : Nat) : (s.dropLine c n).traps = s.traps := rfl
@[simp] theorem State.dropLine_issue (s : State) (c : CoreId) (n : Nat) : (s.dropLine c n).issue = s.issue := rfl
@[simp] theorem State.dropLine_late (s : State) (c : CoreId) (n : Nat) : (s.dropLine c n).late = s.late := rfl
@[simp] theorem State.dropLine_sched (s : State) (c : CoreId) (n : Nat) : (s.dropLine c n).sched = s.sched := rfl
@[simp] theorem State.dropLine_cycle (s : State) (c : CoreId) (n : Nat) : (s.dropLine c n).cycle = s.cycle := rfl
@[simp] theorem State.dropLine_nextId (s : State) (c : CoreId) (n : Nat) : (s.dropLine c n).nextId = s.nextId := rfl
@[simp] theorem State.dropLine_free (s : State) (c : CoreId) (n : Nat) : (s.dropLine c n).free = s.free := rfl
@[simp] theorem State.dropLine_moduleNo (s : State) (c : CoreId) (n : Nat) : (s.dropLine c n).moduleNo = s.moduleNo := rfl
@[simp] theorem State.dropLine_eng (s : State) (c : CoreId) (n : Nat) : (s.dropLine c n).eng = s.eng := rfl
@[simp] theorem State.dropLine_rel (s : State) (c : CoreId) (n : Nat) : (s.dropLine c n).rel = s.rel := rfl
@[simp] theorem State.dropLine_vnp (s : State) (c : CoreId) (n : Nat) : (s.dropLine c n).vnp = s.vnp := rfl
@[simp] theorem State.dropLine_cp (s : State) (c : CoreId) (n : Nat) : (s.dropLine c n).cp = s.cp := rfl
@[simp] theorem State.dropLine_module (s : State) (c : CoreId) (n : Nat) : (s.dropLine c n).module = s.module := rfl
@[simp] theorem State.dropLine_bindings (s : State) (c : CoreId) (n : Nat) : (s.dropLine c n).bindings = s.bindings := rfl
@[simp] theorem State.dropLine_ptc (s : State) (c : CoreId) (n : Nat) : (s.dropLine c n).ptc = s.ptc := rfl

/-! ### tick -/

@[simp] theorem State.tick_threads (s : State) (n : Nat) : (s.tick n).threads = s.threads := rfl
@[simp] theorem State.tick_cohorts (s : State) (n : Nat) : (s.tick n).cohorts = s.cohorts := rfl
@[simp] theorem State.tick_teams (s : State) (n : Nat) : (s.tick n).teams = s.teams := rfl
@[simp] theorem State.tick_barriers (s : State) (n : Nat) : (s.tick n).barriers = s.barriers := rfl
@[simp] theorem State.tick_parts (s : State) (n : Nat) : (s.tick n).parts = s.parts := rfl
@[simp] theorem State.tick_launches (s : State) (n : Nat) : (s.tick n).launches = s.launches := rfl
@[simp] theorem State.tick_traps (s : State) (n : Nat) : (s.tick n).traps = s.traps := rfl
@[simp] theorem State.tick_issue (s : State) (n : Nat) : (s.tick n).issue = s.issue := rfl
@[simp] theorem State.tick_late (s : State) (n : Nat) : (s.tick n).late = s.late := rfl
@[simp] theorem State.tick_sched (s : State) (n : Nat) : (s.tick n).sched = s.sched := rfl
@[simp] theorem State.tick_cycle (s : State) (n : Nat) : (s.tick n).cycle = s.cycle + n := rfl
@[simp] theorem State.tick_nextId (s : State) (n : Nat) : (s.tick n).nextId = s.nextId := rfl
@[simp] theorem State.tick_free (s : State) (n : Nat) : (s.tick n).free = s.free := rfl
@[simp] theorem State.tick_moduleNo (s : State) (n : Nat) : (s.tick n).moduleNo = s.moduleNo := rfl
@[simp] theorem State.tick_mem (s : State) (n : Nat) : (s.tick n).mem = s.mem := rfl
@[simp] theorem State.tick_eng (s : State) (n : Nat) : (s.tick n).eng = s.eng := rfl
@[simp] theorem State.tick_rel (s : State) (n : Nat) : (s.tick n).rel = s.rel := rfl
@[simp] theorem State.tick_vnp (s : State) (n : Nat) : (s.tick n).vnp = s.vnp := rfl
@[simp] theorem State.tick_cp (s : State) (n : Nat) : (s.tick n).cp = s.cp := rfl
@[simp] theorem State.tick_module (s : State) (n : Nat) : (s.tick n).module = { s.module with clock := s.module.clock.slewed n } := rfl
@[simp] theorem State.tick_bindings (s : State) (n : Nat) : (s.tick n).bindings = s.bindings := rfl
@[simp] theorem State.tick_ptc (s : State) (n : Nat) : (s.tick n).ptc = s.ptc + BitVec.ofNat 64 n := rfl

/-! ### dropLate -/

@[simp] theorem State.dropLate_threads (s : State) (l : Late) : (s.dropLate l).threads = s.threads := rfl
@[simp] theorem State.dropLate_cohorts (s : State) (l : Late) : (s.dropLate l).cohorts = s.cohorts := rfl
@[simp] theorem State.dropLate_teams (s : State) (l : Late) : (s.dropLate l).teams = s.teams := rfl
@[simp] theorem State.dropLate_barriers (s : State) (l : Late) : (s.dropLate l).barriers = s.barriers := rfl
@[simp] theorem State.dropLate_parts (s : State) (l : Late) : (s.dropLate l).parts = s.parts := rfl
@[simp] theorem State.dropLate_launches (s : State) (l : Late) : (s.dropLate l).launches = s.launches := rfl
@[simp] theorem State.dropLate_traps (s : State) (l : Late) : (s.dropLate l).traps = s.traps := rfl
@[simp] theorem State.dropLate_issue (s : State) (l : Late) : (s.dropLate l).issue = s.issue := rfl
@[simp] theorem State.dropLate_sched (s : State) (l : Late) : (s.dropLate l).sched = s.sched := rfl
@[simp] theorem State.dropLate_cycle (s : State) (l : Late) : (s.dropLate l).cycle = s.cycle := rfl
@[simp] theorem State.dropLate_nextId (s : State) (l : Late) : (s.dropLate l).nextId = s.nextId := rfl
@[simp] theorem State.dropLate_free (s : State) (l : Late) : (s.dropLate l).free = s.free := rfl
@[simp] theorem State.dropLate_moduleNo (s : State) (l : Late) : (s.dropLate l).moduleNo = s.moduleNo := rfl
@[simp] theorem State.dropLate_mem (s : State) (l : Late) : (s.dropLate l).mem = s.mem := rfl
@[simp] theorem State.dropLate_eng (s : State) (l : Late) : (s.dropLate l).eng = s.eng := rfl
@[simp] theorem State.dropLate_rel (s : State) (l : Late) : (s.dropLate l).rel = s.rel := rfl
@[simp] theorem State.dropLate_vnp (s : State) (l : Late) : (s.dropLate l).vnp = s.vnp := rfl
@[simp] theorem State.dropLate_cp (s : State) (l : Late) : (s.dropLate l).cp = s.cp := rfl
@[simp] theorem State.dropLate_module (s : State) (l : Late) : (s.dropLate l).module = s.module := rfl
@[simp] theorem State.dropLate_bindings (s : State) (l : Late) : (s.dropLate l).bindings = s.bindings := rfl
@[simp] theorem State.dropLate_ptc (s : State) (l : Late) : (s.dropLate l).ptc = s.ptc := rfl

/-! ### fresh -/

@[simp] theorem State.fresh_threads (s : State) : s.fresh.2.threads = s.threads := rfl
@[simp] theorem State.fresh_cohorts (s : State) : s.fresh.2.cohorts = s.cohorts := rfl
@[simp] theorem State.fresh_teams (s : State) : s.fresh.2.teams = s.teams := rfl
@[simp] theorem State.fresh_barriers (s : State) : s.fresh.2.barriers = s.barriers := rfl
@[simp] theorem State.fresh_parts (s : State) : s.fresh.2.parts = s.parts := rfl
@[simp] theorem State.fresh_launches (s : State) : s.fresh.2.launches = s.launches := rfl
@[simp] theorem State.fresh_traps (s : State) : s.fresh.2.traps = s.traps := rfl
@[simp] theorem State.fresh_issue (s : State) : s.fresh.2.issue = s.issue := rfl
@[simp] theorem State.fresh_late (s : State) : s.fresh.2.late = s.late := rfl
@[simp] theorem State.fresh_sched (s : State) : s.fresh.2.sched = s.sched := rfl
@[simp] theorem State.fresh_cycle (s : State) : s.fresh.2.cycle = s.cycle := rfl
@[simp] theorem State.fresh_nextId (s : State) : s.fresh.2.nextId = s.nextId + 1 := rfl
@[simp] theorem State.fresh_free (s : State) : s.fresh.2.free = s.free := rfl
@[simp] theorem State.fresh_moduleNo (s : State) : s.fresh.2.moduleNo = s.moduleNo := rfl
@[simp] theorem State.fresh_mem (s : State) : s.fresh.2.mem = s.mem := rfl
@[simp] theorem State.fresh_eng (s : State) : s.fresh.2.eng = s.eng := rfl
@[simp] theorem State.fresh_rel (s : State) : s.fresh.2.rel = s.rel := rfl
@[simp] theorem State.fresh_vnp (s : State) : s.fresh.2.vnp = s.vnp := rfl
@[simp] theorem State.fresh_cp (s : State) : s.fresh.2.cp = s.cp := rfl
@[simp] theorem State.fresh_module (s : State) : s.fresh.2.module = s.module := rfl
@[simp] theorem State.fresh_bindings (s : State) : s.fresh.2.bindings = s.bindings := rfl
@[simp] theorem State.fresh_ptc (s : State) : s.fresh.2.ptc = s.ptc := rfl
@[simp] theorem State.fresh_fst (s : State) : s.fresh.1 = s.nextId := rfl

/-! ### dropHeld -/

@[simp] theorem State.dropHeld_threads (s : State) (sec : Nat) : (s.dropHeld sec).threads = s.threads := rfl
@[simp] theorem State.dropHeld_cohorts (s : State) (sec : Nat) : (s.dropHeld sec).cohorts = s.cohorts := rfl
@[simp] theorem State.dropHeld_teams (s : State) (sec : Nat) : (s.dropHeld sec).teams = s.teams := rfl
@[simp] theorem State.dropHeld_barriers (s : State) (sec : Nat) : (s.dropHeld sec).barriers = s.barriers := rfl
@[simp] theorem State.dropHeld_parts (s : State) (sec : Nat) : (s.dropHeld sec).parts = s.parts := rfl
@[simp] theorem State.dropHeld_launches (s : State) (sec : Nat) : (s.dropHeld sec).launches = s.launches := rfl
@[simp] theorem State.dropHeld_traps (s : State) (sec : Nat) : (s.dropHeld sec).traps = s.traps := rfl
@[simp] theorem State.dropHeld_issue (s : State) (sec : Nat) : (s.dropHeld sec).issue = s.issue := rfl
@[simp] theorem State.dropHeld_late (s : State) (sec : Nat) : (s.dropHeld sec).late = s.late := rfl
@[simp] theorem State.dropHeld_sched (s : State) (sec : Nat) : (s.dropHeld sec).sched = s.sched := rfl
@[simp] theorem State.dropHeld_cycle (s : State) (sec : Nat) : (s.dropHeld sec).cycle = s.cycle := rfl
@[simp] theorem State.dropHeld_nextId (s : State) (sec : Nat) : (s.dropHeld sec).nextId = s.nextId := rfl
@[simp] theorem State.dropHeld_free (s : State) (sec : Nat) : (s.dropHeld sec).free = s.free := rfl
@[simp] theorem State.dropHeld_moduleNo (s : State) (sec : Nat) : (s.dropHeld sec).moduleNo = s.moduleNo := rfl
@[simp] theorem State.dropHeld_eng (s : State) (sec : Nat) : (s.dropHeld sec).eng = s.eng := rfl
@[simp] theorem State.dropHeld_rel (s : State) (sec : Nat) : (s.dropHeld sec).rel = s.rel := rfl
@[simp] theorem State.dropHeld_vnp (s : State) (sec : Nat) : (s.dropHeld sec).vnp = s.vnp := rfl
@[simp] theorem State.dropHeld_cp (s : State) (sec : Nat) : (s.dropHeld sec).cp = s.cp := rfl
@[simp] theorem State.dropHeld_module (s : State) (sec : Nat) : (s.dropHeld sec).module = s.module := rfl
@[simp] theorem State.dropHeld_bindings (s : State) (sec : Nat) : (s.dropHeld sec).bindings = s.bindings := rfl
@[simp] theorem State.dropHeld_ptc (s : State) (sec : Nat) : (s.dropHeld sec).ptc = s.ptc := rfl

/-! ### dropL1 -/

@[simp] theorem State.dropL1_threads (s : State) (core : CoreId) (sec : Nat) : (s.dropL1 core sec).threads = s.threads := rfl
@[simp] theorem State.dropL1_cohorts (s : State) (core : CoreId) (sec : Nat) : (s.dropL1 core sec).cohorts = s.cohorts := rfl
@[simp] theorem State.dropL1_teams (s : State) (core : CoreId) (sec : Nat) : (s.dropL1 core sec).teams = s.teams := rfl
@[simp] theorem State.dropL1_barriers (s : State) (core : CoreId) (sec : Nat) : (s.dropL1 core sec).barriers = s.barriers := rfl
@[simp] theorem State.dropL1_parts (s : State) (core : CoreId) (sec : Nat) : (s.dropL1 core sec).parts = s.parts := rfl
@[simp] theorem State.dropL1_launches (s : State) (core : CoreId) (sec : Nat) : (s.dropL1 core sec).launches = s.launches := rfl
@[simp] theorem State.dropL1_traps (s : State) (core : CoreId) (sec : Nat) : (s.dropL1 core sec).traps = s.traps := rfl
@[simp] theorem State.dropL1_issue (s : State) (core : CoreId) (sec : Nat) : (s.dropL1 core sec).issue = s.issue := rfl
@[simp] theorem State.dropL1_late (s : State) (core : CoreId) (sec : Nat) : (s.dropL1 core sec).late = s.late := rfl
@[simp] theorem State.dropL1_sched (s : State) (core : CoreId) (sec : Nat) : (s.dropL1 core sec).sched = s.sched := rfl
@[simp] theorem State.dropL1_cycle (s : State) (core : CoreId) (sec : Nat) : (s.dropL1 core sec).cycle = s.cycle := rfl
@[simp] theorem State.dropL1_nextId (s : State) (core : CoreId) (sec : Nat) : (s.dropL1 core sec).nextId = s.nextId := rfl
@[simp] theorem State.dropL1_free (s : State) (core : CoreId) (sec : Nat) : (s.dropL1 core sec).free = s.free := rfl
@[simp] theorem State.dropL1_moduleNo (s : State) (core : CoreId) (sec : Nat) : (s.dropL1 core sec).moduleNo = s.moduleNo := rfl
@[simp] theorem State.dropL1_eng (s : State) (core : CoreId) (sec : Nat) : (s.dropL1 core sec).eng = s.eng := rfl
@[simp] theorem State.dropL1_rel (s : State) (core : CoreId) (sec : Nat) : (s.dropL1 core sec).rel = s.rel := rfl
@[simp] theorem State.dropL1_vnp (s : State) (core : CoreId) (sec : Nat) : (s.dropL1 core sec).vnp = s.vnp := rfl
@[simp] theorem State.dropL1_cp (s : State) (core : CoreId) (sec : Nat) : (s.dropL1 core sec).cp = s.cp := rfl
@[simp] theorem State.dropL1_module (s : State) (core : CoreId) (sec : Nat) : (s.dropL1 core sec).module = s.module := rfl
@[simp] theorem State.dropL1_bindings (s : State) (core : CoreId) (sec : Nat) : (s.dropL1 core sec).bindings = s.bindings := rfl
@[simp] theorem State.dropL1_ptc (s : State) (core : CoreId) (sec : Nat) : (s.dropL1 core sec).ptc = s.ptc := rfl

/-! ### took -/

@[simp] theorem State.took_threads (s : State) (c : Command) : (s.took c).threads = s.threads := rfl
@[simp] theorem State.took_cohorts (s : State) (c : Command) : (s.took c).cohorts = s.cohorts := rfl
@[simp] theorem State.took_teams (s : State) (c : Command) : (s.took c).teams = s.teams := rfl
@[simp] theorem State.took_barriers (s : State) (c : Command) : (s.took c).barriers = s.barriers := rfl
@[simp] theorem State.took_parts (s : State) (c : Command) : (s.took c).parts = s.parts := rfl
@[simp] theorem State.took_launches (s : State) (c : Command) : (s.took c).launches = s.launches := rfl
@[simp] theorem State.took_traps (s : State) (c : Command) : (s.took c).traps = s.traps := rfl
@[simp] theorem State.took_issue (s : State) (c : Command) : (s.took c).issue = s.issue := rfl
@[simp] theorem State.took_late (s : State) (c : Command) : (s.took c).late = s.late := rfl
@[simp] theorem State.took_sched (s : State) (c : Command) : (s.took c).sched = s.sched := rfl
@[simp] theorem State.took_cycle (s : State) (c : Command) : (s.took c).cycle = s.cycle := rfl
@[simp] theorem State.took_nextId (s : State) (c : Command) : (s.took c).nextId = s.nextId := rfl
@[simp] theorem State.took_free (s : State) (c : Command) : (s.took c).free = s.free := rfl
@[simp] theorem State.took_moduleNo (s : State) (c : Command) : (s.took c).moduleNo = s.moduleNo := rfl
@[simp] theorem State.took_mem (s : State) (c : Command) : (s.took c).mem = s.mem := rfl
@[simp] theorem State.took_rel (s : State) (c : Command) : (s.took c).rel = s.rel := rfl
@[simp] theorem State.took_vnp (s : State) (c : Command) : (s.took c).vnp = s.vnp := rfl
@[simp] theorem State.took_cp (s : State) (c : Command) : (s.took c).cp = s.cp := rfl
@[simp] theorem State.took_module (s : State) (c : Command) : (s.took c).module = s.module := rfl
@[simp] theorem State.took_bindings (s : State) (c : Command) : (s.took c).bindings = s.bindings := rfl
@[simp] theorem State.took_ptc (s : State) (c : Command) : (s.took c).ptc = s.ptc := rfl

/-! ### settleTurns -/

@[simp] theorem State.settleTurns_threads (s : State) : s.settleTurns.threads = s.threads := rfl
@[simp] theorem State.settleTurns_cohorts (s : State) : s.settleTurns.cohorts = s.cohorts := rfl
@[simp] theorem State.settleTurns_teams (s : State) : s.settleTurns.teams = s.teams := rfl
@[simp] theorem State.settleTurns_barriers (s : State) : s.settleTurns.barriers = s.barriers := rfl
@[simp] theorem State.settleTurns_parts (s : State) : s.settleTurns.parts = s.parts := rfl
@[simp] theorem State.settleTurns_launches (s : State) : s.settleTurns.launches = s.launches := rfl
@[simp] theorem State.settleTurns_traps (s : State) : s.settleTurns.traps = s.traps := rfl
@[simp] theorem State.settleTurns_issue (s : State) : s.settleTurns.issue = s.issue := rfl
@[simp] theorem State.settleTurns_late (s : State) : s.settleTurns.late = s.late := rfl
@[simp] theorem State.settleTurns_sched (s : State) : s.settleTurns.sched = s.sched := rfl
@[simp] theorem State.settleTurns_cycle (s : State) : s.settleTurns.cycle = s.cycle := rfl
@[simp] theorem State.settleTurns_nextId (s : State) : s.settleTurns.nextId = s.nextId := rfl
@[simp] theorem State.settleTurns_free (s : State) : s.settleTurns.free = s.free := rfl
@[simp] theorem State.settleTurns_moduleNo (s : State) : s.settleTurns.moduleNo = s.moduleNo := rfl
@[simp] theorem State.settleTurns_mem (s : State) : s.settleTurns.mem = s.mem := rfl
@[simp] theorem State.settleTurns_rel (s : State) : s.settleTurns.rel = s.rel := rfl
@[simp] theorem State.settleTurns_vnp (s : State) : s.settleTurns.vnp = s.vnp := rfl
@[simp] theorem State.settleTurns_cp (s : State) : s.settleTurns.cp = s.cp := rfl
@[simp] theorem State.settleTurns_module (s : State) : s.settleTurns.module = s.module := rfl
@[simp] theorem State.settleTurns_bindings (s : State) : s.settleTurns.bindings = s.bindings := rfl
@[simp] theorem State.settleTurns_ptc (s : State) : s.settleTurns.ptc = s.ptc := rfl

/-! ### setChain -/

@[simp] theorem State.setChain_threads (s : State) (key : PageKey) (f : Chain → Chain) : (s.setChain key f).threads = s.threads := rfl
@[simp] theorem State.setChain_cohorts (s : State) (key : PageKey) (f : Chain → Chain) : (s.setChain key f).cohorts = s.cohorts := rfl
@[simp] theorem State.setChain_teams (s : State) (key : PageKey) (f : Chain → Chain) : (s.setChain key f).teams = s.teams := rfl
@[simp] theorem State.setChain_barriers (s : State) (key : PageKey) (f : Chain → Chain) : (s.setChain key f).barriers = s.barriers := rfl
@[simp] theorem State.setChain_parts (s : State) (key : PageKey) (f : Chain → Chain) : (s.setChain key f).parts = s.parts := rfl
@[simp] theorem State.setChain_launches (s : State) (key : PageKey) (f : Chain → Chain) : (s.setChain key f).launches = s.launches := rfl
@[simp] theorem State.setChain_traps (s : State) (key : PageKey) (f : Chain → Chain) : (s.setChain key f).traps = s.traps := rfl
@[simp] theorem State.setChain_issue (s : State) (key : PageKey) (f : Chain → Chain) : (s.setChain key f).issue = s.issue := rfl
@[simp] theorem State.setChain_late (s : State) (key : PageKey) (f : Chain → Chain) : (s.setChain key f).late = s.late := rfl
@[simp] theorem State.setChain_sched (s : State) (key : PageKey) (f : Chain → Chain) : (s.setChain key f).sched = s.sched := rfl
@[simp] theorem State.setChain_cycle (s : State) (key : PageKey) (f : Chain → Chain) : (s.setChain key f).cycle = s.cycle := rfl
@[simp] theorem State.setChain_nextId (s : State) (key : PageKey) (f : Chain → Chain) : (s.setChain key f).nextId = s.nextId := rfl
@[simp] theorem State.setChain_free (s : State) (key : PageKey) (f : Chain → Chain) : (s.setChain key f).free = s.free := rfl
@[simp] theorem State.setChain_moduleNo (s : State) (key : PageKey) (f : Chain → Chain) : (s.setChain key f).moduleNo = s.moduleNo := rfl
@[simp] theorem State.setChain_mem (s : State) (key : PageKey) (f : Chain → Chain) : (s.setChain key f).mem = s.mem := rfl
@[simp] theorem State.setChain_eng (s : State) (key : PageKey) (f : Chain → Chain) : (s.setChain key f).eng = s.eng := rfl
@[simp] theorem State.setChain_rel (s : State) (key : PageKey) (f : Chain → Chain) : (s.setChain key f).rel = s.rel := rfl
@[simp] theorem State.setChain_cp (s : State) (key : PageKey) (f : Chain → Chain) : (s.setChain key f).cp = s.cp := rfl
@[simp] theorem State.setChain_module (s : State) (key : PageKey) (f : Chain → Chain) : (s.setChain key f).module = s.module := rfl
@[simp] theorem State.setChain_bindings (s : State) (key : PageKey) (f : Chain → Chain) : (s.setChain key f).bindings = s.bindings := rfl
@[simp] theorem State.setChain_ptc (s : State) (key : PageKey) (f : Chain → Chain) : (s.setChain key f).ptc = s.ptc := rfl

/-! ### modFrame -/

@[simp] theorem State.modFrame_threads (s : State) (key : PageKey) (f : Frame → Frame) : (s.modFrame key f).threads = s.threads := rfl
@[simp] theorem State.modFrame_cohorts (s : State) (key : PageKey) (f : Frame → Frame) : (s.modFrame key f).cohorts = s.cohorts := rfl
@[simp] theorem State.modFrame_teams (s : State) (key : PageKey) (f : Frame → Frame) : (s.modFrame key f).teams = s.teams := rfl
@[simp] theorem State.modFrame_barriers (s : State) (key : PageKey) (f : Frame → Frame) : (s.modFrame key f).barriers = s.barriers := rfl
@[simp] theorem State.modFrame_parts (s : State) (key : PageKey) (f : Frame → Frame) : (s.modFrame key f).parts = s.parts := rfl
@[simp] theorem State.modFrame_launches (s : State) (key : PageKey) (f : Frame → Frame) : (s.modFrame key f).launches = s.launches := rfl
@[simp] theorem State.modFrame_traps (s : State) (key : PageKey) (f : Frame → Frame) : (s.modFrame key f).traps = s.traps := rfl
@[simp] theorem State.modFrame_issue (s : State) (key : PageKey) (f : Frame → Frame) : (s.modFrame key f).issue = s.issue := rfl
@[simp] theorem State.modFrame_late (s : State) (key : PageKey) (f : Frame → Frame) : (s.modFrame key f).late = s.late := rfl
@[simp] theorem State.modFrame_sched (s : State) (key : PageKey) (f : Frame → Frame) : (s.modFrame key f).sched = s.sched := rfl
@[simp] theorem State.modFrame_cycle (s : State) (key : PageKey) (f : Frame → Frame) : (s.modFrame key f).cycle = s.cycle := rfl
@[simp] theorem State.modFrame_nextId (s : State) (key : PageKey) (f : Frame → Frame) : (s.modFrame key f).nextId = s.nextId := rfl
@[simp] theorem State.modFrame_free (s : State) (key : PageKey) (f : Frame → Frame) : (s.modFrame key f).free = s.free := rfl
@[simp] theorem State.modFrame_moduleNo (s : State) (key : PageKey) (f : Frame → Frame) : (s.modFrame key f).moduleNo = s.moduleNo := rfl
@[simp] theorem State.modFrame_mem (s : State) (key : PageKey) (f : Frame → Frame) : (s.modFrame key f).mem = s.mem := rfl
@[simp] theorem State.modFrame_eng (s : State) (key : PageKey) (f : Frame → Frame) : (s.modFrame key f).eng = s.eng := rfl
@[simp] theorem State.modFrame_rel (s : State) (key : PageKey) (f : Frame → Frame) : (s.modFrame key f).rel = s.rel := rfl
@[simp] theorem State.modFrame_cp (s : State) (key : PageKey) (f : Frame → Frame) : (s.modFrame key f).cp = s.cp := rfl
@[simp] theorem State.modFrame_module (s : State) (key : PageKey) (f : Frame → Frame) : (s.modFrame key f).module = s.module := rfl
@[simp] theorem State.modFrame_bindings (s : State) (key : PageKey) (f : Frame → Frame) : (s.modFrame key f).bindings = s.bindings := rfl
@[simp] theorem State.modFrame_ptc (s : State) (key : PageKey) (f : Frame → Frame) : (s.modFrame key f).ptc = s.ptc := rfl

/-! ### modRecs -/

@[simp] theorem State.modRecs_threads (s : State) (p : ParkRec → Bool) (f : ParkRec → ParkRec) : (s.modRecs p f).threads = s.threads := rfl
@[simp] theorem State.modRecs_cohorts (s : State) (p : ParkRec → Bool) (f : ParkRec → ParkRec) : (s.modRecs p f).cohorts = s.cohorts := rfl
@[simp] theorem State.modRecs_teams (s : State) (p : ParkRec → Bool) (f : ParkRec → ParkRec) : (s.modRecs p f).teams = s.teams := rfl
@[simp] theorem State.modRecs_barriers (s : State) (p : ParkRec → Bool) (f : ParkRec → ParkRec) : (s.modRecs p f).barriers = s.barriers := rfl
@[simp] theorem State.modRecs_parts (s : State) (p : ParkRec → Bool) (f : ParkRec → ParkRec) : (s.modRecs p f).parts = s.parts := rfl
@[simp] theorem State.modRecs_launches (s : State) (p : ParkRec → Bool) (f : ParkRec → ParkRec) : (s.modRecs p f).launches = s.launches := rfl
@[simp] theorem State.modRecs_traps (s : State) (p : ParkRec → Bool) (f : ParkRec → ParkRec) : (s.modRecs p f).traps = s.traps := rfl
@[simp] theorem State.modRecs_issue (s : State) (p : ParkRec → Bool) (f : ParkRec → ParkRec) : (s.modRecs p f).issue = s.issue := rfl
@[simp] theorem State.modRecs_late (s : State) (p : ParkRec → Bool) (f : ParkRec → ParkRec) : (s.modRecs p f).late = s.late := rfl
@[simp] theorem State.modRecs_sched (s : State) (p : ParkRec → Bool) (f : ParkRec → ParkRec) : (s.modRecs p f).sched = s.sched := rfl
@[simp] theorem State.modRecs_cycle (s : State) (p : ParkRec → Bool) (f : ParkRec → ParkRec) : (s.modRecs p f).cycle = s.cycle := rfl
@[simp] theorem State.modRecs_nextId (s : State) (p : ParkRec → Bool) (f : ParkRec → ParkRec) : (s.modRecs p f).nextId = s.nextId := rfl
@[simp] theorem State.modRecs_free (s : State) (p : ParkRec → Bool) (f : ParkRec → ParkRec) : (s.modRecs p f).free = s.free := rfl
@[simp] theorem State.modRecs_moduleNo (s : State) (p : ParkRec → Bool) (f : ParkRec → ParkRec) : (s.modRecs p f).moduleNo = s.moduleNo := rfl
@[simp] theorem State.modRecs_mem (s : State) (p : ParkRec → Bool) (f : ParkRec → ParkRec) : (s.modRecs p f).mem = s.mem := rfl
@[simp] theorem State.modRecs_eng (s : State) (p : ParkRec → Bool) (f : ParkRec → ParkRec) : (s.modRecs p f).eng = s.eng := rfl
@[simp] theorem State.modRecs_rel (s : State) (p : ParkRec → Bool) (f : ParkRec → ParkRec) : (s.modRecs p f).rel = s.rel := rfl
@[simp] theorem State.modRecs_cp (s : State) (p : ParkRec → Bool) (f : ParkRec → ParkRec) : (s.modRecs p f).cp = s.cp := rfl
@[simp] theorem State.modRecs_module (s : State) (p : ParkRec → Bool) (f : ParkRec → ParkRec) : (s.modRecs p f).module = s.module := rfl
@[simp] theorem State.modRecs_bindings (s : State) (p : ParkRec → Bool) (f : ParkRec → ParkRec) : (s.modRecs p f).bindings = s.bindings := rfl
@[simp] theorem State.modRecs_ptc (s : State) (p : ParkRec → Bool) (f : ParkRec → ParkRec) : (s.modRecs p f).ptc = s.ptc := rfl

/-! ### sendVnp -/

@[simp] theorem State.sendVnp_threads (s : State) (m : VnpMsg) : (s.sendVnp m).threads = s.threads := rfl
@[simp] theorem State.sendVnp_cohorts (s : State) (m : VnpMsg) : (s.sendVnp m).cohorts = s.cohorts := rfl
@[simp] theorem State.sendVnp_teams (s : State) (m : VnpMsg) : (s.sendVnp m).teams = s.teams := rfl
@[simp] theorem State.sendVnp_barriers (s : State) (m : VnpMsg) : (s.sendVnp m).barriers = s.barriers := rfl
@[simp] theorem State.sendVnp_parts (s : State) (m : VnpMsg) : (s.sendVnp m).parts = s.parts := rfl
@[simp] theorem State.sendVnp_launches (s : State) (m : VnpMsg) : (s.sendVnp m).launches = s.launches := rfl
@[simp] theorem State.sendVnp_traps (s : State) (m : VnpMsg) : (s.sendVnp m).traps = s.traps := rfl
@[simp] theorem State.sendVnp_issue (s : State) (m : VnpMsg) : (s.sendVnp m).issue = s.issue := rfl
@[simp] theorem State.sendVnp_late (s : State) (m : VnpMsg) : (s.sendVnp m).late = s.late := rfl
@[simp] theorem State.sendVnp_sched (s : State) (m : VnpMsg) : (s.sendVnp m).sched = s.sched := rfl
@[simp] theorem State.sendVnp_cycle (s : State) (m : VnpMsg) : (s.sendVnp m).cycle = s.cycle := rfl
@[simp] theorem State.sendVnp_nextId (s : State) (m : VnpMsg) : (s.sendVnp m).nextId = s.nextId := rfl
@[simp] theorem State.sendVnp_free (s : State) (m : VnpMsg) : (s.sendVnp m).free = s.free := rfl
@[simp] theorem State.sendVnp_moduleNo (s : State) (m : VnpMsg) : (s.sendVnp m).moduleNo = s.moduleNo := rfl
@[simp] theorem State.sendVnp_mem (s : State) (m : VnpMsg) : (s.sendVnp m).mem = s.mem := rfl
@[simp] theorem State.sendVnp_eng (s : State) (m : VnpMsg) : (s.sendVnp m).eng = s.eng := rfl
@[simp] theorem State.sendVnp_rel (s : State) (m : VnpMsg) : (s.sendVnp m).rel = s.rel := rfl
@[simp] theorem State.sendVnp_vnp (s : State) (m : VnpMsg) : (s.sendVnp m).vnp = { s.vnp with sent := s.vnp.sent ++ [m] } := rfl
@[simp] theorem State.sendVnp_cp (s : State) (m : VnpMsg) : (s.sendVnp m).cp = s.cp := rfl
@[simp] theorem State.sendVnp_module (s : State) (m : VnpMsg) : (s.sendVnp m).module = s.module.fly s.moduleNo (m.flights s.moduleNo) := rfl
@[simp] theorem State.sendVnp_bindings (s : State) (m : VnpMsg) : (s.sendVnp m).bindings = s.bindings := rfl
@[simp] theorem State.sendVnp_ptc (s : State) (m : VnpMsg) : (s.sendVnp m).ptc = s.ptc := rfl

/-! ### modRetired -/

@[simp] theorem State.modRetired_threads (s : State) (stack group : Nat) (f : Retired → Retired) : (s.modRetired stack group f).threads = s.threads := rfl
@[simp] theorem State.modRetired_cohorts (s : State) (stack group : Nat) (f : Retired → Retired) : (s.modRetired stack group f).cohorts = s.cohorts := rfl
@[simp] theorem State.modRetired_teams (s : State) (stack group : Nat) (f : Retired → Retired) : (s.modRetired stack group f).teams = s.teams := rfl
@[simp] theorem State.modRetired_barriers (s : State) (stack group : Nat) (f : Retired → Retired) : (s.modRetired stack group f).barriers = s.barriers := rfl
@[simp] theorem State.modRetired_parts (s : State) (stack group : Nat) (f : Retired → Retired) : (s.modRetired stack group f).parts = s.parts := rfl
@[simp] theorem State.modRetired_launches (s : State) (stack group : Nat) (f : Retired → Retired) : (s.modRetired stack group f).launches = s.launches := rfl
@[simp] theorem State.modRetired_traps (s : State) (stack group : Nat) (f : Retired → Retired) : (s.modRetired stack group f).traps = s.traps := rfl
@[simp] theorem State.modRetired_issue (s : State) (stack group : Nat) (f : Retired → Retired) : (s.modRetired stack group f).issue = s.issue := rfl
@[simp] theorem State.modRetired_late (s : State) (stack group : Nat) (f : Retired → Retired) : (s.modRetired stack group f).late = s.late := rfl
@[simp] theorem State.modRetired_sched (s : State) (stack group : Nat) (f : Retired → Retired) : (s.modRetired stack group f).sched = s.sched := rfl
@[simp] theorem State.modRetired_cycle (s : State) (stack group : Nat) (f : Retired → Retired) : (s.modRetired stack group f).cycle = s.cycle := rfl
@[simp] theorem State.modRetired_nextId (s : State) (stack group : Nat) (f : Retired → Retired) : (s.modRetired stack group f).nextId = s.nextId := rfl
@[simp] theorem State.modRetired_free (s : State) (stack group : Nat) (f : Retired → Retired) : (s.modRetired stack group f).free = s.free := rfl
@[simp] theorem State.modRetired_moduleNo (s : State) (stack group : Nat) (f : Retired → Retired) : (s.modRetired stack group f).moduleNo = s.moduleNo := rfl
@[simp] theorem State.modRetired_mem (s : State) (stack group : Nat) (f : Retired → Retired) : (s.modRetired stack group f).mem = s.mem := rfl
@[simp] theorem State.modRetired_eng (s : State) (stack group : Nat) (f : Retired → Retired) : (s.modRetired stack group f).eng = s.eng := rfl
@[simp] theorem State.modRetired_vnp (s : State) (stack group : Nat) (f : Retired → Retired) : (s.modRetired stack group f).vnp = s.vnp := rfl
@[simp] theorem State.modRetired_cp (s : State) (stack group : Nat) (f : Retired → Retired) : (s.modRetired stack group f).cp = s.cp := rfl
@[simp] theorem State.modRetired_module (s : State) (stack group : Nat) (f : Retired → Retired) : (s.modRetired stack group f).module = s.module := rfl
@[simp] theorem State.modRetired_bindings (s : State) (stack group : Nat) (f : Retired → Retired) : (s.modRetired stack group f).bindings = s.bindings := rfl
@[simp] theorem State.modRetired_ptc (s : State) (stack group : Nat) (f : Retired → Retired) : (s.modRetired stack group f).ptc = s.ptc := rfl

/-! ### noteLate -/

@[simp] theorem State.noteLate_threads (s : State) (is : Issue) (second : Option Issue) (ts : List Tid) : (s.noteLate is second ts).threads = s.threads := rfl
@[simp] theorem State.noteLate_cohorts (s : State) (is : Issue) (second : Option Issue) (ts : List Tid) : (s.noteLate is second ts).cohorts = s.cohorts := rfl
@[simp] theorem State.noteLate_teams (s : State) (is : Issue) (second : Option Issue) (ts : List Tid) : (s.noteLate is second ts).teams = s.teams := rfl
@[simp] theorem State.noteLate_barriers (s : State) (is : Issue) (second : Option Issue) (ts : List Tid) : (s.noteLate is second ts).barriers = s.barriers := rfl
@[simp] theorem State.noteLate_parts (s : State) (is : Issue) (second : Option Issue) (ts : List Tid) : (s.noteLate is second ts).parts = s.parts := rfl
@[simp] theorem State.noteLate_launches (s : State) (is : Issue) (second : Option Issue) (ts : List Tid) : (s.noteLate is second ts).launches = s.launches := rfl
@[simp] theorem State.noteLate_traps (s : State) (is : Issue) (second : Option Issue) (ts : List Tid) : (s.noteLate is second ts).traps = s.traps := rfl
@[simp] theorem State.noteLate_issue (s : State) (is : Issue) (second : Option Issue) (ts : List Tid) : (s.noteLate is second ts).issue = s.issue := rfl
@[simp] theorem State.noteLate_sched (s : State) (is : Issue) (second : Option Issue) (ts : List Tid) : (s.noteLate is second ts).sched = s.sched := rfl
@[simp] theorem State.noteLate_cycle (s : State) (is : Issue) (second : Option Issue) (ts : List Tid) : (s.noteLate is second ts).cycle = s.cycle := rfl
@[simp] theorem State.noteLate_nextId (s : State) (is : Issue) (second : Option Issue) (ts : List Tid) : (s.noteLate is second ts).nextId = s.nextId := rfl
@[simp] theorem State.noteLate_free (s : State) (is : Issue) (second : Option Issue) (ts : List Tid) : (s.noteLate is second ts).free = s.free := rfl
@[simp] theorem State.noteLate_moduleNo (s : State) (is : Issue) (second : Option Issue) (ts : List Tid) : (s.noteLate is second ts).moduleNo = s.moduleNo := rfl
@[simp] theorem State.noteLate_mem (s : State) (is : Issue) (second : Option Issue) (ts : List Tid) : (s.noteLate is second ts).mem = s.mem := rfl
@[simp] theorem State.noteLate_eng (s : State) (is : Issue) (second : Option Issue) (ts : List Tid) : (s.noteLate is second ts).eng = s.eng := rfl
@[simp] theorem State.noteLate_rel (s : State) (is : Issue) (second : Option Issue) (ts : List Tid) : (s.noteLate is second ts).rel = s.rel := rfl
@[simp] theorem State.noteLate_vnp (s : State) (is : Issue) (second : Option Issue) (ts : List Tid) : (s.noteLate is second ts).vnp = s.vnp := rfl
@[simp] theorem State.noteLate_cp (s : State) (is : Issue) (second : Option Issue) (ts : List Tid) : (s.noteLate is second ts).cp = s.cp := rfl
@[simp] theorem State.noteLate_module (s : State) (is : Issue) (second : Option Issue) (ts : List Tid) : (s.noteLate is second ts).module = s.module := rfl
@[simp] theorem State.noteLate_bindings (s : State) (is : Issue) (second : Option Issue) (ts : List Tid) : (s.noteLate is second ts).bindings = s.bindings := rfl
@[simp] theorem State.noteLate_ptc (s : State) (is : Issue) (second : Option Issue) (ts : List Tid) : (s.noteLate is second ts).ptc = s.ptc := rfl

/-! ### noteAhead -/

@[simp] theorem State.noteAhead_threads (s : State) (is : Issue) (second : Issue) (ts : List Tid) : (s.noteAhead is second ts).threads = s.threads := rfl
@[simp] theorem State.noteAhead_cohorts (s : State) (is : Issue) (second : Issue) (ts : List Tid) : (s.noteAhead is second ts).cohorts = s.cohorts := rfl
@[simp] theorem State.noteAhead_teams (s : State) (is : Issue) (second : Issue) (ts : List Tid) : (s.noteAhead is second ts).teams = s.teams := rfl
@[simp] theorem State.noteAhead_barriers (s : State) (is : Issue) (second : Issue) (ts : List Tid) : (s.noteAhead is second ts).barriers = s.barriers := rfl
@[simp] theorem State.noteAhead_parts (s : State) (is : Issue) (second : Issue) (ts : List Tid) : (s.noteAhead is second ts).parts = s.parts := rfl
@[simp] theorem State.noteAhead_launches (s : State) (is : Issue) (second : Issue) (ts : List Tid) : (s.noteAhead is second ts).launches = s.launches := rfl
@[simp] theorem State.noteAhead_traps (s : State) (is : Issue) (second : Issue) (ts : List Tid) : (s.noteAhead is second ts).traps = s.traps := rfl
@[simp] theorem State.noteAhead_issue (s : State) (is : Issue) (second : Issue) (ts : List Tid) : (s.noteAhead is second ts).issue = s.issue := rfl
@[simp] theorem State.noteAhead_late (s : State) (is : Issue) (second : Issue) (ts : List Tid) : (s.noteAhead is second ts).late = s.late ++ ts.map fun t => { tid := t, issue := is, second := some second } := rfl
@[simp] theorem State.noteAhead_sched (s : State) (is : Issue) (second : Issue) (ts : List Tid) : (s.noteAhead is second ts).sched = s.sched := rfl
@[simp] theorem State.noteAhead_cycle (s : State) (is : Issue) (second : Issue) (ts : List Tid) : (s.noteAhead is second ts).cycle = s.cycle := rfl
@[simp] theorem State.noteAhead_nextId (s : State) (is : Issue) (second : Issue) (ts : List Tid) : (s.noteAhead is second ts).nextId = s.nextId := rfl
@[simp] theorem State.noteAhead_free (s : State) (is : Issue) (second : Issue) (ts : List Tid) : (s.noteAhead is second ts).free = s.free := rfl
@[simp] theorem State.noteAhead_moduleNo (s : State) (is : Issue) (second : Issue) (ts : List Tid) : (s.noteAhead is second ts).moduleNo = s.moduleNo := rfl
@[simp] theorem State.noteAhead_mem (s : State) (is : Issue) (second : Issue) (ts : List Tid) : (s.noteAhead is second ts).mem = s.mem := rfl
@[simp] theorem State.noteAhead_eng (s : State) (is : Issue) (second : Issue) (ts : List Tid) : (s.noteAhead is second ts).eng = s.eng := rfl
@[simp] theorem State.noteAhead_rel (s : State) (is : Issue) (second : Issue) (ts : List Tid) : (s.noteAhead is second ts).rel = s.rel := rfl
@[simp] theorem State.noteAhead_vnp (s : State) (is : Issue) (second : Issue) (ts : List Tid) : (s.noteAhead is second ts).vnp = s.vnp := rfl
@[simp] theorem State.noteAhead_cp (s : State) (is : Issue) (second : Issue) (ts : List Tid) : (s.noteAhead is second ts).cp = s.cp := rfl
@[simp] theorem State.noteAhead_module (s : State) (is : Issue) (second : Issue) (ts : List Tid) : (s.noteAhead is second ts).module = s.module := rfl
@[simp] theorem State.noteAhead_bindings (s : State) (is : Issue) (second : Issue) (ts : List Tid) : (s.noteAhead is second ts).bindings = s.bindings := rfl
@[simp] theorem State.noteAhead_ptc (s : State) (is : Issue) (second : Issue) (ts : List Tid) : (s.noteAhead is second ts).ptc = s.ptc := rfl

/-! ### nextSeq -/

@[simp] theorem State.nextSeq_threads (s : State) : s.nextSeq.2.threads = s.threads := rfl
@[simp] theorem State.nextSeq_cohorts (s : State) : s.nextSeq.2.cohorts = s.cohorts := rfl
@[simp] theorem State.nextSeq_teams (s : State) : s.nextSeq.2.teams = s.teams := rfl
@[simp] theorem State.nextSeq_barriers (s : State) : s.nextSeq.2.barriers = s.barriers := rfl
@[simp] theorem State.nextSeq_parts (s : State) : s.nextSeq.2.parts = s.parts := rfl
@[simp] theorem State.nextSeq_launches (s : State) : s.nextSeq.2.launches = s.launches := rfl
@[simp] theorem State.nextSeq_traps (s : State) : s.nextSeq.2.traps = s.traps := rfl
@[simp] theorem State.nextSeq_issue (s : State) : s.nextSeq.2.issue = s.issue := rfl
@[simp] theorem State.nextSeq_late (s : State) : s.nextSeq.2.late = s.late := rfl
@[simp] theorem State.nextSeq_sched (s : State) : s.nextSeq.2.sched = s.sched := rfl
@[simp] theorem State.nextSeq_cycle (s : State) : s.nextSeq.2.cycle = s.cycle := rfl
@[simp] theorem State.nextSeq_nextId (s : State) : s.nextSeq.2.nextId = s.nextId := rfl
@[simp] theorem State.nextSeq_free (s : State) : s.nextSeq.2.free = s.free := rfl
@[simp] theorem State.nextSeq_moduleNo (s : State) : s.nextSeq.2.moduleNo = s.moduleNo := rfl
@[simp] theorem State.nextSeq_mem (s : State) : s.nextSeq.2.mem = s.mem := rfl
@[simp] theorem State.nextSeq_eng (s : State) : s.nextSeq.2.eng = s.eng := rfl
@[simp] theorem State.nextSeq_rel (s : State) : s.nextSeq.2.rel = s.rel := rfl
@[simp] theorem State.nextSeq_vnp (s : State) : s.nextSeq.2.vnp = { s.vnp with seq := s.vnp.seq + 1 } := rfl
@[simp] theorem State.nextSeq_cp (s : State) : s.nextSeq.2.cp = s.cp := rfl
@[simp] theorem State.nextSeq_module (s : State) : s.nextSeq.2.module = s.module := rfl
@[simp] theorem State.nextSeq_bindings (s : State) : s.nextSeq.2.bindings = s.bindings := rfl
@[simp] theorem State.nextSeq_ptc (s : State) : s.nextSeq.2.ptc = s.ptc := rfl
@[simp] theorem State.nextSeq_fst (s : State) : s.nextSeq.1 = s.vnp.seq + 1 := rfl

/-! ### setCounter -/

@[simp] theorem State.setCounter_threads (s : State) (place : CtrPlace) (n : Nat) (c : EvCounter) : (s.setCounter place n c).threads = s.threads := rfl
@[simp] theorem State.setCounter_cohorts (s : State) (place : CtrPlace) (n : Nat) (c : EvCounter) : (s.setCounter place n c).cohorts = s.cohorts := rfl
@[simp] theorem State.setCounter_teams (s : State) (place : CtrPlace) (n : Nat) (c : EvCounter) : (s.setCounter place n c).teams = s.teams := rfl
@[simp] theorem State.setCounter_barriers (s : State) (place : CtrPlace) (n : Nat) (c : EvCounter) : (s.setCounter place n c).barriers = s.barriers := rfl
@[simp] theorem State.setCounter_parts (s : State) (place : CtrPlace) (n : Nat) (c : EvCounter) : (s.setCounter place n c).parts = s.parts := rfl
@[simp] theorem State.setCounter_launches (s : State) (place : CtrPlace) (n : Nat) (c : EvCounter) : (s.setCounter place n c).launches = s.launches := rfl
@[simp] theorem State.setCounter_traps (s : State) (place : CtrPlace) (n : Nat) (c : EvCounter) : (s.setCounter place n c).traps = s.traps := rfl
@[simp] theorem State.setCounter_issue (s : State) (place : CtrPlace) (n : Nat) (c : EvCounter) : (s.setCounter place n c).issue = s.issue := rfl
@[simp] theorem State.setCounter_late (s : State) (place : CtrPlace) (n : Nat) (c : EvCounter) : (s.setCounter place n c).late = s.late := rfl
@[simp] theorem State.setCounter_sched (s : State) (place : CtrPlace) (n : Nat) (c : EvCounter) : (s.setCounter place n c).sched = s.sched := rfl
@[simp] theorem State.setCounter_cycle (s : State) (place : CtrPlace) (n : Nat) (c : EvCounter) : (s.setCounter place n c).cycle = s.cycle := rfl
@[simp] theorem State.setCounter_nextId (s : State) (place : CtrPlace) (n : Nat) (c : EvCounter) : (s.setCounter place n c).nextId = s.nextId := rfl
@[simp] theorem State.setCounter_free (s : State) (place : CtrPlace) (n : Nat) (c : EvCounter) : (s.setCounter place n c).free = s.free := rfl
@[simp] theorem State.setCounter_moduleNo (s : State) (place : CtrPlace) (n : Nat) (c : EvCounter) : (s.setCounter place n c).moduleNo = s.moduleNo := rfl
@[simp] theorem State.setCounter_mem (s : State) (place : CtrPlace) (n : Nat) (c : EvCounter) : (s.setCounter place n c).mem = s.mem := rfl
@[simp] theorem State.setCounter_eng (s : State) (place : CtrPlace) (n : Nat) (c : EvCounter) : (s.setCounter place n c).eng = s.eng := rfl
@[simp] theorem State.setCounter_rel (s : State) (place : CtrPlace) (n : Nat) (c : EvCounter) : (s.setCounter place n c).rel = s.rel := rfl
@[simp] theorem State.setCounter_vnp (s : State) (place : CtrPlace) (n : Nat) (c : EvCounter) : (s.setCounter place n c).vnp = s.vnp := rfl
@[simp] theorem State.setCounter_cp (s : State) (place : CtrPlace) (n : Nat) (c : EvCounter) : (s.setCounter place n c).cp = s.cp := rfl
@[simp] theorem State.setCounter_module (s : State) (place : CtrPlace) (n : Nat) (c : EvCounter) : (s.setCounter place n c).module = { s.module with counters := tput s.module.counters (place, n) c } := rfl
@[simp] theorem State.setCounter_bindings (s : State) (place : CtrPlace) (n : Nat) (c : EvCounter) : (s.setCounter place n c).bindings = s.bindings := rfl
@[simp] theorem State.setCounter_ptc (s : State) (place : CtrPlace) (n : Nat) (c : EvCounter) : (s.setCounter place n c).ptc = s.ptc := rfl

end Sys2Proof.Machine
end

