-- ==== Sys2Proof/Tests/Slice0.lean ====
section
/-!
SUPPORT. Tests: an ill-formed term for each check of WellFormed, one word written out from the spec's encodings for every
family, single steps, and the witnesses that the hypotheses of the obligations can be met.
-/

namespace Sys2Proof.Tests

/-- The guard of a statement that has none (R54). -/
def always : Guard := { tt := 0xFF#8, pa := 0, pb := 0, pc := 0 }

/-- A g-register source. -/
def g (n : Fin 16) : Src := .reg (.g n) .same

/-- A w-register source. -/
def w (n : Fin 32) : Src := .reg (.w n) .same

/-- An s-register source. -/
def sh (n : Fin 32) : Src := .reg (.s n) .same

/-- A g-register result in latch 0. -/
def toG (n : Fin 16) : Dest := { reg := .g n, wbs := false, rl := 0 }

/-- Engine fields with none of them used (R348). -/
def plainCom : ECom := { tk := none, gq := none, nbt := none }

/-! ### Well-formedness -/

theorem test_wf_add : wellFormed (.add always (toG 1) (g 2) (.src (g 3)) false) = true := by decide

/-- A k-register is no destination (R22). -/
theorem test_wf_dest_special : wellFormed (.add always { reg := .k 1, wbs := false, rl := 0 } (g 2) (.imm 5#12) false) = false := by decide

/-- A pair destination is even (R24). -/
theorem test_wf_dest_odd_pair : wellFormed (.lea always (toG 3) (g 2) 0#24) = false := by decide

/-- A pair source is even (R24). -/
theorem test_wf_src_odd_pair : wellFormed (.lea always (toG 2) (g 3) 0#24) = false := by decide

/-- A pair position names no latch (R53). -/
theorem test_wf_src_latch_pair : wellFormed (.lea always (toG 2) (.latch 0 .same) 0#24) = false := by decide

/-- An s-register is read without a permute pattern (R51). -/
theorem test_wf_perm_shared : wellFormed (.mov always (toG 1) (.reg (.s 1) .rev)) = false := by decide

/-- Replication stands in the R form alone (R51). -/
theorem test_wf_perm_form : wellFormed (.ld always (toG 2) (.reg (.g 4) (.repl 3)) 0#24 .w32) = false := by decide

/-- All replicating sources of an instruction name one lane (R52). -/
theorem test_wf_perm_lanes : wellFormed (.add always (toG 1) (.reg (.g 2) (.repl 3)) (.src (.reg (.g 3) (.repl 4))) false) = false := by decide

/-- CVT is not for two integer formats (R169). -/
theorem test_wf_cvt : wellFormed (.cvt always (toG 1) (g 2) none .s32 .n16 .rne false 0 0) = false := by decide

/-- A merge base names a register (R167). -/
theorem test_wf_base : wellFormed (.cvt always (toG 1) (g 2) (some (.latch 0 .same)) .f16 .f32 .rne false 0 0) = false := by decide

/-- CVTSR takes f32, f16 or bf16 (R170). -/
theorem test_wf_cvtsr : wellFormed (.cvtsr always (toG 1) (g 2) (g 3) none .e4m3 .e5m2 false 0 0) = false := by decide

/-- CVTI is for integer formats (R171). -/
theorem test_wf_cvti : wellFormed (.cvti always (toG 1) (g 2) none .s16 .f32 false 0 0) = false := by decide

/-- PACK2 takes four pairs of formats (R172). -/
theorem test_wf_pack2 : wellFormed (.pack2 always (toG 1) (g 2) (g 3) .f16 .bf16 .rne false) = false := by decide

/-- UNPK2 takes four pairs of formats (R172). -/
theorem test_wf_unpk2 : wellFormed (.unpk2 always (toG 2) (g 2) .f16 .bf16) = false := by decide

/-- LCDEC to s8 reads no scale (R173). -/
theorem test_wf_lcdec : wellFormed (.lcdec always (toG 2) (g 2) (some (g 3)) .s8 .rne 0) = false := by decide

/-- QNT's targets (R175). -/
theorem test_wf_qnt : wellFormed (.qnt always (toG 1) (g 2) (g 3) none .f32 .rne 0) = false := by decide

/-- DQNT's sources (R175). -/
theorem test_wf_dqnt : wellFormed (.dqnt always (toG 1) (g 2) (g 3) .n32 .rne 0) = false := by decide

/-- E8EXT's targets (R174). -/
theorem test_wf_e8ext : wellFormed (.e8ext always (toG 1) (g 2) none .f32 0) = false := by decide

/-- A quantising CVTF has no source index (R176). -/
theorem test_wf_cvtf : wellFormed (.cvtf always (toG 1) (g 2) (g 3) none false 1 0 0) = false := by decide

/-- The data of a two-register store is no k-register (R146). -/
theorem test_wf_data : wellFormed (.st always (g 2) (.reg (.k 2) .same) 0#24 .b64) = false := by decide

/-- A fence with none of its three bits is illegal (R331). -/
theorem test_wf_fence : wellFormed (.fence always .die false false false) = false := by decide

/-- A reader count of 0 is illegal (R333). -/
theorem test_wf_strc : wellFormed (.strc always (g 2) (g 4) 0#24 0#8 .b32) = false := by decide

/-- An addition has no sign (R337). -/
theorem test_wf_redi : wellFormed (.redi always (g 2) (g 4) 0#24 .add true .w4) = false := by decide

/-- Only a team barrier counts bytes (R222). -/
theorem test_wf_barx : wellFormed (.barx always (g 2) { lev := .cohort, num := 1 } false) = false := by decide

/-- A register group of RGN stays in its block (R227). -/
theorem test_wf_rgn : wellFormed (.rgn always (some (.g 14)) 3) = false := by decide

/-- TSEAL's handle goes to an s-register pair (R396). -/
theorem test_wf_tseal : wellFormed (.tseal always (toG 2) (g 2) 3 .tensor) = false := by decide

/-- The read of CERQ7 has its own instruction. -/
theorem test_wf_rdsys : wellFormed (.rdsys always (toG 1) (.cerq 7)) = false := by decide

/-- ADD's opcode is assigned (R119). -/
theorem test_wf_unassigned : wellFormed (.unassignedOpcode 0x00FF00000000000000000000#96) = false := by decide

/-! ### Words of the spec's encodings -/

/-- Integer group, R54's guard: `?(p1 & ~p2) ADD g3:l1, g4, w2.x1`, printed in 01. -/
theorem test_decode_add : decode 0x003028106080242000000000#96 =
    .ok (.add { tt := 0x30#8, pa := 1, pb := 2, pc := 0 } { reg := .g 3, wbs := false, rl := 1 } (g 4) (.src (.reg (.w 2) (.bfly 0))) false) := rfl

/-- Compare group: `ICMP.s.lt.and p2, g1, 100`, printed in 04. -/
theorem test_decode_icmp : decode 0x30FF000020200C8001000009#96 = .ok (.icmpS always 1 (g 1) (.imm 100#12) .lt .and) := rfl

/-- Floating group: `FDOT8.e2m1 g1, g2, g3, g4`, printed in 05. -/
theorem test_decode_fdot8 : decode 0x57FF00002040060080000140#96 =
    .ok (.fdot8 always (toG 1) (g 2) (g 3) (g 4) .rne false false false false .e2m1 .e2m1) := rfl

/-- Conversion group: `CVT.f32.s32 g1, g2`: TO = 1000 at [24:21] and FROM = 0110 at [20:17] (R166). -/
theorem test_decode_cvt : decode 0x60FF000020400000010C0000#96 = .ok (.cvt always (toG 1) (g 2) none .f32 .s32 .rne false 0 0) := rfl

/-- Control group: a branch one line back, to slot 0 (R46, R48). -/
theorem test_decode_bra : decode 0x70FF00000001FFFFFFFE0000#96 = .ok (.bra always { off := 0xFFFFFFFF#32, slot := 0 }) := rfl

/-- Memory group: the store of 15, guarded by `?(p4 | p3)`. -/
theorem test_decode_st : decode 0x81FC8C0000801C0000200004#96 =
    .ok (.st { tt := 0xFC#8, pa := 4, pb := 3, pc := 0 } (g 4) (g 14) 256#24 .b32) := rfl

/-- Memory group: `STW` of 21. -/
theorem test_decode_stw : decode 0x870C18000000140000000004#96 =
    .ok (.stw { tt := 0x0C#8, pa := 0, pb := 6, pc := 0 } (g 0) (g 10) 0#24 0 0 .wait .b32) := rfl

/-- Memory group: `?(p6) DSCR [w4], w13`, printed in 17. -/
theorem test_decode_dscr : decode 0x93F0C00002803A0000000000#96 =
    .ok (.dscr { tt := 0xF0#8, pa := 6, pb := 0, pc := 0 } (w 4) (w 13) 0#24) := rfl

/-- Atomic group: `ACAS g4, [g10+8], g6`, printed in 11. -/
theorem test_decode_acas : decode 0xA5FF000081400C0000010004#96 = .ok (.acas always (toG 4) (g 10) (g 6) 8#24 .w4) := rfl

/-- Parallel group: `BARWT.wo p2, b3, g4`, printed in 07. -/
theorem test_decode_barwt : decode 0xB6FF0000208000000000004D#96 = .ok (.barwt always 1 (g 4) { lev := .team, num := 3 } true) := rfl

/-- Engine group: `TMMA.fs(f1).tk(s6) a5, s8, s10`, printed in 14. -/
theorem test_decode_tmma : decode 0xC5FF00000700740001300828#96 =
    .ok (.tmma always (sh 8) (sh 10) { plainCom with tk := some 6 } 1 5 false) := rfl

/-- Engine group: `BANKRUN.tk(s20) s4, g13`, printed in 16. -/
theorem test_decode_bankrun : decode 0xCCFF000006801A0001A00000#96 =
    .ok (.bankrun always (sh 4) (g 13) { plainCom with tk := some 20 }) := rfl

/-- Engine group: the COLL of 24 with its not-before pair in k20. -/
theorem test_decode_coll : decode 0xCFFF00000700000C81A00400#96 =
    .ok (.coll always (sh 8) { tk := some 20, gq := none, nbt := some (.reg (.k 20) .same) }) := rfl

/-- System group: `TRAP 5`: the immediate at [48:17] (R46, R154). -/
theorem test_decode_trap : decode 0xE0FF000000000000000A0000#96 = .ok (.trap always 5#32) := rfl

/-- An opcode of R120 that no instruction has (R68). -/
theorem test_decode_unassigned : decode 0xFFFF00000000000000000000#96 = .ok (.unassignedOpcode 0xFFFF00000000000000000000#96) := rfl

/-- A source index that names no register is refused with cause register (R22, R68). -/
theorem test_decode_register : decode 0x00FF00002E00060000000000#96 = .error .register := rfl

/-- A reserved permute pattern is refused with cause permute (R51). -/
theorem test_decode_permute : decode 0x00FF0000205E060000000000#96 = .error .permute := rfl

/-- Modifier bits that ADD does not assign are refused with cause modifier (R68). -/
theorem test_decode_modifier : decode 0x00FF00002040060000000001#96 = .error .modifier := rfl

/-! ### States that meet the hypotheses of the obligations -/

open Machine

/-- A core, a team, a cohort and a thread of setupLaunch. -/
def core0 : CoreId := { die := 0, core := 0 }
def team0 : TeamId := { lid := 1, k3 := 0 }
def coh0 : CohId := { team := team0, k1 := 0 }
def tid0 : Tid := { coh := coh0, lane := 0 }
def tid1 : Tid := { coh := coh0, lane := 1 }

/-- A thread in its slot: words to compute with, addresses of four regions, the last slot of the address space and two times. -/
def th0 : Thread :=
  { Thread.blank with
    status := .inRun, preds := 1#8, spa := 0x1000#57,
    g := #v[0#32, 5#32, 7#32, 1#32, 0x1000#32, 0#32, 0xFFFFFFF0#32, 0x01FFFFFF#32, 0x2000#32, 0#32, 0x3000#32, 0#32, 0x4000#32, 0#32,
            1#32, 5#32] }

/-- Its cohort, and its team with a scratch byte, one full word and one handle of each kind of record. -/
def co0 : Cohort := newCohort setupPlace 0
def tensor0 (rows cols rstr lay planes : Nat) (elem : Fmt) : TensorRec :=
  { base := 0, rows := rows, cols := cols, rstr := rstr, lay := lay, planes := planes, elem := elem }
def tm0 : Team := newTeam setupRec setupPlace 0 0 0 0 0 0#57 noSlots

/-- A launch with regions of every kind and a format slot of each use. -/
def region0 (base : Nat) (kind : RegKind) (gate : Nat) : Region :=
  { base := base, limit := base + 0x1000, kind := kind, dom := .die, inst := 0, gate := gate, nonIdem := false, untagged := false }
def launch0 : Launch :=
  let slot (e : Fmt) (sc : Option Bool) : FormatSlot := { valid := true, elem := e, scale := sc, block := 1, rm := .rne, planes := 4 }
  { setupLaunch with
    desc := { setupRec with fmts := ((setupRec.fmts.set 0 (slot .e4m3 (some true))).set 1 (slot .lc2 (some true))).set 2 (slot .f32 (some false)) },
    regions := [region0 0x1000 .plain 1, region0 0x2000 .subscribed 0, region0 0x3000 .memside 0, region0 0x4000 .weight 0] }

/-- The issue of the group of that thread alone. -/
def is0 : Issue :=
  { part := { core := core0, part := 0 }, pc := 0#57, word := nopWord, tids := [tid0], second := false, rsl := 0, tpl := 0, dpm := 0#8 }

/-- A table for its address space: page 0 in frame 0, page 1 remote, page 2 in frame 5 under a lease and used, page 3 in frame 6 owned and
dirty, page 4 in frame 7 not used. -/
def pages0 : List Host.Cell :=
  [(0, 1#8), (2, 1#8), (0x800, 1#8), (0x10000, 1#8), (0x10002, 2#8), (0x20000, 1#8), (0x20002, 3#8), (0x30000, 0x7F#8), (0x30001, 1#8),
   (0x30008, 0x0A#8), (0x30009, 1#8), (0x30010, 0x2B#8), (0x30011, 1#8), (0x30012, 5#8), (0x30018, 0x6F#8), (0x30019, 1#8),
   (0x3001A, 6#8), (0x30020, 0x0B#8), (0x30021, 1#8), (0x30022, 7#8)]

/-- The machine in the midst of that issue, its first page mapped. -/
def stOf (th : Thread) (co : Cohort) (m : Team) : State :=
  { State.reset with
    threads := [(tid0, th)], cohorts := [(coh0, co)], teams := [(team0, m)], launches := [launch0], issue := some is0,
    ptc := 0x500000000#64, module := { Module.reset with booted := true },
    mem := { MemSys.reset with dram := pages0, coreTlb := [(core0, [setupLeaf])] } }
def st0 : State := stOf th0 co0 tm0

theorem witness_always (th : Thread) : guardTrue always th = true := by
  simp only [guardTrue, always]; cases th.reads 0 <;> rfl

theorem witness_thread_executes (th : Thread) (co : Cohort) (m : Team) : Executes (stOf th co m) is0 always tid0 th :=
  ⟨rfl, List.mem_singleton.mpr rfl, rfl, witness_always th⟩

theorem witness_group (th : Thread) (co : Cohort) (m : Team) : (stOf th co m).execs always = [tid0] := by
  simp [State.execs, State.group, stOf, is0, witness_always]

theorem witness_executes : Executes st0 is0 always tid0 th0 := witness_thread_executes th0 co0 tm0

theorem witness_TwoSourceIntegerInstructionsCompute :
    Executes st0 is0 always tid0 th0 ∧ readSrc st0 tid0 (g 1) = .ok 5#32 ∧ readB st0 tid0 (.src (g 0)) = .ok 0#32 ∧
    readB st0 tid0 (.imm 0x800#12) = .ok 0xFFFFF800#32 := ⟨witness_executes, rfl, rfl, rfl⟩

theorem witness_OtherIntegerInstructionsCompute :
    readSrc st0 tid0 (g 1) = .ok 5#32 ∧ readB st0 tid0 (.imm 0x7FF#12) = .ok 0x7FF#32 ∧ readSrc st0 tid0 (g 3) = .ok 1#32 ∧
    readPair st0 tid0 (g 4) = .ok 0x1000#64 ∧ readPair st0 tid0 (g 6) = .ok 0x01FFFFFFFFFFFFF0#64 := ⟨rfl, rfl, rfl, rfl, rfl⟩

theorem witness_ComparesAndPredicateMovesComplete :
    readSrc st0 tid0 (g 4) = .ok 0x1000#32 ∧ readB st0 tid0 (.src (g 2)) = .ok 7#32 ∧ readSrc st0 tid0 (g 0) = .ok 0#32 ∧
    readPair st0 tid0 (g 4) = .ok 0x1000#64 ∧ readPair st0 tid0 (g 0) = .ok 0x500000000#64 := ⟨rfl, rfl, rfl, rfl, rfl⟩

theorem witness_FloatingInstructionsCompute :
    readSrc st0 tid0 (g 6) = .ok 0xFFFFFFF0#32 ∧ readSrc st0 tid0 (g 2) = .ok 7#32 ∧ readNat st0 tid0 (g 4) DotFmt.e4m3.regs = .ok 0x1000 ∧
    readNat st0 tid0 (g 2) DotFmt.e2m1.regs = .ok 7 ∧ (∀ fl : FlagSet, fl &&& tenOf st0 tid0 = 0#5) ∧
    (let s : State := { st0 with launches := [{ launch0 with desc := { launch0.desc with ten := 31#5 } }] }
     Executes s is0 always tid0 th0 ∧ 1#5 &&& tenOf s tid0 ≠ 0#5) :=
  ⟨rfl, rfl, rfl, rfl, fun _ => BitVec.and_zero, ⟨rfl, List.mem_singleton.mpr rfl, rfl, witness_always th0⟩, by decide⟩

theorem witness_ApproximatedFunctionsCompute : readSrc st0 tid0 (g 0) = .ok 0#32 ∧ readSrc st0 tid0 (g 7) = .ok 0x01FFFFFF#32 := ⟨rfl, rfl⟩

theorem witness_ConversionsCompute :
    readNat st0 tid0 (g 4) Fmt.f32.regs = .ok 0x1000 ∧ readSrc st0 tid0 (g 2) = .ok 7#32 ∧ readBase st0 tid0 none = .ok none ∧
    readBase st0 tid0 (some (g 3)) = .ok (some 1#32) ∧ ∃ f, formatSlot st0 0 = some f ∧ f.valid = true ∧ f.scale = some true ∧
    quantFmt f.elem = true ∧ idxOk f.elem 3 = true := ⟨rfl, rfl, rfl, rfl, _, rfl, rfl, rfl, rfl, rfl⟩

theorem witness_BranchesAndLoopsComplete :
    readPair st0 tid0 (g 6) = .ok 0x01FFFFFFFFFFFFF0#64 ∧ 0x01FFFFFFFFFFFFF0 < 2 ^ 57 ∧ 0x01FFFFFFFFFFFFF0 % 64 = 48 ∧
    readReg st0 tid0 (.g 3) - 1#32 = 0#32 ∧ Lands st0 always tid0 th0 (.g 3) 1 ∧ Lands st0 always tid0 th0 (.s 31) 1 ∧
    tid0 ∈ st0.execs always ∧ (st0.thread tid0).reads 0 = true ∧ ∀ u ∈ st0.execs always, (st0.thread u).reads 1 = false :=
  ⟨rfl, by decide, by decide, by decide, (by decide : 3 + 1 ≤ 16), ⟨by decide, rfl, rfl⟩, by decide, rfl, by decide⟩

/-- A thread that has called. -/
def th1 : Thread := { th0 with wb := 1, wres := 1, wdep := 1 }

theorem witness_CallsSlideTheWindow :
    readPair st0 tid0 (g 6) = .ok 0x01FFFFFFFFFFFFF0#64 ∧ th0.wdep ≠ 65535 ∧ th0.wres ≠ th0.frames - 2 ∧ 2 ≤ th0.depth ∧
    Executes (stOf th1 co0 tm0) is0 always tid0 th1 ∧ th1.wdep ≠ 0 ∧ th1.wres ≠ 0 ∧ th0.depth = 16 * th0.frames ∧
    (∀ th ∈ [{ th0 with wdep := 65535 }, { th0 with wres := th0.frames - 2 }, { th0 with wdep := 1 }],
      Executes (stOf th co0 tm0) is0 always tid0 th) ∧ th0.wdep = 0 ∧ th0.wres = 0 ∧
    readPair (stOf { th0 with g := th0.g.set 0 4#32 } co0 tm0) tid0 (g 0) = .ok 0x500000004#64 ∧ 0x500000004 % 64 % 12 ≠ 0 ∧
    st0.issue = some is0 ∧ tid0 ∈ is0.tids ∧ tget st0.threads tid0 = some th0 ∧ guardTrue { always with tt := 0#8 } th0 = false := by
  refine ⟨rfl, by decide, by decide, by decide, witness_thread_executes th1 co0 tm0, by decide, by decide, rfl, ?_, rfl, rfl, rfl,
    by decide, rfl, by decide, rfl, rfl⟩
  intro th _; exact witness_thread_executes th co0 tm0

/-- A cohort within a SPLIT of its thread alone. -/
def co1 : Cohort := { co0 with conv := [{ join := 0#57, mask := 1#32, arrived := 0#32 }] }

theorem witness_ConvergenceAndElectionsComplete :
    (st0.execs always).head? = some tid0 ∧ tget st0.cohorts coh0 = some co0 ∧ co0.conv.length < 16 ∧
    (let s := stOf th0 co1 tm0
     let e : ConvEntry := { join := 0#57, mask := 1#32, arrived := 0#32 }
     tget s.cohorts coh0 = some co1 ∧ co1.conv = e :: [] ∧ e.join = is0.pc ∧ inMask e.mask tid0.lane = true ∧
     ({ e with arrived := e.arrived ||| (laneMask (s.execs always) &&& e.mask) } : ConvEntry).complete = true ∧ 0 < co1.conv.length ∧
     (s.cohort coh0).conv = e :: [] ∧ th0.status = .inRun ∧ (∀ x ∈ s.execs always, inMask e.mask x.lane = true) ∧
     inMask e.mask tid1.lane = false) ∧
    (let e : ConvEntry := { join := 0#57, mask := 3#32, arrived := 0#32 }
     ({ e with arrived := e.arrived ||| (laneMask (st0.execs always) &&& e.mask) } : ConvEntry).complete = false) :=
  ⟨rfl, rfl, by decide, ⟨rfl, rfl, rfl, rfl, by decide, by decide, rfl, rfl, by decide, rfl⟩, by decide⟩

/-- The machine with a pass of its core's scratchpad still to come. -/
def stPass : State :=
  { st0 with mem := { st0.mem with passes := [{ due := st0.cycle + 1, exec := 1, tid := tid0, off := 0, op := .write [7#8] }] } }

theorem witness_ScratchLoadsAndStoresComplete :
    tget st0.teams team0 = some tm0 ∧ readSrc st0 tid0 (g 0) = .ok 0#32 ∧ (0 : Int) + (0x0FFFF0#24).toInt = 0xFFFF0 ∧
    0xFFFF0 % LdSize.q128.bytes = 0 ∧ 0xFFFF0 + LdSize.q128.bytes ≤ st0.scrOf team0 ∧ readNat st0 tid0 (g 4) StSize.b64.regs = .ok 0x1000 ∧
    0xFFFF0 % StSize.b64.bytes = 0 ∧ 0xFFFF0 + StSize.b64.bytes ≤ st0.scrOf team0 ∧ (st0.execs always).getLast? = some tid0 ∧
    st0.mem.passes = [] ∧ st0.onePass st0.issueCore (wordsUsed 0xFFFF0 16) = true ∧
    stPass.onePass stPass.issueCore (wordsUsed 0xFFFF0 16) = false ∧ ∀ p ∈ stPass.mem.passes, stPass.cycle < p.due :=
  ⟨rfl, rfl, by decide, by decide, by decide, rfl, by decide, by decide, rfl, rfl, by decide, by decide, by decide⟩

/-- A team with its first scratch word full. -/
def tmFull : Team := { tm0 with full := [0] }
def stFull : State := stOf th0 co0 tmFull

/-- Two lanes of the cohort whose addresses lie in one bank. -/
def stTwo : State :=
  { stFull with threads := [(tid0, th0), (tid1, { th0 with g := th0.g.set 0 128#32 })], issue := some { is0 with tids := [tid0, tid1] } }

theorem witness_FullEmptyAndWindowInstructionsComplete :
    tget stFull.teams team0 = some tmFull ∧ readSrc stFull tid0 (g 0) = .ok 0#32 ∧ readSrc stFull tid0 (g 1) = .ok 5#32 ∧
    (0 : Int) + (0#24).toInt = 0 ∧ 0 + 4 ≤ stFull.scrOf team0 ∧ tmFull.waiters = [] ∧ stFull.mem.passes = [] ∧
    stFull.execs always = [tid0] ∧ passOf [0] 0 = 0 ∧
    tmFull.full.contains 0 = true ∧ tmFull.full.contains 4 = false ∧ 0 % LdSize.q128.bytes = 0 ∧
    readNat stFull tid0 (g 4) StSize.b64.regs = .ok 0x1000 ∧ (stFull.execs always).head? = some tid0 ∧ 0 + 128 ≤ stFull.scrOf team0 ∧
    stFull.peerOf tid0 0 = some team0 ∧
    (stTwo.execs always = [tid0, tid1] ∧ readSrc stTwo tid1 (g 0) = .ok 128#32 ∧ scratchAddr stTwo tid0 (g 0) 0#24 4 = .ok 0 ∧
     passOf ((goodLanes (stTwo.execs always) fun u => scratchAddr stTwo u (g 0) 0#24 4).map Prod.snd) 128 ≠ 0) :=
  ⟨rfl, rfl, rfl, rfl, by decide, rfl, rfl, rfl, by decide, rfl, rfl, rfl, rfl, rfl, by decide, rfl, by decide, rfl, rfl, by decide⟩

/-- A check that a flat access of the thread alone passes. -/
theorem witness_flat (q : Asked) (addr : Tid → Except Trap DWord) (per va pa : Nat) (r : Region) (th : Thread)
    (hj : judgeAll q addr ((stOf th co0 tm0).execs always) (stOf th co0 tm0) = ([(tid0, .ok va pa r)], stOf th co0 tm0))
    (hp : per ≤ 1024) : FlatPass (stOf th co0 tm0) is0 always q addr per [(tid0, .ok va pa r)] (stOf th co0 tm0) where
  issue := rfl
  judged := hj
  pass p h := by rw [List.mem_singleton.mp h]; exact ⟨va, pa, r, rfl⟩
  room := decide_eq_true (show 0 + per * 1 ≤ 4096 ∧ 0 + per * 1 ≤ 1024 by omega)

/-- Addresses in the four regions, by a pair of the thread. -/
def at0 (n : Fin 16) (off : BitVec 24) (t : Tid) : Except Trap DWord := flatAddr st0 t (g n) off

theorem witness_FlatLoadsSetOut :
    Executes st0 is0 always tid0 th0 ∧
    FlatPass st0 is0 always (loadAsk .q128 flatKind) (at0 4 0xFF0#24) 2 [(tid0, .ok 0x1FF0 0x1FF0 (region0 0x1000 .plain 1))] st0 ∧
    FlatPass st0 is0 always (loadAsk .w32 subscribedKind) (at0 8 0#24) 1 [(tid0, .ok 0x2000 0x2000 (region0 0x2000 .subscribed 0))] st0 ∧
    FlatPass st0 is0 always (loadAsk .d64 memsideKind) (at0 10 0#24) 1 [(tid0, .ok 0x3000 0x3000 (region0 0x3000 .memside 0))] st0 ∧
    FlatPass st0 is0 always (loadAsk .w32 weightKind) (at0 12 0#24) 1 [(tid0, .ok 0x4000 0 (region0 0x4000 .weight 0))] st0 :=
  ⟨witness_executes, witness_flat _ _ _ _ _ _ _ rfl (by decide), witness_flat _ _ _ _ _ _ _ rfl (by decide),
   witness_flat _ _ _ _ _ _ _ rfl (by decide), witness_flat _ _ _ _ _ _ _ rfl (by decide)⟩

theorem witness_FlatStoresSetOut :
    Executes st0 is0 always tid0 th0 ∧
    FlatPass st0 is0 always (storeAsk .b64 flatKind) (storeAddr st0 (g 4) (g 2) 0xFF8#24 .b64) 1
      [(tid0, .ok 0x1FF8 0x1FF8 (region0 0x1000 .plain 1))] st0 ∧
    FlatPass st0 is0 always (storeAsk .b32 memsideKind) (storeAddr st0 (g 10) (g 2) 0#24 .b32) 1
      [(tid0, .ok 0x3000 0x3000 (region0 0x3000 .memside 0))] st0 :=
  ⟨witness_executes, witness_flat _ _ _ _ _ _ _ rfl (by decide), witness_flat _ _ _ _ _ _ _ rfl (by decide)⟩

theorem witness_AtomicsSetOut :
    Executes st0 is0 always tid0 th0 ∧ readNat st0 tid0 (g 0) 2 = .ok 0x500000000 ∧ readNat st0 tid0 (g 0) 1 = .ok 0 ∧
    (∀ f ∈ [atomValue st0 (g 0) .w8 .add, fun x => do let n ← readNat st0 x (g 0) 4; .ok (.cas (n / 2 ^ 64), n % 2 ^ 64)],
      FlatPass st0 is0 always (atomAsk 8) (fun x => do let p ← flatAddr st0 x (g 4) 0xFF8#24; let _ ← f x; .ok p) 1
        [(tid0, .ok 0x1FF8 0x1FF8 (region0 0x1000 .plain 1))] st0) ∧
    FlatPass st0 is0 always (atomAsk 4) (fun x => do let p ← flatAddr st0 x (g 10) 0#24; let _ ← atomWord st0 (g 0) .inc x; .ok p) 1
      [(tid0, .ok 0x3000 0x3000 (region0 0x3000 .memside 0))] st0 := by
  refine ⟨witness_executes, rfl, rfl, ?_, witness_flat _ _ _ _ _ _ _ rfl (by decide)⟩
  simp only [List.mem_cons, List.not_mem_nil, or_false]
  rintro f (rfl | rfl) <;> exact witness_flat _ _ _ _ _ _ _ rfl (by decide)

/-- The thread's first TLB leaf at a frame, a page answered with a trap, and a poisoned sector. -/
def stFrame (frame : Nat) : State :=
  { st0 with mem := { st0.mem with coreTlb := [(core0, [{ setupLeaf with pte := 127 + 2 ^ 16 * frame }])] } }
def thTrap : Thread := { th0 with replayTrap := [(0, 0)] }
def stPoison : State := { st0 with rel := { st0.rel with side := [(128, 0x0400000000000000#64)] } }
/-- The thread with the address of a remote page in g4, and a record of another group. -/
def stAway (recs : List ParkRec) : State :=
  let s := stOf { th0 with g := th0.g.set 4 0x10000#32 } co0 tm0
  { s with vnp := { s.vnp with rfq := recs } }

theorem witness_FlatAccessesTrapOrPark :
    Executes st0 is0 always tid0 th0 ∧ st0.execs always = [tid0] ∧ st0.missRoom core0 0 = true ∧
    flatAddr st0 tid0 (.latch 3 .same) 0#24 = .error (staleLatch 3) ∧
    (at0 4 1#24 tid0 = .ok 0x1001#64 ∧ 0x1001 % (loadAsk .w32 flatKind).align ≠ 0) ∧
    (at0 6 0x10#24 tid0 = .ok 0x200000000000000#64 ∧ 2 ^ 57 ≤ 0x200000000000000) ∧
    ((st0.regionAt tid0 0x4000).kind = .weight ∧ (loadAsk .w32 flatKind).allow .weight = false) ∧
    ((st0.regionAt tid0 0x1000).kind = .plain ∧ (loadAsk .w32 memsideKind).allow .plain = false ∧ st0.spaceOf tid0 = (0, some 0) ∧
     translate st0 core0 0 (some 0) 0x1000 .read = (.ok 0x1000 127, st0)) ∧
    ((0, 0x1000 / 65536) ∈ thTrap.replayTrap ∧ tget (stOf thTrap co0 tm0).threads tid0 = some thTrap) ∧
    (let s := stFrame (dramLimit / 65536)
     ∃ pte, translate s core0 0 (some 0) 0x1000 .read = (.ok (dramLimit + 0x1000) pte, s) ∧ s.missRoom core0 0 = true) ∧
    (translate stPoison core0 0 (some 0) 0x1000 .read = (.ok 0x1000 127, stPoison) ∧
     poisonAt stPoison (loadAsk .w32 flatKind) tid0 0x1000 0x1000 false = some 128 ∧
     ((readPoison stPoison false 128).report 4 0x1000 (locCore core0)).missRoom core0 0 = true) ∧
    (let s := stAway []
     ∃ s1, judgeAll (loadAsk .w32 flatKind) (fun u => flatAddr s u (g 4) 0#24) (s.execs always) s = ([(tid0, .fault 0x10000 none)], s1) ∧
       gatherFaults s [(tid0, .fault 0x10000 none)] = [{ key := { asid := 0, vpn := 1 }, va := 0x10000, reason := none, touch := [tid0] }] ∧
       s1.rfqFree 0 1 = [0] ∧ s1.vnp.frameOf { asid := 0, vpn := 1 } = none ∧ s1.vnp.rfq = []) ∧
    (∀ l : List Nat, (l.take 0).length < 1) ∧ ([(tid0, Judged.fault 0x10000 none), (tid1, .trap (staleLatch 3))].map Prod.fst).Nodup :=
  ⟨witness_executes, rfl, rfl, rfl, ⟨rfl, by decide⟩, ⟨rfl, by decide⟩, ⟨rfl, rfl⟩, ⟨rfl, rfl, rfl, rfl⟩, ⟨by decide, rfl⟩,
   ⟨_, rfl, rfl⟩, ⟨rfl, by decide +kernel, by decide +kernel⟩, ⟨_, Prod.ext (by decide +kernel) rfl, rfl, by decide +kernel, by decide +kernel, by decide +kernel⟩,
   fun _ => by rw [List.take_zero]; decide, by decide⟩

theorem witness_SubscriptionsAndOrderingComplete :
    Executes st0 is0 always tid0 th0 ∧ st0.execs always = [tid0] ∧
    FlatPass st0 is0 always (tileAsk subscribedKind) (at0 8 0#24) 0 [(tid0, .ok 0x2000 0x2000 (region0 0x2000 .subscribed 0))] st0 ∧
    FlatPass st0 is0 always (tileAsk fun _ => true) (at0 8 0#24) 0 [(tid0, .ok 0x2000 0x2000 (region0 0x2000 .subscribed 0))] st0 ∧
    readSrc st0 tid0 (g 0) = .ok 0#32 ∧ acqRead st0 tid0 1 = .ok 0#32 ∧ st0.gateNames tid0 1 = true ∧
    maintPieces st0 tid0 .clean (g 4) (g 4) 0#24 = .ok [(0x1000, 0x1000, 0x1000)] ∧
    maintPieces st0 tid0 .inval (g 4) (g 4) 0#24 = .ok [(0x1000, 0x1000, 0x1000)] ∧
    maintPieces st0 tid0 .discard (g 4) (g 0) 0#24 = .ok [] :=
  ⟨witness_executes, rfl, witness_flat _ _ _ _ _ _ _ rfl (by decide), witness_flat _ _ _ _ _ _ _ rfl (by decide), rfl, rfl, rfl,
   rfl, rfl, rfl⟩

theorem witness_VotesAndMatchesCompute :
    Executes st0 is0 always tid0 th0 ∧ st0.execs always = [tid0] ∧ readNat st0 tid0 (g 4) 2 = .ok 0x1000 := ⟨witness_executes, rfl, rfl⟩

/-- A barrier of the team, by the numbers of BARA's forms. -/
def bar0 : BarRef := { lev := .team, num := 1 }
def key0 : BarKey := { owner := .team team0, num := 1 }

/-- The machine with that barrier as given. -/
def stBar (b : Barrier) : State := { st0 with barriers := [(key0, b)] }

theorem witness_BarrierInstructionsComplete :
    (st0.execs always).head? = some tid0 ∧ readPair st0 tid0 (g 0) = .ok 0x500000000#64 ∧ readSrc st0 tid0 (g 0) = .ok 0#32 ∧
    th0.status = .inRun ∧ st0.barKey tid0 bar0 = key0 ∧ 0x500000000 ≤ st0.ptc.toNat ∧ readPair st0 tid0 (g 14) = .ok 0x500000001#64 ∧
    st0.ptc.toNat < 0x500000001 ∧ (st0.bar key0).waitPhase (memberOf key0 tid0) = none ∧
    (let s := stBar { Barrier.first with phase := 2, last := [(tid0, 1)], bytes := 2 ^ 31 - 1 }
     (s.bar key0).waitPhase (memberOf key0 tid0) = some 1 ∧ 1 < (s.bar key0).phase ∧ (s.bar key0).bytes + (0 : Int) ≤ 2 ^ 31 - 1) ∧
    (let s := stBar { Barrier.first with last := [(tid0, 1)] }
     (s.bar key0).waitPhase (memberOf key0 tid0) = some 1 ∧ (s.bar key0).phase ≤ 1) ∧
    memberOf key0 tid0 ∉ (st0.bar key0).arrived ∧
    memberOf key0 tid0 ∈ ((stBar { Barrier.first with arrived := [tid0] }).bar key0).arrived :=
  ⟨rfl, rfl, rfl, rfl, rfl, by decide, rfl, by decide, rfl, ⟨rfl, by decide, by decide⟩, ⟨rfl, by decide⟩, by decide, by decide⟩

/-- A launch of two stages, its team of the stage given. -/
def stage0 (items : List QueueItem) : StageRun :=
  { lid := 1, entry := 0#57, nextK4 := 1, ended := 0, placed := [], saved := [], floors := [], items := items }
def launchPipe (items : List QueueItem) : Launch :=
  { launch0 with desc := { launch0.desc with stages := [{ spc := 0#57, floor := 1 }, { spc := 0#57, floor := 1 }] },
                 stages := [stage0 [], { stage0 items with lid := 2 }] }
def stPipe (k : Nat) (items : List QueueItem) : State :=
  { st0 with launches := [launchPipe items], teams := [(team0, { tm0 with stage := k })] }

theorem witness_SpawnsStagesAndRegionsComplete :
    readPair st0 tid0 (g 4) = .ok 0x1000#64 ∧ 0x1000 % 64 = 0 ∧ readSrc st0 tid0 (g 2) = .ok 7#32 ∧
    (let s := stPipe 0 []
     s.execs always = [tid0] ∧ readSrc s tid0 (g 0) = .ok 0#32 ∧ 0 + 64 ≤ s.scrOf team0 ∧ s.stageOf tid0 = some (launchPipe [], 0) ∧
     s.launch tid0 = some (launchPipe []) ∧ tget s.teams team0 = some { tm0 with stage := 0 } ∧
     0 + 1 < (launchPipe []).desc.stages.length ∧ (launchPipe []).stages[0 + 1]? = some { stage0 [] with lid := 2 }) ∧
    (let it : QueueItem := List.replicate 64 7#8
     let s := stPipe 1 [it]
     s.stageOf tid0 = some (launchPipe [it], 1) ∧ (launchPipe [it]).stages[1]? = some { stage0 [it] with lid := 2 } ∧
     (launchPipe [it]).stages[1 - 1]? = some (stage0 [])) ∧
    (st0.execs always).head? = some tid0 ∧ tget st0.teams team0 = some tm0 ∧
    readPair st0 tid0 (g 0) = .ok 0x500000000#64 ∧ 0x500000000 ≤ st0.ptc.toNat ∧
    readPair st0 tid0 (g 14) = .ok 0x500000001#64 ∧ st0.ptc.toNat < 0x500000001 :=
  ⟨rfl, rfl, rfl, ⟨rfl, rfl, by decide, rfl, rfl, rfl, by decide, rfl⟩, ⟨rfl, rfl, rfl⟩, rfl, rfl, rfl, by decide, rfl, by decide⟩

/-- A team whose first entries hold the records given under generation 1, its thread the handles of them in g0 to g7 and the words
given from g8. -/
def stRec (rs : List SealedRec) (ws : List Word) : State :=
  let h (i : Nat) : Word := ((rs[i]?).map fun r => handleWord 1#16 (sealedKind r) i).getD 0#32
  stOf { th0 with g := Vector.ofFn fun i : Fin 16 => if i.val < 8 then h i.val else ws.getD (i.val - 8) 0#32 } co0
    { tm0 with handles := rs.map fun r => { gen := 1#16, record := some r } }
def tmRec (rs : List SealedRec) : Team := { tm0 with handles := rs.map fun r => { gen := 1#16, record := some r } }

/-- A command of the class can issue for the team of such a state. -/
theorem witness_can_issue (rs : List SealedRec) (ws : List Word) (cls : EngClass) :
    CanIssue (stRec rs ws) always tid0 (tmRec rs) plainCom cls none 1 where
  lead := congrArg List.head? (witness_group _ co0 (tmRec rs))
  team := rfl
  cohort := rfl
  notBefore := rfl
  room := by cases cls <;> rfl

/-- Tensors: rows, columns, row stride, layout, planes and format, at base 0. -/
def t0 (rows cols rstr lay planes : Nat) (elem : Fmt) : TensorRec :=
  { base := 0, rows := rows, cols := cols, rstr := rstr, lay := lay, planes := planes, elem := elem }
def recs0 : List SealedRec :=
  [.tensor (t0 64 512 512 1 0 .e4m3), .tensor (t0 64 512 512 0 0 .e4m3), .tensor (t0 64 512 0 2 4 .n8), .scale (t0 64 512 0 3 0 .n8),
   .tensor (t0 64 512 128 0 0 .lc2), .tensor (t0 64 16 16 0 0 .e8m0), .tensor (t0 16 512 0 2 4 .n8), .scale (t0 16 512 0 3 0 .n8)]
def recs1 : List SealedRec :=
  [.tensor (t0 64 64 256 0 0 .f32), .tensor (t0 1 4616 4616 1 0 .n8), .tensor (t0 1 64 256 0 0 .f32)]

theorem witness_CoreEngineInstructionsIssue :
    (let s := stRec recs0 []
     let m := tmRec recs0
     Opens s tid0 m (g 0) 0 .tensor (.tensor (t0 64 512 512 1 0 .e4m3)) ∧ Opens s tid0 m (g 1) 1 .tensor (.tensor (t0 64 512 512 0 0 .e4m3)) ∧
     OpensPair s tid0 m (g 2) 0 .tensor .scale 0x10002#32 0x11003#32 (.tensor (t0 64 512 0 2 4 .n8)) (.scale (t0 64 512 0 3 0 .n8)) ∧
     OpensPair s tid0 m (g 4) 1 .tensor .tensor 0x10004#32 0x10005#32 (.tensor (t0 64 512 128 0 0 .lc2))
       (.tensor (t0 64 16 16 0 0 .e8m0)) ∧
     OpensPair s tid0 m (g 6) 0 .tensor .scale 0x10006#32 0x11007#32 (.tensor (t0 16 512 0 2 4 .n8)) (.scale (t0 16 512 0 3 0 .n8)) ∧
     OpensPair s tid0 m (g 2) 1 .tensor .scale 0x10002#32 0x11003#32 (.tensor (t0 64 512 0 2 4 .n8)) (.scale (t0 64 512 0 3 0 .n8)) ∧
     (t0 64 512 512 1 0 .e4m3).rowBytes = 512 ∧
     (∃ f, formatSlot s 0 = some f ∧ f.valid = true ∧ f.block = 1 ∧ f.scale = some true ∧ f.planes = 4 ∧ f.elem = .e4m3) ∧
     (∃ f, formatSlot s 1 = some f ∧ f.valid = true ∧ f.block = 1 ∧ f.scale = some true ∧ f.planes = 4 ∧ f.elem = .lc2) ∧
     notBeforeOf s tid0 plainCom = .ok none ∧ s.execs always = [tid0]) ∧
    (let s := stRec recs1 [127#32]
     let m := tmRec recs1
     Opens s tid0 m (g 0) 0 .tensor (.tensor (t0 64 64 256 0 0 .f32)) ∧ Opens s tid0 m (g 1) 1 .tensor (.tensor (t0 1 4616 4616 1 0 .n8)) ∧
     Opens s tid0 m (g 2) 0 .tensor (.tensor (t0 1 64 256 0 0 .f32)) ∧
     (∃ f, formatSlot s 2 = some f ∧ f.valid = true ∧ f.scale = some false ∧ f.elem = .f32) ∧
     readSrc s tid0 (g 8) = .ok 127#32 ∧ s.launch tid0 = some launch0 ∧ 127 < launch0.desc.acc) :=
  ⟨⟨⟨_, rfl, rfl⟩, ⟨_, rfl, rfl⟩, ⟨rfl, rfl, rfl⟩, ⟨rfl, rfl, rfl⟩, ⟨rfl, rfl, rfl⟩, ⟨rfl, rfl, rfl⟩, rfl,
    ⟨_, rfl, rfl, rfl, rfl, rfl, rfl⟩, ⟨_, rfl, rfl, rfl, rfl, rfl, rfl⟩, rfl, rfl⟩,
   ⟨_, rfl, rfl⟩, ⟨_, rfl, rfl⟩, ⟨_, rfl, rfl⟩, ⟨_, rfl, rfl, rfl, rfl⟩, rfl, rfl, by decide⟩

/-- Records for the engines off the core. -/
def bank0 : BankRec := { rows := 2, cols := 1, steps := [.load 0 0, .adv], streams := [(0, 1)], consts := [] }
def walk0 : WalkRec := { nb := 0x1000, nab := 0x2000, rs := 8, doff := 0, noff := 4, steps := 1 }
def coll0 : CollRec :=
  { buf := 0x1000, cid := 1, nch := 1, dt := 1000, mbase := 0, mcnt := 2, dmask := 1, op := .allReduce, elem := .f32, rop := .add, root := 0,
    inject := none }
def recs2 : List SealedRec :=
  [.bank bank0, .tensor (t0 1 1280 1280 1 0 .n8), .walk walk0, .coll coll0, .tensor (t0 1 4096 4096 0 0 .n8), .tensor (t0 1 8 8 0 0 .n8)]

theorem witness_OffCoreEngineInstructionsIssue :
    let s := stRec recs2 [0x175000#32, 0#32, 0#32, 0#32, 0#32, 1#32, 0xFFFFFFEC#32, 0x01FFFFFF#32]
    let m := tmRec recs2
    readSrc s tid0 (g 8) = .ok 0x175000#32 ∧ 0x175000 = 23 * 65536 + 80 * 256 + 0 ∧ Opens s tid0 m (g 0) 0 .bank (.bank bank0) ∧
    Opens s tid0 m (g 1) 0 .tensor (.tensor (t0 1 1280 1280 1 0 .n8)) ∧ packBits .n8 = 8 ∧ s.execs always = [tid0] ∧
    tget s.teams team0 = some m ∧ notBeforeOf s tid0 plainCom = .ok none ∧ Opens s tid0 m (g 2) 0 .walk (.walk walk0) ∧
    readRegs s tid0 (g 12) 4 = .ok [0#32, 1#32, 0xFFFFFFEC#32, 0x01FFFFFF#32] ∧ (pairOf 0xFFFFFFEC#32 0x01FFFFFF#32).toNat % 4 = 0 ∧
    (pairOf 0xFFFFFFEC#32 0x01FFFFFF#32).toNat + 4 * (walk0.steps + 4) = 2 ^ 57 ∧ Opens s tid0 m (g 3) 0 .coll (.coll coll0) ∧
    (coll0.rankOf s.moduleNo (s.coreOf tid0).die).isSome = true ∧ Opens s tid0 m (g 4) 0 .tensor (.tensor (t0 1 4096 4096 0 0 .n8)) ∧
    Opens s tid0 m (g 5) 1 .tensor (.tensor (t0 1 8 8 0 0 .n8)) ∧ (t0 1 4096 4096 0 0 .n8).rowBytes = 4096 ∧
    (t0 1 8 8 0 0 .n8).rowBytes = 8 :=
  ⟨rfl, rfl, ⟨_, rfl, rfl⟩, ⟨_, rfl, rfl⟩, rfl, rfl, rfl, rfl, ⟨_, rfl, rfl⟩, rfl, rfl, rfl, ⟨_, rfl, rfl⟩, rfl, ⟨_, rfl, rfl⟩,
   ⟨_, rfl, rfl⟩, rfl, rfl⟩

/-- A command of a class, queued and as it was issued. -/
def cmd0 (cls : EngClass) (op : CmdOp) : Command :=
  { id := 7, coh := coh0, core := core0, cls := cls, op := op, exec := 6, token := none, guard := none, notBefore := none, held := false,
    forwarded := false, st := .queued, step := 0, count := 0, fuse := none, bad := false, cancelled := false, mute := false }

/-- The machine with that command and with a team as given. -/
def stCmd (c : Command) (m : Team) : State := { stOf th0 co0 m with eng := { Engines.reset with cmds := [c] } }

/-- A walk descriptor in scratch. -/
def walkBytes : List Host.Cell := [(1, 0x10#8), (9, 0x20#8), (0x10, 8#8), (0x14, 4#8), (0x16, 1#8)]

theorem witness_HandlesSlotsAndCountersComplete :
    (st0.execs always).head? = some tid0 ∧ readSrc st0 tid0 (g 0) = .ok 0#32 ∧ 0 + recordBytes .bank ≤ st0.scrOf team0 ∧
    tm0.freeHandle = some 0 ∧ tm0.handles[0]? = some { gen := 0#16, record := none } ∧
    readRecord st0 tid0 .bank (st0.scratchGet team0 0 320) = .error 3 ∧ (tmRec recs1).freeHandle = none ∧
    (let s := stOf th0 co0 { tm0 with scratch := walkBytes }
     readRecord s tid0 .walk (s.scratchGet team0 0 64) = .ok (.walk walk0)) ∧
    openEntry (tmRec recs2) 0x12002#32 0 false = .ok (.walk walk0) ∧
    (tmRec recs2).handles[0x12002 % 64]? = some { gen := 1#16, record := some (.walk walk0) } ∧
    (let s := stCmd { cmd0 .cpe (.accz 0) with guard := some 3 } tm0
     s.guardOf team0 3 = .unset ∧ ∃ c, s.headOf team0 .cpe = some c ∧ c.guard = some 3 ∧ c ∈ s.eng.cmds ∧ c.coh.team = team0) ∧
    (let s := stCmd { cmd0 .cpe (.accz 0) with guard := some 3 } { tm0 with guards := tm0.guards.set 3 .no }
     s.guardOf team0 3 ≠ .unset) ∧
    tget st0.cohorts coh0 = some co0 ∧ co0.counters[classIdx .cle] ≤ 0 ∧ readSrc st0 tid0 (g 1) = .ok 5#32 ∧
    (let co : Cohort := { co0 with counters := co0.counters.set 0 6 }
     tget (stOf th0 co tm0).cohorts coh0 = some co ∧ 5 < co.counters[classIdx .cpe]) ∧
    (st0.eng.cmds.map fun c => c.id).Nodup ∧ ((stCmd (cmd0 .cpe (.accz 0)) tm0).eng.cmds.map fun c => c.id).Nodup ∧
    st0.launch tid0 = some launch0 :=
  ⟨rfl, rfl, by decide, rfl, rfl, rfl, rfl, rfl, rfl, rfl, ⟨rfl, _, rfl, rfl, List.mem_singleton.mpr rfl, rfl⟩, by decide, rfl,
   by decide, rfl, ⟨rfl, by decide⟩, by decide, by decide, rfl⟩

theorem witness_TrapInstructionsTakeTheirTrap :
    Executes st0 is0 always tid0 th0 ∧ (st0.modeOf tid0).2 = false ∧
    (let s : State := { st0 with cp := { st0.cp with modes := [(0, (false, true))] } }
     Executes s is0 always tid0 th0 ∧ (s.modeOf tid0).2 = true) ∧
    handlerOf st0 tid0 15 = none ∧
    handlerOf { st0 with launches := [{ launch0 with tvt := [(15, 0x2000#57)] }] } tid0 15 = some 0x2000#57 :=
  ⟨witness_executes, rfl, ⟨⟨rfl, List.mem_singleton.mpr rfl, rfl, rfl⟩, rfl⟩, rfl, rfl⟩

theorem witness_ReturnFromHandlerCompletes :
    (let th : Thread := { th0 with hnd := true, epc := 48#57 }
     Executes (stOf th co0 tm0) is0 always tid0 th ∧ th.hnd = true ∧ th.epc.toNat % 64 ∈ [0, 12, 24, 36, 48]) ∧
    (let th : Thread := { th0 with hnd := true, epc := 60#57 }
     Executes (stOf th co0 tm0) is0 always tid0 th ∧ th.hnd = true ∧ th.epc.toNat % 64 ∉ [0, 12, 24, 36, 48]) ∧
    Executes st0 is0 always tid0 th0 ∧ th0.hnd = false :=
  ⟨⟨witness_thread_executes _ co0 tm0, rfl, by decide⟩, ⟨witness_thread_executes _ co0 tm0, rfl, by decide⟩, witness_executes, rfl⟩

theorem witness_SystemRegistersReadAndWrite :
    readSrc st0 tid0 (g 6) = .ok 0xFFFFFFF0#32 ∧ st0.launch tid0 = some launch0 ∧ Executes st0 is0 always tid0 th0 ∧
    (st0.thread tid0).hnd = false ∧ ((stOf { th0 with hnd := true } co0 tm0).thread tid0).hnd = true ∧ st0.errQueue tid0 = [] ∧
    st0.execs always = [tid0] ∧
    ∀ e : Vector Word 8, { st0 with eng := { Engines.reset with
      errs := [((0, 1), { records := [e], next := 1, dropped := 0 })] } }.errQueue tid0 = [e] :=
  ⟨rfl, rfl, witness_executes, rfl, rfl, rfl, rfl, fun _ => rfl⟩

/-- A thread with one frame spilled. -/
def th2 : Thread := { th0 with wdep := 1, spa := 0x1040#57 }

theorem witness_SpillAndFillComplete :
    Executes (stOf th1 co0 tm0) is0 always tid0 th1 ∧ th1.wres ≠ 0 ∧
    (let s := stOf th1 co0 tm0
     FlatPass s is0 always (frameAsk true) (fun u => if (s.thread u).wres = 0 then .error { cls := 1, cause := 17 }
       else .ok ((s.thread u).spa.setWidth 64)) 16 [(tid0, .ok 0x1000 0x1000 (region0 0x1000 .plain 1))] s) ∧
    (let s := stOf th2 co0 tm0
     Executes s is0 always tid0 th2 ∧ FlatPass s is0 always (frameAsk false) (fun u =>
       if (s.thread u).wres = (s.thread u).frames - 2 ∨ (s.thread u).wdep = (s.thread u).wres then .error { cls := 1, cause := 17 }
       else .ok (((s.thread u).spa - 64#57).setWidth 64)) 16 [(tid0, .ok 0x1000 0x1000 (region0 0x1000 .plain 1))] s) ∧
    st0.execs always = [tid0] ∧ st0.missRoom is0.part.core 0 = true ∧ th0.wres = 0 ∧ th0.wdep = th0.wres ∧ th1.wres = th1.frames - 2 ∧
    ∀ j : Judged, ([(tid0, j)].map Prod.fst).Nodup ∧ (tid0, j) ∈ [(tid0, j)] :=
  ⟨witness_thread_executes th1 co0 tm0, by decide, witness_flat _ _ _ _ _ _ th1 rfl (by decide),
   ⟨witness_thread_executes th2 co0 tm0, witness_flat _ _ _ _ _ _ th2 rfl (by decide)⟩, rfl, rfl, rfl, rfl, rfl,
   fun j => ⟨List.pairwise_singleton _ _, List.mem_singleton.mpr rfl⟩⟩

/-! Steps of the cores and the memory system. -/

/-- A register write on its way to g2, which the thread's latch 1 awaits. -/
def pend0 : Pend := { id := 9, cells := [.g 2], live := [true] }
def arrival0 : Arrival := { pend := 9, tid := tid0, words := [3#32], bank := none }

/-- A state whose only thread is as given, and the state of a memory as given. -/
def stThread (th : Thread) : State := stOf th co0 tm0
def stMem (f : MemSys → MemSys) : State := { st0 with mem := f st0.mem }

set_option maxRecDepth 100000 in
theorem witness_ThreadAndPartitionStepsTakeEffect :
    (let th : Thread := { th0 with pends := [pend0], latches := th0.latches.set 1 (.pend 9 0) }
     let s : State := { stThread th with mem := { (stThread th).mem with arrivals := [arrival0] } }
     tget s.threads tid0 = some th ∧ s.mem.arrivals.find? (fun a => a.pend = 9) = some arrival0 ∧ arrival0.tid = tid0 ∧
     th.pends.filter (fun q => q.id = 9) = [pend0] ∧ pend0.cells.Nodup ∧ th.wait ≠ some (.frame 9)) ∧
    (let th : Thread := { th2 with wait := some (.frame 9) }
     let a : Arrival := { arrival0 with words := List.replicate 16 3#32 }
     let s : State := { stThread th with mem := { (stThread th).mem with arrivals := [a] } }
     tget s.threads tid0 = some th ∧ s.mem.arrivals.find? (fun a => a.pend = 9) = some a ∧ th.wait = some (.frame 9) ∧
     a.words.length = 16) ∧
    (let th : Thread := { th0 with status := .blocked (.bar key0 1 (some (0x500000000#64, 2))) }
     tget (stThread th).threads tid0 = some th ∧ 0x500000000 ≤ (stThread th).ptc.toNat) ∧
    (let th : Thread := { th0 with status := .waiting, wait := some (.time 0x500000000#64) }
     tget (stThread th).threads tid0 = some th ∧ th.status = .waiting ∧ th.wait = some (.time 0x500000000#64)) ∧
    (let s := stThread { th0 with status := .exited }
     tget s.cohorts coh0 = some co0 ∧ (∀ x ∈ s.threads, x.1.coh = coh0 → x.2.status = .exited ∧ x.2.pends = []) ∧ co0.pends = [] ∧
     co0.claims = [] ∧ (∀ c ∈ s.eng.cmds, c.coh ≠ coh0) ∧ ∀ x ∈ s.mem.passes, x.tid.coh ≠ coh0) ∧
    (let r : Replay := { tids := [tid0], pc := 0#57, admitted := none }
     let p : PartId := { core := core0, part := 0 }
     let q : Part := { entries := [], queue := [], runs := [], replays := [r], admissions := [], retry := none }
     let s : State := { st0 with parts := [(p, q)] }
     (s.partition p).replays = [] ++ r :: [] ∧ r.admitted = none ∧
     ((s.partition p).admissions.filter fun c => s.cycle < c + 1024).length < 8) ∧
    (∀ e ∈ [EntryKind.line, .free],
      let th : Thread := { th0 with wait := some (.refetch 0x800#57), entry := e, pc := 0x800#57 }
      let s := stThread th
      s.refetching { core := core0, part := 0 } 0x800#57 = [tid0] ∧ ∃ bs s1, freshLine s tid0 th.pc = (.line bs, s1) ∧ lineParity bs ≠ 0) ∧
    (let th : Thread := { th0 with wait := some (.refetch 0x1000#57), entry := .line, pc := 0x1000#57 }
     (stThread th).refetching { core := core0, part := 0 } 0x1000#57 = [tid0] ∧
     ∃ bs s1, freshLine (stThread th) tid0 th.pc = (.line bs, s1) ∧ lineParity bs = 0) ∧
    th0.status = .inRun ∧ (st0.cohort coh0).part = { core := core0, part := 0 } ∧ st0.rel.reports.length < 4096 ∧
    (∃ bs s1, fetchLine false st0 tid0 th0.pc = (.line bs, s1) ∧ st0.unitUsed tid0 (slotWord bs (slotOf th0.pc)) 9 = false) ∧
    (let word : List Host.Cell := [(0x6005, 6#8), (0x6006, 0x40#8), (0x6007, 0x20#8), (0x600A, 0xFF#8)]
     let s : State := { stOf { th0 with pc := 0x6000#57 } co0 tm0 with mem := { st0.mem with dram := word } }
     ∃ bs s1, fetchLine false s tid0 0x6000#57 = (.line bs, s1) ∧ s.unitUsed tid0 (slotWord bs (slotOf 0x6000#57)) 0 = true) := by
  refine ⟨⟨rfl, rfl, rfl, rfl, by decide, by decide⟩, ⟨rfl, rfl, rfl, rfl⟩, ⟨rfl, by decide⟩, ⟨rfl, rfl, rfl⟩,
    ⟨rfl, by decide, rfl, rfl, by decide, by decide⟩, ⟨rfl, rfl, by decide⟩, ?_, ⟨rfl, _, _, rfl, by decide⟩, rfl, rfl, by decide,
    ⟨_, _, rfl, by decide⟩, _, _, rfl, by decide⟩
  simp only [List.mem_cons, List.not_mem_nil, or_false]
  rintro e (rfl | rfl) <;> exact ⟨rfl, _, _, rfl, by decide⟩

/-- A team with a window open at its scratch's first byte, and an access to it, on its way. -/
def tmWin : Team := { tm0 with windows := tm0.windows.set 5 { off := 0#13, opened := true, writer := none } }
def win0 (off : Int) (store : Option (List Byte × FillMode)) (answer : Option WinAnswer) : WinAccess :=
  { id := 4, tid := tid0, owner := team0, rank := 0, win := 5, off := off, size := 4, store := store,
    dest := some (toG 1, .w32, true), exec := 4, arrived := answer.isSome, place := none, answer := answer }
def stWin (w : WinAccess) (m : Team) : State :=
  { stOf { th0 with wait := some (.window 4) } co0 m with
    late := [{ tid := tid0, issue := is0, second := none }], mem := { st0.mem with windows := [w] } }

/-- An update of one element of a tile that the core holds, and a release of a gate with nothing before it. -/
def sub0 : Subscription :=
  { core := core0, lid := 1, asid := 0, va := 0x2000, pa := 0x2000, fmt := .f16, audience := { lid := 1, dom := .die, inst := 0 },
     sectors := [(0, List.replicate 8 0)] }
def notice0 (update : Bool) : Notice :=
  { id := 3, core := core0, pa := 0x2000, update := update, elems := [(7, 1)], sectors := [0], access := 2, tid := none }
def release0 : Release :=
  { id := 3, lid := 1, num := 1, tid := tid0, core := core0, part := 0, ri := 0, waits := [], arrived := some 0 }

theorem witness_WindowNoticeAndGateStepsTakeEffect :
    (∀ x ∈ [(win0 125 none none, tmWin, true), (win0 124 none none, tmWin, false), (win0 0 none none, tm0, true),
            (win0 124 (some ([1#8, 2#8, 3#8, 4#8], .wait)) none, tmWin, false),
            (win0 0 (some ([1#8, 2#8, 3#8, 4#8], .trap)) none, { tmWin with full := [0] }, false),
            (win0 0 (some ([1#8, 2#8, 3#8, 4#8], .wait)) none, { tmWin with full := [0] }, false)],
      (stWin x.1 x.2.1).mem.windows.find? (fun w => w.id = 4) = some x.1 ∧ x.1.arrived = false ∧
      tget (stWin x.1 x.2.1).teams x.1.owner = some x.2.1 ∧
      x.1.refused ((stWin x.1 x.2.1).scrOf x.1.owner) ((((stWin x.1 x.2.1).team x.1.tid.coh.team).map fun x => x.k2).getD 0) x.2.1 = x.2.2 ∧
      (∀ p ∈ (stWin x.1 x.2.1).mem.passes, p.tid ≠ x.1.tid) ∧ x.2.1.waiters = []) ∧
    tmWin.full.contains 124 = false ∧ ({ tmWin with full := [0] } : Team).full.contains 0 = true ∧
    (∀ a ∈ [WinAnswer.stored, .data [1#8, 2#8, 3#8, 4#8], .refused, .wouldWait],
      let s := stWin (win0 0 none (some a)) tmWin
      s.mem.windows.find? (fun w => w.id = 4) = some (win0 0 none (some a)) ∧ (tget s.threads tid0).isSome = true ∧
      s.late.find? (fun l => l.tid = tid0) = some { tid := tid0, issue := is0, second := none } ∧ s.behindLane (win0 0 none (some a)) = false) ∧
    (∀ b ∈ [true, false],
      let s := stMem fun m => { m with subs := [sub0], notices := [notice0 b] }
      s.mem.notices.find? (fun n => n.id = 3) = some (notice0 b) ∧ s.subOf (notice0 b).core (notice0 b).pa = some sub0 ∧
      tileOf (notice0 b).pa = (notice0 b).pa ∧ ((notice0 b).elems.map Prod.fst).Nodup ∧
      ∀ q ∈ s.mem.notices, q.core = (notice0 b).core → q.pa = (notice0 b).pa → (notice0 b).id ≤ q.id) ∧
    (let s := stMem fun m => { m with notices := [{ notice0 true with id := 2 }, notice0 true] }
     (s.mem.notices.map fun n => n.id).Nodup ∧ s.mem.notices.find? (fun n => n.id = 3) = some (notice0 true) ∧
     ∃ q ∈ s.mem.notices, q.id < (notice0 true).id ∧ q.core = (notice0 true).core ∧ q.pa = (notice0 true).pa) ∧
    (let s : State := { (stMem fun m => { m with releases := [release0] }) with cycle := 1 }
     s.mem.releases.filter (fun r => r.lid = 1 ∧ r.num = 1) = [release0] ∧ release0.arrived = some 0 ∧ 0 < s.cycle ∧
     s.launchOf 1 = some launch0) := by
  refine ⟨by decide, by decide, by decide, ?_, ?_, ⟨by decide, rfl, _, .head _, by decide, rfl, rfl⟩, rfl, rfl, by decide, rfl⟩
  · intro a _; exact ⟨rfl, rfl, rfl, rfl⟩
  intro b _
  cases b <;> exact ⟨rfl, rfl, rfl, by decide, by decide⟩

/-- An access at the end of a sector, a dirty sector, a maintenance of it and its write-back. -/
def acc0 (op : AccOp) (memside : Bool) : Access :=
  { id := 3, tid := tid0, core := core0, asid := 0, va := 0x1FF8, pa := 0x1FF8, size := 8, op := op, memside := memside, gate := 0,
    dom := .die, ret := some { pend := 9, ext := .d64 }, after := [], seen := [], exec := 3, req := (0x1FF8, 8),
    whole := false, miss := none }
def sector0 : L2Sector := { data := List.replicate 32 1#8, dirty := true, poison := false }
def maint0 (k : MaintKind) : Maint := { id := 3, tid := tid0, core := core0, kind := k, asid := 0, ranges := [(0x1FE0, 0x1FE0, 32)] }
def back0 : WriteBackMsg := { id := 3, tid := tid0, sector := 255, data := List.replicate 32 1#8, poison := true }

theorem witness_AccessesPerformAtTheirHome :
    (∀ op ∈ [AccOp.store (List.replicate 8 1#8) true, .store (List.replicate 8 1#8) false, .load, .loadSub .f16 true, .atomic .add 1],
      let s := stMem fun m => { m with accesses := [acc0 op false], l2 := [(255, sector0)] }
      s.mem.accesses.find? (fun b => b.id = 3) = some (acc0 op false) ∧ s.mayPerform (acc0 op false) = true ∧
      s.readOutcome 255 ≠ .lost ∧ WholeSector s 255 ∧ Roomy s 1 ∧ s.poisoned false 255 = false) ∧
    (∀ op ∈ [AccOp.storeCount (List.replicate 8 1#8) 1, .loadCount],
      let s := stMem fun m => { m with accesses := [acc0 op true], counted := [(63, { count := 1, sectors := [] })] }
      s.mem.accesses.find? (fun b => b.id = 3) = some (acc0 op true) ∧ s.mayPerform (acc0 op true) = true ∧ tget s.mem.l2 255 = none ∧
      s.pendingBack 255 = none ∧ s.readOutcome 255 ≠ .lost ∧ WholeSector s 255 ∧ Roomy s 1 ∧ s.poisoned true 255 = false) ∧
    (acc0 .load false).pa % 32 + (acc0 .load false).size = 32 ∧
    ∀ n v, (leBytes 8 (atomNew .add 64 n v)).length = 8 := by
  refine ⟨?_, ?_, by decide, fun _ _ => rfl⟩ <;> simp only [List.mem_cons, List.not_mem_nil, or_false]
  · rintro op (rfl | rfl | rfl | rfl | rfl) <;>
      exact ⟨rfl, by decide, by decide, ⟨fun _ h => (by cases h; rfl), nofun, nofun⟩, ⟨by decide, by decide⟩, by decide⟩
  · rintro op (rfl | rfl) <;>
      exact ⟨rfl, by decide, rfl, rfl, by decide, ⟨nofun, nofun, nofun⟩, ⟨by decide, by decide⟩, by decide⟩

theorem witness_SectorsLeaveTheirPlace :
    (let s := stMem fun m => { m with l2 := [(255, sector0)] }
     ∃ k < 4, (tget s.mem.l2 (4 * 63 + k)).isSome = true) ∧
    (let c : Counted := { count := 1, sectors := [(255, (List.replicate 32 1#8, true))] }
     let s := stMem fun m => { m with counted := [(63, c)] }
     tget s.mem.counted 63 = some c ∧ (c.sectors.map Prod.fst).Nodup ∧ ∀ x ∈ c.sectors, x.2.1.length = 32) ∧
    (∀ k ∈ [MaintKind.clean, .inval, .discard],
      let s := stMem fun m => { m with maints := [maint0 k], l2 := [(255, sector0)] }
      s.mem.maints.find? (fun m => m.id = 3) = some (maint0 k) ∧ s.edgeOpen (maint0 k).tid.coh.team = false ∧
      (∀ a ∈ s.mem.accesses, a.tid = tid0 → a.id < 3 → (maint0 k).covers (a.pa / 32) = false) ∧
      (∀ q ∈ s.mem.maints, q.tid = tid0 → 3 ≤ q.id) ∧ (maint0 k).sectors.map Prod.snd = [255] ∧
      ∀ x ∈ (maint0 k).sectors, s.snapshotBlocks (maint0 k).tid.coh.team.lid (32 * x.2) = false) ∧
    (∀ c ∈ [[], [(63, ({ count := 1, sectors := [] } : Counted))]],
      let s := stMem fun m => { m with writeBacks := [back0], counted := c }
      s.mem.writeBacks.find? (fun w => w.id = 3) = some back0 ∧ (∀ v ∈ s.mem.writeBacks, v.sector = back0.sector → 3 ≤ v.id) ∧
      back0.data.length = 32 ∧ (tget s.mem.counted (back0.sector / 4)).isSome = !c.isEmpty) := by
  refine ⟨⟨3, by decide, rfl⟩, ⟨rfl, by decide, by decide⟩, ?_, by decide⟩
  intro k _; cases k <;> exact ⟨rfl, rfl, by decide, by decide, by decide, by decide⟩

/-- A pair whose first part is known. -/
theorem witness_fst {α β : Type} {p : α × β} {a : α} (h : p.1 = a) : ∃ b, p = (a, b) := ⟨p.2, Prod.ext h rfl⟩

theorem witness_fst_and {α β : Type} {p : α × β} {a : α} {Q : β → Prop} (h : p.1 = a) (q : Q p.2) : ∃ b, p = (a, b) ∧ Q b :=
  ⟨p.2, Prod.ext h rfl, q⟩

theorem witness_TranslationAndRefreshStepsTakeEffect :
    (1250 * 29 ≤ st0.ptc.toNat % 40000 ∧ st0.ptc.toNat % 40000 < 1250 * 29 + 320) ∧
    ¬ (1250 * 0 ≤ 320 % 40000 ∧ 320 % 40000 < 1250 * 0 + 320) ∧
    (let s : State := { st0 with bindings := [(63, (0, 0))] }
     let va := 2 * 65536
     tget s.bindings 63 = some (0, 0) ∧ tlbFind ((tget s.mem.coreTlb core0).getD []) 0 va = none ∧
     tlbFind ((tget s.mem.dieTlb core0.die).getD []) 0 va = none ∧ (∃ s1, s.walk 0 va = (.leaf 0x30010 0x5012B false, s1)) ∧
     leafOutcome .read 0x5012B (leafPa 0x5012B false va) = .ok (leafPa 0x5012B false va) 0x5012B) ∧
    st0.missRoom core0 1 = true ∧ st0.rfqFree 0 1 ≠ [] ∧
    (let d : Shootdown := { id := 3, asid := 0, vpn := 0, pages := 1, waits := [], seq := some 1 }
     let s := stMem fun m => { m with shootdowns := [d] }
     s.mem.shootdowns.find? (fun d => d.id = 3) = some d ∧
     ∀ i ∈ d.waits, (∀ x ∈ s.mem.accesses, x.id ≠ i) ∧ (∀ x ∈ s.mem.arrivals, x.pend ≠ i) ∧ (∀ x ∈ s.mem.gathers, x.id ≠ i) ∧
       ∀ x ∈ s.mem.maints, x.id ≠ i) :=
  ⟨by decide, by decide, ⟨rfl, by decide, rfl, witness_fst (by decide +kernel), by decide⟩, rfl, by decide, rfl, by decide⟩

/-- A page, a chain of it that began at tick 0, and a fault that waits for it. -/
def page (vpn : Nat) : PageKey := { asid := 0, vpn := vpn }
def server0 : PageSource := .storage { server := 1, object := 2, page := 3 }
def chain0 (vpn : Nat) (st : ChainState) (retries : Nat) (frameWait : Option Nat) : Chain :=
  { key := page vpn, first := 1, queue := 0, root := some 0, st := st, seq := 5, sent := 0, retries := retries, since := 0, frameWait := frameWait }
def park0 (vpn : Nat) (st : ParkState) : ParkRec :=
  { die := 0, idx := 0, key := page vpn, va := 65536 * vpn, lid := 1, tids := [tid0], touch := [tid0], pc := 0#57, kind := .read,
    part := { core := core0, part := 0 }, tarr := 0, order := 1, group := 1, st := st, asked := none }
def frame0 (vpn frame lease : Nat) (owned : Bool) : Frame :=
  { frame := frame, key := page vpn, root := 0, owned := owned, lease := lease, renewing := none, src := server0 }

/-- Module 1, all of whose pages have module 0 as their home, with queue 0 bound to the tables at 0. -/
def stVnp (f : Vnp → Vnp) : State := { st0 with moduleNo := 1, bindings := [(0, (0, 0))], vnp := f Vnp.reset }
def stChain (c : Chain) (pool : List Nat) (frames : List Frame) : State :=
  stVnp fun v => { v with chains := [c], pool := pool, frames := frames, rfq := [park0 c.key.vpn .waiting] }

/-- A message of a class from module src, about a page, in step 5. -/
def mail (src cls : Nat) (key : PageKey) : Umril :=
  { port := 0, mode := .rod, op := .send, uetLen := 16, word := 0,
    hdr := { ver := 1, src := src, dst := 1, cls := cls, len := 0, tag := 65536 * key.asid, seq := 5 } }

/-- A machine at which some messages have arrived and been accepted. -/
def withMail (ms : List Umril) (s : State) : State := { s with module := { s.module with inbox := ms } }

/-- A clock that is locked, or not and has not been for long. -/
def withLock (locked : Bool) (s : State) : State := { s with module := { s.module with clock := { s.module.clock with locked := locked } } }

/-- Fifteen of the sixteen messages of a page. -/
def got15 : List (Nat × List Byte) := (List.range 15).map fun i => (i, List.replicate 4096 0#8)

theorem witness_PageChainStepsTakeEffect :
    (∀ locked ∈ [false, true],
      let c := chain0 1 .arrived 0 none
      let s := withLock locked (stChain c [] [])
      s.chain (page 1) = some c ∧ s.firstChain.map (fun d => d.key) = some (page 1) ∧ s.running < 48 ∧
      s.clockBad = !locked ∧ (∃ r ∈ s.vnp.rfq, r.waits (page 1) = true) ∧ s.homeOf (page 1) ≠ s.moduleNo ∧
      s.sourceOk server0 = true ∧ s.sourceOk (.module 7 0) = false) ∧
    (∀ r ∈ [DirReply.shared server0 9, .shared (.module 7 0) 9, .owned server0 true, .owned server0 false, .absent, .refused],
      let s := withMail [mail 0 2 (page 1)] (stChain (chain0 1 (.directory true) 0 none) [] [])
      s.homeOf (page 1) = 0 ∧ ∃ s0, Heard s 0 (.reply s.moduleNo (page 1) 5 r) s0) ∧
    (let s := withMail [mail 2 3 (page 1)] (stChain (chain0 1 (.fetch (.module 2 9) 0 true got15) 0 none) [9] [])
     ∃ s0, Heard s 2 (.pageData s.moduleNo (page 1) 5 15 (List.replicate 4096 0#8)) s0) ∧
    (∀ n ∈ [2, 3], let c := chain0 1 (.directory true) n none
     (stChain c [] []).chain (page 1) = some c ∧ (stChain c [] []).homeOf (page 1) ≠ (stChain c [] []).moduleNo ∧
     c.sent + 2000000 + 500000 * 2 ^ n ≤ (stChain c [] []).ptc.toNat) ∧
    (let c := chain0 1 (.fetch server0 0 true got15) 0 none
     (stChain c [9] []).chain (page 1) = some c ∧ tget got15 15 = none ∧ got15.length = 15 ∧ (stChain c [9] []).vnp.pool ≠ [] ∧
     (stChain c [] []).vnp.pool = [] ∧ c.frameWait = none ∧ sourceModule server0 ≠ (stChain c [9] []).moduleNo) ∧
    (let c := chain0 1 (.fetch server0 0 true []) 2 none
     (stChain c [9] []).chain (page 1) = some c ∧ tget ([] : List (Nat × List Byte)) 15 = none ∧
     c.sent + 2000000 + 500000 * 2 ^ c.retries ≤ (stChain c [9] []).ptc.toNat) ∧
    20000000 ≤ st0.ptc.toNat ∧ (chain0 1 (.fetch server0 0 true got15) 0 (some 0)).frameWait.isSome = true ∧
    (let c := chain0 1 (.install (some 9) server0 0 true) 0 none
     let s := stChain c [] []
     s.chain (page 1) = some c ∧ s.rootOf c = some 0 ∧ (∃ s1, s.leafOf 0 (page 1) = (some (0x30008, 0x10A), s1)) ∧
     pteBit 0x10A 0 = false ∧ pteBit 0x10A 1 = true ∧ pteFrame 0x10A = 0 ∧ ({ s with bindings := [] } : State).rootOf c = none) ∧
    (let c := chain0 2 (.install (some 9) server0 0 true) 0 none
     let s := stChain c [] []
     s.chain (page 2) = some c ∧ (∃ s1, s.leafOf 0 (page 2) = (some (0x30010, 0x5012B), s1)) ∧ pteBit 0x5012B 0 = true) ∧
    (let c := chain0 5 (.install (some 9) server0 0 true) 0 none
     (stChain c [] []).chain (page 5) = some c ∧ ∃ s1, (stChain c [] []).leafOf 0 (page 5) = (none, s1)) ∧
    (let c := chain0 2 (.install none server0 0 true) 0 none
     let s := stChain c [] [frame0 2 5 0 false]
     s.chain (page 2) = some c ∧ s.vnp.frameOf (page 2) = some (frame0 2 5 0 false) ∧ pteFrame 0x5012B = 65536 * 5) ∧
    (∀ owned ∈ [false, true], let c := chain0 2 .wake 0 none
     let s := stChain c [] [frame0 2 5 0 owned]
     s.chain (page 2) = some c ∧ s.vnp.frameOf (page 2) = some (frame0 2 5 0 owned) ∧ park0 2 .waiting ∈ s.vnp.rfq ∧
     (park0 2 .waiting).waits (page 2) = true ∧ (park0 2 .waiting).kind ≠ .write ∧
     (∀ x ∈ s.vnp.rfq, x.group = (park0 2 .waiting).group → x = park0 2 .waiting) ∧
     tid0 ∈ (park0 2 .waiting).tids ∧ tget s.threads tid0 = some th0) ∧
    (let s := stVnp fun v => { v with rfq := [park0 1 (.declined 4)] }
     (s.vnp.rfq.find? fun x => x.isDeclined && x.asked.isNone) = some (park0 1 (.declined 4)) ∧ s.vnp.declined.length < 1024) := by
  refine ⟨?_, fun _ _ => ⟨rfl, _, by decide, rfl⟩, ⟨_, by decide, rfl⟩, ?_, ⟨rfl, rfl, rfl, by decide, rfl, rfl, by decide⟩,
    ⟨rfl, rfl, by decide⟩, by decide, rfl,
    ⟨rfl, rfl, witness_fst (by decide +kernel), by decide, rfl, rfl, rfl⟩, ⟨rfl, witness_fst (by decide +kernel), rfl⟩,
    ⟨rfl, witness_fst (by decide +kernel)⟩, ⟨rfl, rfl, rfl⟩, ?_, rfl, by decide⟩
  · intro a _; cases a <;> exact ⟨rfl, rfl, by decide, by decide, ⟨_, .head _, rfl⟩, by decide, rfl, rfl⟩
  · simp only [List.mem_cons, List.not_mem_nil, or_false]
    rintro n (rfl | rfl) <;> exact ⟨rfl, by decide, by decide⟩
  · intro b _; cases b <;> exact ⟨rfl, rfl, .head _, rfl, by decide, by decide, .head _, rfl⟩

/-- A directory entry of page 1, in the area at 0x50000, and the machine with it as the home of another module's requests. -/
def entry0 (state owner : Nat) (sharers : List Nat) : DirEntry :=
  { state := state, owner := owner, locm := 255, ver := 7, locf := 0, sharers := sharers, locator := { server := 1, object := 2, page := 3 } }
def entryCells (e : DirEntry) : List Host.Cell :=
  ((e.bytes (page 1)).zipIdx.filter fun x => x.1 ≠ 0#8).map fun x => (0x50000 + x.2, x.1)
def stHome (pages : List Host.Cell) (e : DirEntry) (reqs : List DirReq) : State :=
  let s := stVnp fun v => { v with dirArea := some (0x50000, 1), leases := [((page 1, 2), 0)], reqs := reqs }
  { s with mem := { s.mem with dram := pages ++ entryCells e } }
def request0 (write begun : Bool) : DirReq :=
  { key := page 1, src := 2, kind := if write then .write else .read, seq := 5, begun := begun, waits := [] }

/-- The tables with the leaf of page 1 not to be written (R456). -/
def pagesWp : List Host.Cell := pages0.map fun x => if x.1 = 0x30008 then (x.1, 2#8) else x

/-- A sector of a DRAM that nothing has spoiled is not lost. -/
theorem witness_not_lost {s : State} (h : s.rel = Reliability.reset) (sec : Nat) : s.readOutcome sec ≠ .lost := by
  have hb : s.byRebuild sec = false := by simp [State.byRebuild, h, Reliability.reset]
  have hs : tget s.rel.sick sec = none := by rw [h]; rfl
  unfold State.readOutcome
  rw [hb, hs]
  cases s.psn sec <;> exact nofun

/-- A message from another module that has arrived there is heard. -/
theorem witness_MessagesAreTakenAsTheyArrive :
    (∀ x ∈ [(2, VnpMsg.dirq 1 (page 1) false 5), (2, .dirq 1 (page 1) true 5), (2, .renew 1 (page 1) 5), (2, .release 1 (page 1) 5),
            (2, .pageRead (.module 1 9) (page 1) 5), (0, .ask 1 (page 2) (.downgrade 9) 5), (0, .ask 1 (page 2) .revoke 5),
            (0, .ask 1 (page 2) .recall 5), (0, .renewed 1 (page 2) 5 9)],
      let s := stVnp id
      let m := mail x.1 x.2.cls x.2.step.1
      x.1 ≠ s.moduleNo ∧ x.2.step.2 = 5 ∧ (x.2.cls = 1 ∨ x.2.cls = 2) ∧ (withMail [m] s).module.inbox = [] ++ m :: [] ∧
      Umril.fits m x.1 x.2.cls (65536 * x.2.step.1.asid) 5 = true ∧ Heard (withMail [m] s) x.1 x.2 (withMail [] s)) ∧
    (∀ data, Heard (withMail (List.replicate 16 (mail 2 3 (page 1))) (stVnp id)) 2 (.writeBack (.module 1 9) (page 1) 5 data)
      (withMail [] (stVnp id))) ∧
    ∀ x ∈ (stVnp id).module.inbox, Umril.fits x 0 1 0 5 = false ∧ Umril.fits x 0 2 0 5 = false := by
  refine ⟨?_, fun _ => ⟨by decide, rfl⟩, nofun⟩
  simp only [List.mem_cons, List.not_mem_nil, or_false]
  rintro x (rfl | rfl | rfl | rfl | rfl | rfl | rfl | rfl | rfl) <;> exact ⟨by decide, rfl, by decide, rfl, rfl, by decide, rfl⟩

theorem witness_HomesServeTheirKeys :
    2 ≠ (stVnp id).moduleNo ∧ (stVnp id).guests < 16 ∧ (stVnp id).vnp.reqs = [] ∧
    (∀ s ∈ [stVnp id, stHome pages0 (entry0 1 0 [2]) [], stHome pages0 (entry0 2 3 []) [request0 true true]],
      ∀ x ∈ [VnpMsg.dirq 1 (page 1) false 5, .dirq 1 (page 1) true 5, .renew 1 (page 1) 5, .release 1 (page 1) 5,
             .pageRead (.module 1 9) (page 1) 5], Heard (withMail [mail 2 1 (page 1)] s) 2 x (withMail [] s)) ∧
    (∀ wr ∈ [false, true], ((stVnp id).modVnp fun v => { v with reqs := [request0 wr false] }).dirEntry (page 1) = (none, (stVnp id).modVnp
      fun v => { v with reqs := [request0 wr false] })) ∧
    (∀ e ∈ [entry0 1 0 [2], entry0 1 0 [3, 4], entry0 2 3 [], entry0 2 2 [], entry0 0 0 []], ∀ wr ∈ [false, true],
      (∃ s1, ((stHome pages0 e []).modVnp fun v => { v with reqs := [request0 wr false] }).dirEntry (page 1) = (some e, s1) ∧
        s1.permitsWrite (page 1) = true) ∧ e.sharers.length < 8) ∧
    (∃ s1, ((stHome pagesWp (entry0 1 0 [2]) []).modVnp fun v => { v with reqs := [request0 true false] }).dirEntry (page 1) =
      (some (entry0 1 0 [2]), s1) ∧ s1.permitsWrite (page 1) = false) ∧
    (∀ e ∈ [entry0 1 0 [2], entry0 2 2 [], entry0 0 0 []],
      let s := stHome pages0 e [request0 true true]
      s.vnp.reqs = [request0 true true] ∧ (request0 true true).kind = .write ∧ (∃ s1, s.dirEntry (page 1) = (some e, s1)) ∧ tget s.vnp.leases (page 1, 2) = some 0) ∧
    0 + 1000000 ≤ (stVnp id).ptc.toNat ∧ Roomy (stVnp id) 2048 ∧
    ∀ i < 2048, WholeSector (stVnp id) (2048 * 9 + i) ∧ (stVnp id).readOutcome (2048 * 9 + i) ≠ .lost := by
  refine ⟨by decide, by decide, rfl, ?_, fun _ _ => rfl, ?_, ⟨_, Prod.ext (by decide +kernel) rfl, by decide +kernel⟩, ?_, by decide,
    ⟨by decide, by decide⟩, fun i _ => ⟨⟨nofun, nofun, nofun⟩, witness_not_lost rfl _⟩⟩ <;>
    simp only [List.mem_cons, List.not_mem_nil, or_false]
  · rintro s (rfl | rfl | rfl) x (rfl | rfl | rfl | rfl | rfl) <;> exact ⟨by decide, rfl⟩
  · rintro e (rfl | rfl | rfl | rfl | rfl) wr (rfl | rfl) <;>
      exact ⟨⟨_, Prod.ext (by decide +kernel) rfl, by decide +kernel⟩, by decide⟩
  · rintro e (rfl | rfl | rfl) <;> exact ⟨rfl, rfl, witness_fst (by decide +kernel), rfl⟩

theorem witness_HomeAndHeldPageStepsTakeEffect :
    (∀ fr ∈ [frame0 2 5 (0x500000000 + 2000000) false, frame0 2 5 0x500000000 false, frame0 3 6 0 true,
             frame0 4 7 (0x500000000 + 2000000) false, { frame0 2 5 (0x500000000 + 2000000) false with renewing := some (5, 0, 0) }],
      let s := withLock true (stVnp fun v => { v with frames := [fr], low := 1 })
      s.vnp.frameOf fr.key = some fr ∧ s.pageBusy fr.key = false ∧ s.homeOf fr.key ≠ s.moduleNo ∧ s.vnp.pool.length < s.vnp.low ∧
      s.vnp.atHand = some fr ∧ s.pageMoves fr.key = false ∧ s.guests < 16 ∧ s.running < 48 ∧ s.clockBad = false ∧ s.homeOf fr.key = 0 ∧
      (∀ a ∈ [HomeAsk.downgrade 9, .revoke, .recall], Heard (withMail [mail 0 1 fr.key] s) 0 (.ask 1 fr.key a 5) s) ∧
      Heard (withMail [mail 0 2 fr.key] s) 0 (.renewed 1 fr.key 5 9) s) ∧
    st0.leafBit (frame0 2 5 0 false) 5 = true ∧ st0.leafBit (frame0 4 7 0 false) 5 = false ∧ st0.leafBit (frame0 3 6 0 true) 6 = true ∧
    0x500000000 = st0.ptc.toNat ∧ (stVnp id).vnp.frameOf (page 2) = none ∧ (stVnp id).writesOut (page 2) = false := by
  refine ⟨?_, by decide +kernel, by decide +kernel, by decide +kernel, rfl, rfl, rfl⟩
  simp only [List.mem_cons, List.not_mem_nil, or_false]
  rintro fr (rfl | rfl | rfl | rfl | rfl) <;> exact ⟨rfl, rfl, by decide, by decide, rfl, rfl, by decide, by decide, by decide, rfl,
    fun _ _ => ⟨by decide, rfl⟩, by decide, rfl⟩

/-! Steps of the engines. -/

/-- The machine with a launch granted a bank engine. -/
def bankId0 : BankId := { stack := 0, eng := 0 }
def granted (s : State) : State := { s with launches := [{ launch0 with grant := [bankId0] }] }

/-- A walk that no walker has to serve. -/
def walkRun0 : WalkRun := { stack := none, since := 0, read := .degree, x := 1#32, out := [0#32], isOver := false, stop := none }

theorem witness_EngineQueueStepsTakeEffect :
    (let c := cmd0 .cpe (.accz 0)
     let s := stCmd c tm0
     s.cmd c.id = some c ∧ c.mute = false ∧ s.heads core0 .cpe = [c] ∧ c.cls = .cpe ∧ c.core = core0 ∧ s.guardOpen c = true ∧ c.held = false ∧ s.engBusy core0 .cpe = false ∧
     s.cmdsOf coh0 .cpe = [c]) ∧
    (∀ cls ∈ [EngClass.cpe, .wlk], let c := { cmd0 cls (.walk walk0 0#32 1#32 0) with guard := some 3 }
     let s := stCmd c { tm0 with guards := tm0.guards.set 3 .no }
     s.cmd c.id = some c ∧ s.heads core0 cls = [c] ∧ s.guardOf team0 3 = .no) ∧
    (∀ op ∈ [CmdOp.bankrun bank0 0 0 1, .bankst (t0 1 16 16 1 0 .n8) 0 0 1],
      let c := cmd0 .bke op
      let s := granted (stCmd c tm0)
      s.cmd c.id = some c ∧ s.heads core0 .bke = [c] ∧ s.guardOpen c = true ∧ s.collRoom c = true ∧ s.refusedAt c = none ∧
      bankId0 ∈ c.op.banks ∧ bankId0 ∈ s.grantOf c) ∧
    (let c := cmd0 .bke (.bankrun bank0 0 0 1)
     (stCmd c tm0).heads core0 .bke = [c] ∧ (stCmd c tm0).refusedAt c = some 3) ∧
    (let c := cmd0 .wlk (.walk walk0 0#32 1#32 0)
     let s := stCmd c tm0
     s.cmd c.id = some c ∧ s.heads core0 .wlk = [c] ∧ s.guardOpen c = true ∧ s.collRoom c = true ∧ s.refusedAt c = none ∧
     c.op.banks = [] ∧ ∀ x a b n, c.op ≠ .bankst x a b n) ∧
    (∀ p ∈ [(EngClass.wlk, CmdOp.walk walk0 0#32 1#32 0), (.cle, .coll coll0)],
      let c := { cmd0 p.1 p.2 with forwarded := true }
      let s0 := stCmd c tm0
      let s : State := { s0 with eng := { s0.eng with walks := [(7, walkRun0)] } }
      (s.eng.cmds.find? fun d => d.core = core0 ∧ d.cls = p.1 ∧ d.st = .queued ∧ d.forwarded = true ∧
        d.held = false ∧ d.cancelled = false ∧ s.takesUp d = true) = some c) ∧
    (let c := { cmd0 .cpe (.accz 0) with notBefore := some 0x500000000#64, held := true }
     (stCmd c tm0).cmd c.id = some c ∧ 0x500000000 ≤ (stCmd c tm0).ptc.toNat) ∧
    (let c := { cmd0 .cpe (.accz 0) with st := .ended 3, token := some 31 }
     let co : Cohort := { co0 with claims := [{ reg := 31, exec := 6, stat := 0, count := 0 }], counters := co0.counters.set 0 1 }
     let s : State := { stCmd c tm0 with cohorts := [(coh0, co)] }
     s.cmdsOf coh0 .cpe = [c] ∧ s.unperformed c.id = false ∧ tget s.cohorts coh0 = some co ∧
     (co.claims.find? fun x => x.exec = c.exec) = some { reg := 31, exec := c.exec, stat := 0, count := 0 }) ∧
    (let c := { cmd0 .cpe (.cpy (t0 1 64 64 1 0 .n8) (t0 1 64 64 1 0 .n8) none) with st := .running, cancelled := true }
     (stCmd c tm0).cmd c.id = some c ∧ c.op.stops = true) := by
  refine ⟨⟨rfl, rfl, by decide, rfl, rfl, rfl, rfl, rfl, by decide⟩, ?_, ?_, ⟨by decide, by decide⟩,
    ⟨rfl, by decide, rfl, rfl, by decide, by decide, nofun⟩, by decide, ⟨rfl, by decide⟩,
    ⟨by decide, rfl, rfl, by decide⟩, ⟨rfl, rfl⟩⟩ <;> simp only [List.mem_cons, List.not_mem_nil, or_false]
  · rintro cls (rfl | rfl) <;> exact ⟨rfl, by decide, by decide⟩
  · rintro op (rfl | rfl) <;> exact ⟨rfl, by decide, rfl, rfl, by decide, by decide, by decide⟩

/-- A running command of an engine, and a tensor at a base. -/
def run0 (cls : EngClass) (op : CmdOp) (step : Nat) : Command := { cmd0 cls op with st := .running, step := step }
def tAt (base : Nat) (t : TensorRec) : TensorRec := { t with base := base }

theorem witness_CopyTileAndSelectionStepsTakeEffect :
    (∀ dst ∈ [t0 2 32 32 1 0 .n8, tAt 0x1000 (t0 2 32 32 0 0 .n8), tAt 0x50000 (t0 2 32 32 0 0 .n8)],
      ∀ op ∈ [CmdOp.cpy dst (tAt 64 (t0 2 32 32 1 0 .n8)) (some 1), .cpy2d dst (tAt 64 (t0 2 32 32 1 0 .n8)) (some 1)],
      let c := run0 .cpe op 0
      (stCmd c tm0).acting 7 true = some c ∧ tget (stCmd c tm0).teams team0 = some tm0) ∧
    (cpyPiece (t0 2 32 32 1 0 .n8) 0).2.1 = 64 ∧
    (let c := run0 .cpe (.cpy2d (tAt 0x1000 (t0 2 32 32 0 0 .n8)) (tAt 64 (t0 2 32 32 1 0 .n8)) (some 1)) 0
     let s := stCmd c tm0
     (∃ ps s1, flatRange s c .write 0x1000 32 = (some ps, s1) ∧ s1.engBlocked c ps = false) ∧ (flatRange s c .write 0x50000 32).1 = none ∧
     ∃ bs s1, tensorRead s c (tAt 64 (t0 2 32 32 1 0 .n8)) 0 32 = (some bs, s1) ∧ bs.length = 32) ∧
    -(2 ^ 31) ≤ (st0.bar key0).bytes - ((64 : Nat) : Int) ∧
    (let pl := tAt 0x10000 (t0 64 512 0 2 4 .n8)
     let sc := tAt 0x40000 (t0 64 512 0 3 0 .n8)
     let src := t0 64 512 512 1 0 .e4m3
     ∀ m ∈ [tm0, { tm0 with scratch := [(5, 0x7F#8)] }],
      let c := run0 .cpe (.tcvp pl sc src none) 0
      let s := stCmd c m
      s.acting 7 true = some c ∧ tget s.teams team0 = some m ∧ 0 < pl.rows ∧
      (∀ j < pl.planes, sc.base < pl.base + 64 * pl.rows * j ∨ pl.base + 64 * pl.rows * j + 4 ≤ sc.base) ∧
      ∃ bs s1, tensorRead s c src 0 32 = (some bs, s1) ∧
        (planeBlock 4 ((List.range 32).map fun i => readFlushed (s.cmdIfl c) .e4m3 (elemAt .e4m3 bs i))).isSome = (m.scratch = [] : Bool)) ∧
    (∀ op ∈ [CmdOp.accz 0, .accadd 0 1, .accld 0 (t0 64 64 256 1 0 .f32), .accst 0 (t0 64 64 256 1 0 .f32) .rne,
             .accred 0 (t0 1 64 256 1 0 .f32) .rne true, .tselk (t0 1 4 16 1 0 .f32) (tAt 1024 (t0 1 4616 4616 1 0 .n8)) 1],
      let c := run0 .pme op 0
      (stCmd c tm0).acting 7 true = some c ∧ tget (stCmd c tm0).teams team0 = some tm0) ∧
    (let c := run0 .pme (.accld 0 (t0 64 64 256 1 0 .f32)) 0
     ∃ vs s1, readRows c (t0 64 64 256 1 0 .f32) 64 (stCmd c tm0) = (some vs, s1)) ∧
    (let c := run0 .pme (.accred 0 (t0 1 64 256 1 0 .f32) .rne true) 0
     ∀ row, ∃ s1, writeRows c (t0 1 64 256 1 0 .f32) [row] 0 (stCmd c tm0) = some (true, s1)) ∧
    (let c := run0 .sel (.tselk (t0 1 4 16 1 0 .f32) (tAt 1024 (t0 1 4616 4616 1 0 .n8)) 1) 0
     ∃ vs s1, readRows c (t0 1 4 16 1 0 .f32) 1 (stCmd c tm0) = (some vs, s1) ∧ vs.length = 1 ∧ tget s1.teams team0 = some tm0) ∧
    (let s0 := stCmd (run0 .pme (.accz 0) 0) tm0
     let s : State := { s0 with eng := { s0.eng with ghosts := [(7, tmFull)] } }
     s.cmd 7 = some (run0 .pme (.accz 0) 0) ∧ tget s.eng.ghosts 7 = some tmFull ∧ tget s0.eng.ghosts 7 = none) := by
  refine ⟨?_, rfl, ⟨⟨_, _, rfl, rfl⟩, by decide, _, _, rfl, rfl⟩, by decide, ?_, ?_, ⟨_, _, rfl⟩, fun _ => ⟨_, rfl⟩,
    ⟨_, _, rfl, rfl, rfl⟩, rfl, rfl, rfl⟩ <;>
    simp only [List.mem_cons, List.not_mem_nil, or_false]
  · rintro dst (rfl | rfl | rfl) op (rfl | rfl) <;> exact ⟨rfl, rfl⟩
  · rintro m (rfl | rfl) <;> exact ⟨rfl, rfl, by decide, by decide, _, _, rfl, by decide⟩
  · rintro op (rfl | rfl | rfl | rfl | rfl | rfl) <;> exact ⟨rfl, rfl⟩

theorem witness_MatrixEngineStepsTakeEffect :
    ∀ q ∈ [none, some (3 : Fin 4)], ∀ n ∈ [14, 15],
      let a := t0 64 512 0 2 4 .n8
      let c := run0 .pme (.tmma a (t0 64 512 0 3 0 .n8) a (t0 64 512 0 3 0 .n8) 0 q 0#32 0#32 0) n
      let s := stCmd c tm0
      s.acting 7 true = some c ∧ tget s.teams team0 = some tm0 ∧
      s.fusedWith c = [c] ∧ (∀ d ∈ s.eng.cmds, d.id = 7 → d = c) ∧ 0 < a.planes ∧ c.step < a.slabs * (a.planes * a.planes) ∧
      (tget s.eng.slabs 7).getD [] = [] ∧
      (n = 14 ↔ c.step % (a.planes * a.planes) + 1 ≠ a.planes * a.planes) := by
  simp only [List.mem_cons, List.not_mem_nil, or_false]
  rintro q (rfl | rfl) n (rfl | rfl) <;>
    exact ⟨rfl, rfl, rfl, fun _ h _ => List.mem_singleton.mp h, by decide, by decide, rfl, by decide⟩

/-- A bank engine with one command. -/
def eng0 (st : BankSt) : BankEng := { BankEng.idle with queue := [7], st := st }
def stBank (c : Command) (e : BankEng) : State :=
  let s := granted (stCmd c tm0)
  { s with eng := { s.eng with banks := [(bankId0, e)] } }

theorem witness_BankStepsTakeEffect :
    (∀ st ∈ [BankSt.waiting, .suspended],
      let c := cmd0 .bke (.bankrun bank0 0 0 1)
      let s := stBank c (eng0 st)
      (s.bank bankId0).queue = c.id :: [] ∧ s.cmd c.id = some c ∧ s.bankOut bankId0 = false ∧ s.ordinaryWaits bankId0 = false ∧
      (s.bank bankId0).quiet + 32 ≤ s.ptc.toNat ∧ s.engReady c false = true ∧ ∀ x ∈ c.op.banks, s.bankOut x = false) ∧
    (∀ row ∈ [0, 1],
      let c := run0 .bke (.bankrun bank0 0 0 1) 0
      let s := stBank c { eng0 .running with row := row }
      s.cmd c.id = some c ∧ bank0.rows = 2 ∧ (s.eng.banks.map Prod.fst).Nodup ∧
      ∃ r s1, bankCols bankId0 bank0 row (bank0.rowSteps 0) (List.range bank0.cols)
        { acc := (s.bank bankId0).acc, steps := 0, ok := true } s = (r, s1) ∧ r.ok = true) ∧
    (∀ stp ∈ [BankStep.scale 1 2 true 0, .add 1 2 3 false],
      let m : BankRec := { bank0 with steps := [stp, .adv] }
      let c := run0 .bke (.bankrun m 0 0 1) 0
      (stBank c (eng0 .running)).cmd c.id = some c ∧ m.cols = 1 ∧ 0 + 1 < m.rows ∧ m.rowSteps 0 = [stp]) ∧
    (let c := run0 .bke (.bankst (t0 1 16 16 1 0 .n8) 0 0 1) 0
     let s := stBank c (eng0 .suspended)
     s.acting 7 true = some c ∧ bankId0 ∈ s.grantOf c ∧ c.step / 2 ^ 0 % 2 = 0 ∧ tget s.teams team0 = some tm0) ∧
    (∀ c ∈ [cmd0 .bke (.bankrun bank0 0 0 1), run0 .bke (.bankrun bank0 0 0 1) 0],
      let s0 := stBank c (eng0 .running)
      let s : State := { s0 with rel := { s0.rel with out := [.bank bankId0] } }
      (s.bank bankId0).queue = [c.id] ∧ s.cmd c.id = some c ∧ s.bankOut bankId0 = true) := by
  refine ⟨?_, ?_, ?_, ⟨rfl, by decide, rfl, rfl⟩, ?_⟩ <;> simp only [List.mem_cons, List.not_mem_nil, or_false]
  · rintro st (rfl | rfl) <;> exact ⟨rfl, rfl, rfl, rfl, by decide, rfl, by decide⟩
  · rintro row (rfl | rfl) <;> exact ⟨rfl, rfl, by decide, _, _, rfl, by decide⟩
  · rintro stp (rfl | rfl) <;> exact ⟨rfl, rfl, by decide, by decide⟩
  · rintro c (rfl | rfl) <;> exact ⟨rfl, rfl, rfl⟩

/-- A walk of one step over the record at a base, whose first neighbours are at another. -/
def stWalk (nb nab doff : Nat) (r : WalkRun) : State :=
  let s := stCmd (run0 .wlk (.walk { walk0 with nb := nb, nab := nab, doff := doff } 0#32 1#32 0x1000) 0) tm0
  { s with eng := { s.eng with walks := [(7, r)] } }

/-- What a read of a walker comes to, and the state after it. -/
theorem witness_walk_read {s : State} {c : Command} {va : Nat} {e : Except WalkNext Nat} (h : (walkRead s c va).1 = e) :
    ∃ s1, walkRead s c va = (e, s1) := ⟨_, Prod.ext h rfl⟩

theorem witness_WalkAndChecksumStepsTakeEffect :
    (∀ x ∈ [(0x50000, 0x2000, WalkRead.degree, 0x50000, Except.error (WalkNext.stopAt 0x50000)),
            (0x1000, 0x2000, .degree, 0x1000, .ok 0), (0x800, 0x2000, .degree, 0x800, .ok 1), (0x800, 0x2000, .offset 1, 0x804, .ok 0),
            (0x800, 0x2000, .neighbour 0x2000, 0x2000, .ok 0), (0x800, 0x50000, .neighbour 0x50000, 0x50000, .error (.stopAt 0x50000))],
      let r := { walkRun0 with read := x.2.2.1 }
      let s := stWalk x.1 x.2.1 0 r
      let w := { walk0 with nb := x.1, nab := x.2.1 }
      let c := run0 .wlk (.walk w 0#32 1#32 0x1000) 0
      s.acting 7 false = some c ∧ c.mute = false ∧ s.walkRun 7 = some r ∧ s.walkServed r = true ∧ w.readAt r = x.2.2.2.1 ∧
        ∃ s1, walkRead s c x.2.2.2.1 = (x.2.2.2.2, s1)) ∧
    (let c := run0 .wlk (.walk { walk0 with nb := 0x800 } 0#32 1#32 0x1000) 0
     ∃ q, ((stWalk 0x800 0x2000 0 walkRun0).placeWalk c { walk0 with nb := 0x800 } { walkRun0 with read := .offset 1 }).walkRun 7 = some q ∧
       ((stWalk 0x800 0x2000 0 walkRun0).placeWalk c { walk0 with nb := 0x800 } { walkRun0 with read := .offset 1 }).acting 7 false = some c) ∧
    (let far : WalkRun := { walkRun0 with stack := some 0, since := 300 }
     let s0 := stWalk 0x1000 0x2000 0 far
     let ahead := (List.range 256).map fun i => (1000 + i, { walkRun0 with stack := some 0, since := i })
     let s : State := { s0 with eng := { s0.eng with walks := s0.eng.walks ++ ahead } }
     s.walkServed far = false) ∧
    (let s0 := stWalk 0x1000 0x2000 0 walkRun0
     let s : State := { s0 with rel := { s0.rel with out := [.walker (placeOf 0x1000).stack] } }
     let c := run0 .wlk (.walk walk0 0#32 1#32 0x1000) 0
     s.acting 7 false = some c ∧ ∃ s1, walkRead s c 0x1000 = (.error .outage, s1)) ∧
    (let c := { run0 .wlk (.walk walk0 0#32 1#32 0x1000) 0 with cancelled := true }
     let r := { walkRun0 with read := .neighbour 0x2000 }
     let s : State := { stCmd c tm0 with eng := { Engines.reset with cmds := [c], walks := [(7, r)] } }
     s.acting 7 false = some c ∧ s.walkRun 7 = some r ∧ s.walkServed r = true ∧ ∃ s1, walkRead s c 0x2000 = (.ok 0, s1)) ∧
    (let c := run0 .wlk (.walk walk0 0#32 1#32 0x1000) 0
     let r := { walkRun0 with isOver := true }
     (stWalk 0x1000 0x2000 0 r).acting 7 false = some c ∧ (stWalk 0x1000 0x2000 0 r).walkRun 7 = some r ∧ r.isOver = true ∧
     (walkWrite c [0#32] 0x1000 (stWalk 0x1000 0x2000 0 r)).1 = true) ∧
    (let src := t0 1 4096 4096 1 0 .n8
     let dst := tAt 0x1000 (t0 1 8 8 0 0 .n8)
     let c := run0 .cle (.cksum src dst) 0
     let s := stCmd c tm0
     s.acting 7 (src.inScratch || dst.inScratch) = some c ∧ tget s.teams team0 = some tm0 ∧
     ∃ ps s1, tensorPlace s c dst 0 8 = (some ps, s1) ∧ ∃ bs s2, tensorRead s1 c src 0 4096 = (some bs, s2)) := by
  refine ⟨?_, ⟨_, rfl, by decide +kernel⟩, by decide +kernel, ⟨rfl, witness_walk_read rfl⟩, ⟨rfl, rfl, rfl, witness_walk_read rfl⟩,
    ⟨rfl, rfl, rfl, by decide +kernel⟩, rfl, rfl, _, _, rfl, _, _, rfl⟩
  simp only [List.mem_cons, List.not_mem_nil, or_false]
  rintro x (rfl | rfl | rfl | rfl | rfl | rfl) <;> exact ⟨rfl, rfl, rfl, rfl, rfl, witness_walk_read rfl⟩

/-- A participant of rank 0 of two modules. -/
def stColl (r : CollRun) : State :=
  let s := stCmd { run0 .cle (.coll coll0) 0 with forwarded := true } tm0
  { s with eng := { s.eng with colls := [(7, r)] } }
def collRun0 : CollRun :=
  { rank := 0, sent := [], got := [], sums := [], kept := [((0, 0), ([0#8], 0))], asked := [((0, 0), 4)], shapeSent := false, shapeIn := true,
    tainted := false, last := 0 }

set_option maxRecDepth 100000 in
theorem witness_CollectiveStepsTakeEffect :
    (let c := { run0 .cle (.coll coll0) 0 with forwarded := true }
     let mail (cls len seq word : Nat) : Umril :=
       { port := 3, mode := .rud, op := .send, uetLen := len + 16, word := word,
         hdr := { ver := 1, src := 1, dst := 0, cls := cls, len := len, tag := 1, seq := seq } }
     ∀ x ∈ [((0, 1, 0, 0), [mail 4 32 0xFFFFFFFF 0]), ((1, 1, 0, 0), [mail 4 4096 0 0, mail 4 16 0 0]), ((2, 1, 0, 0), [mail 5 4 0 1]),
            ((3, 1, 0, 0), [mail 5 4 0 0])],
       (withMail x.2 (stColl collRun0)).takeColl c coll0 (1, 0) x.1 = some (3, stColl collRun0)) ∧
    (coll0.partOf ((0 + coll0.parts - 1) % coll0.parts) = (1, 0) ∧ coll0.partOf ((0 + 1) % coll0.parts) = (1, 0)) ∧
    (let s : State := { stColl collRun0 with mem := { (stColl collRun0).mem with accesses := [acc0 .load false] } }
     s.engReady { run0 .cle (.coll coll0) 0 with forwarded := true } false = false) ∧
    (let r := { collRun0 with got := [(0, 0), (1, 1)], sent := [(0, 0), (0, 1)], kept := [] }
     ¬ (r.got.length < coll0.expects r.rank ∨ r.kept ≠ [] ∨ r.sent.length < coll0.sendsAll r.rank)) ∧
    (let c := { run0 .cle (.coll coll0) 0 with forwarded := true }
     let s := stColl collRun0
     s.coll 7 = some (c, coll0, collRun0) ∧ s.engReady c false = true ∧ s.retained c.core.die < 2048 ∧
     coll0.nextSend c collRun0 s.ptc.toNat = some (0, 1) ∧ (readChunk s c coll0 1).1.isSome = true ∧
     (coll0.partOf ((0 + coll0.parts - 1) % coll0.parts)).1 ≠ s.moduleNo ∧ (coll0.partOf ((0 + 1) % coll0.parts)).1 ≠ s.moduleNo ∧
     0 ∈ coll0.sends ((0 + coll0.parts - 1) % coll0.parts) 0 ∧ coll0.reduces 0 = true ∧
     (flatRange s c .write (coll0.buf + 4096 * 0) 4096).1.isSome = true ∧ tget collRun0.kept (0, 0) = some ([0#8], 0) ∧
     chunkSum [0#8] = 0 ∧ collRun0.got.length < coll0.expects collRun0.rank ∧ collRun0.last + 20000000 ≤ s.ptc.toNat) := by
  refine ⟨?_, by decide, by decide, by decide, rfl, rfl, by decide, by decide, by decide +kernel, by decide, by decide, by decide, rfl,
    by decide +kernel, rfl, by decide, by decide, by decide⟩
  simp only [List.mem_cons, List.not_mem_nil, or_false]
  rintro x (rfl | rfl | rfl | rfl) <;> rfl

/-! Steps of launches, the fabric and the host. -/

/-- A state with launches and a team as given, nothing of which is in progress. -/
def stLaunch (ls : List Launch) (ms : List (TeamId × Team)) : State := { st0 with launches := ls, teams := ms, threads := [], issue := none }
def waiting0 (waits : List (Nat × Nat)) : Launch :=
  { launch0 with state := .queued, left := false, desc := { launch0.desc with waits := waits } }

/-- A sector that no level holds and that nothing has spoiled. -/
theorem witness_whole {s : State} {sec : Nat} (h : tget s.mem.l2 sec = none) (hw : s.mem.writeBacks = []) (hs : s.sideCopy sec = none) :
    WholeSector s sec where
  l2 l e := by rw [h] at e; cases e
  back w m := by rw [hw] at m; cases m
  side x e := by rw [hs] at e; cases e

/-- A state whose first page is of the module (R242), and one with launches so. -/
def local0 (s : State) : State :=
  { s with mem := { s.mem with dram := pages0.map fun x => if x.1 = 0x30000 then (x.1, 0x7D#8) else x } }
def stCp (ls : List Launch) : State := local0 (stLaunch ls [])

theorem witness_LaunchStepsTakeEffect :
    (let x : Spawn := { tid := tid0, pend := 9, asid := 0, root := some 0, va := 0x1000, arg := 0#32, after := [] }
     let s := local0 { st0 with cp := { st0.cp with spawns := [x] } }
     s.cp.spawns = x :: [] ∧ x.after = [] ∧ x.va + 512 ≤ 2 ^ 57 ∧ (cpRead s x.root x.va 512).1.isSome = true) ∧
    (∀ ws ∈ [[], [(0x1000, 0)], [(0x1000, 1)], [(0x50000, 1)]],
      let s := stCp [waiting0 ws]
      s.queueHead 0 = some (waiting0 ws) ∧ (waiting0 ws).state = .queued ∧ s.launchOf 1 = some (waiting0 ws) ∧
      ∃ g gs, (waiting0 ws).stages = g :: gs ∧ g.lid = 1) ∧
    (cpTranslate (stCp [waiting0 []]) (some 0) 0x1000 .read).1 = some 0x1000 ∧
    (homeRead (stCp [waiting0 []]) 0x1000 8).1.1 = List.replicate 8 0#8 ∧
    (cpTranslate (stCp [waiting0 []]) (some 0) 0x50000 .read).1 = none ∧
    (cpTranslate (stLaunch [waiting0 []] []) (some 0) 0x1000 .read).1 = none ∧
    (∀ ok ∈ [true, false],
      let l := { launch0 with state := .ending ok, desc := { launch0.desc with sigp := 0x1000 } }
      let s := stCp [l]
      s.launches = [l] ∧ s.launchOf 1 = some l ∧ s.launchOver l = some ok ∧ ∃ s1, cpTranslate s l.root 0x1000 .write = (some 0x1000, s1) ∧
        Roomy s1 2 ∧ WholeSector s1 128 ∧ s1.readOutcome 128 ≠ .lost) ∧
    (let m := { tm0 with preempt := .chosen 0 }
     tget (stLaunch [launch0] [(team0, m)]).teams team0 = some m ∧ 0 + 100000 ≤ (stLaunch [launch0] [(team0, m)]).ptc.toNat) ∧
    (let m := { tm0 with preempt := .saving }
     let s := { stLaunch [launch0] [(team0, m)] with threads := [(tid0, th0)], rel := { Reliability.reset with saveFree := 1 } }
     tget s.teams team0 = some m ∧ s.parts = [] ∧ s.mem.passes = [] ∧ (∀ p ∈ s.threads, p.2.pends = [] ∧ p.2.kept = none) ∧
     (∀ p ∈ s.cohorts, p.2.pends = []) ∧ s.eng.cmds = [] ∧ 1 ≤ s.rel.saveFree ∧
     ∃ g k pc, s.stage 1 = some (launch0, g, k) ∧ (g.placed.find? fun c => c.k4 = m.k4) = some pc ∧ launch0.desc.tpc = pc.gone.length + 1) ∧
    (let l := { launch0 with replayable := true }
     ∀ side ∈ [false, true], ∀ n ∈ [0, 1],
       let s := { (stMem fun m => { m with accesses := [acc0 (.store (List.replicate 8 1#8) true) side] }) with
                    launches := [l], rel := { Reliability.reset with snapFree := n } }
       s.launchOf 1 = some l ∧ l.snapshot = [] ∧ s.pageWanted 1 0 = some side ∧ 65536 * (0 + 1) ≤ dramLimit ∧ s.rel.snapFree = n) := by
  refine ⟨⟨rfl, rfl, by decide, by decide +kernel⟩, ?_, by decide +kernel, by decide +kernel, by decide +kernel, by decide +kernel, ?_, ⟨rfl, by decide⟩,
    ⟨rfl, rfl, rfl, by decide, by decide, rfl, by decide, _, _, _, rfl, rfl, rfl⟩, ?_⟩ <;>
    simp only [List.mem_cons, List.not_mem_nil, or_false]
  · rintro ws (rfl | rfl | rfl | rfl) <;> exact ⟨rfl, rfl, rfl, _, _, rfl, rfl⟩
  · rintro ok (rfl | rfl) <;>
      exact ⟨rfl, rfl, rfl, witness_fst_and (by decide +kernel) ⟨⟨by decide +kernel, by decide +kernel⟩,
        witness_whole (by decide +kernel) (by decide +kernel) (by decide +kernel), by decide +kernel⟩⟩
  · rintro side (rfl | rfl) n (rfl | rfl) <;> exact ⟨rfl, rfl, rfl, by decide, trivial⟩

/-- The launch with nothing of it placed, on a machine that holds nothing else. -/
def fresh0 : Launch :=
  { launch0 with stages := [{ lid := 1, entry := 0#57, nextK4 := 0, ended := 0, placed := [], saved := [], floors := [], items := [] }] }

theorem witness_PlacementStartsAFittingCluster :
    (stLaunch [fresh0] []).launches = [fresh0] ∧ fresh0.desc.stages = [] ∧ fresh0.desc.ncl = 1 ∧ fresh0.desc.tpc = 1 ∧
    fresh0.desc.queue < 64 ∧ fresh0.state = .eligible ∧ fresh0.admitted = true ∧
    (stLaunch [fresh0] []).fit fresh0 = some (0, 0, [setupPlace]) :=
  ⟨rfl, rfl, rfl, rfl, by decide, rfl, rfl, by decide +kernel⟩

theorem witness_ReliabilityStepsTakeEffect :
    (let s : State := { st0 with ptc := 0xFFFFFFFFFFFF#64 }
     s.rel.testMinutes ≠ 0 ∧ s.rel.draining = none ∧ s.rel.lastTest + s.rel.testMinutes * 60000000000 ≤ s.ptc.toNat ∧
     ((clustersFrom s.rel.nextCluster).find? fun c => !s.passedOver c) = some (0, 0)) ∧
    (let s : State := { st0 with teams := [], rel := { st0.rel with draining := some (0, 0) } }
     s.rel.draining = some (0, 0) ∧ ∀ p ∈ s.teams, ¬ (p.2.core.die = 0 ∧ p.2.core.core / 8 = 0)) ∧
    st0.rel.passing = false ∧
    (∀ x ∈ [(([], []), ReadOutcome.clean), (([(0, 0x0400000000000000#64)], []), .poison), (([], [(0, .oneSymbol)]), .corrected),
            (([], [(0, .broken)]), .rebuilt), (([], [(0, .broken), (3, .broken)]), .lost)],
      let s : State := { st0 with rel := { st0.rel with passing := true, side := x.1.1, sick := x.1.2 } }
      s.rel.passing = true ∧ channelSectors < arraySectors ∧ s.arraySector channelSectors = (.data 0, false) ∧ s.readOutcome 0 = x.2 ∧
      s.byRebuild 0 = false) ∧
    (let x : Stripe := { stack := 0, group := 0, row := 0, moved := false }
     let bad (q : List Byte × DWord) : State := { st0 with rel := { st0.rel with passing := true, parity := [(x, q)] } }
     let sick : State := { st0 with rel := { st0.rel with passing := true, sickParity := [(x, .broken)] } }
     st0.arraySector 0 = (.parity x, false) ∧ tget st0.rel.sickParity x = none ∧ tget st0.rel.parity x = none ∧
     tget sick.rel.sickParity x ≠ none ∧ (∀ y ∈ sick.membersOf x, tget sick.rel.sick y ≠ some .broken) ∧
     (∀ w, tget (bad ([1#8], w)).rel.parity x = some ([1#8], w) ∧ ([1#8], w) ≠ (bad ([1#8], w)).parityOf x) ∧
     st0.arraySector 18164062 = (.free, false)) ∧
    (let s : State := { st0 with ptc := 86400000000000#64, rel := { st0.rel with passing := true, visited := [(0, arraySectors)] } }
     s.rel.passStart + s.rel.passHours * 3600000000000 ≤ s.ptc.toNat ∧ ∀ p ∈ s.rel.side, sideKv p.2 ≠ (s.rel.vw + 3) % 4) ∧
    (∀ n ∈ [18164061, 18164062],
      let r : Retired := { stack := 0, group := 0, channel := 0, donors := [], boundary := n, done := false }
      let s : State := { st0 with rel := { st0.rel with retired := [r] } }
      s.rebuildOf 0 0 = some r ∧ (s.arraySector 0).2 = true) := by
  refine ⟨⟨by decide, rfl, by decide, by decide⟩, ⟨rfl, by decide⟩, rfl, ?_,
    ⟨by decide +kernel, rfl, rfl, by decide, by decide +kernel, fun w => ⟨rfl, fun h => ?_⟩, by decide +kernel⟩, ⟨by decide, by decide⟩, ?_⟩
  · simp only [List.mem_cons, List.not_mem_nil, or_false]
    rintro x (rfl | rfl | rfl | rfl | rfl) <;> exact ⟨trivial, by decide, by decide +kernel, by decide +kernel, by decide +kernel⟩
  · exact absurd (congrArg (fun q => q.1.length) h) (show ¬ (1 = 32) by decide)
  · simp only [List.mem_cons, List.not_mem_nil, or_false]
    rintro n (rfl | rfl) <;> exact ⟨rfl, by decide +kernel⟩

/-- A packet from module 2 at a scale-up port, by its delivery mode and its version. -/
def msg0 (mode : Delivery) (ver : Nat) : Umril :=
  { port := 0, mode := mode, op := .send, hdr := { ver := ver, src := 2, dst := 0, cls := 5, len := 0, tag := 0, seq := 0 }, uetLen := 16,
    word := 1 }

theorem witness_LinkAndClockStepsTakeEffect :
    (LinkId.ok { die := 0, other := 1 } = true ∧ LinkId.ok { die := 3, other := 4 } = true ∧
     (st0.link { die := 0, other := 1 }).failed = false ∧ (st0.link { die := 3, other := 4 }).failed = false ∧
     (∀ t ∈ st0.teams, t.2.core.die ≠ 3) ∧ ¬ (3 < 4 ∧ 5 ≤ 4 ∧ 5 ≠ 3)) ∧
    ¬ ({ msg0 .rod 1 with port := 20 }.port < 20) ∧
    (let s : State := { st0 with module := { st0.module with maddr := [(2, 0, 0)], planes := [0] } }
     ∀ m ∈ [msg0 .rod 1, msg0 .rod 2, msg0 .uud 1], m.port < 20 ∧ m.port ∈ s.module.planes ∧ m.op = .send ∧
       ((m.mode = .rud ∨ (m.mode = .rod ∧ m.port < 16)) ↔ m.mode ≠ .uud) ∧
       ((m.hdr.ver = 1 ∧ 1 ≤ m.hdr.cls ∧ m.hdr.cls ≤ 5 ∧ m.hdr.dst = s.moduleNo ∧ m.hdr.len + 16 = m.uetLen ∧
         (m.hdr.cls = 5 → m.word ≤ 1) ∧ ∃ e ∈ s.module.maddr, e.1 = m.hdr.src) ↔ m.hdr.ver ≠ 2)) ∧
    (let f : Flight := { dst := 2, cls := 1, len := none, tag := 0, seq := 1, n := 0, plane := some 0 }
     let s : State := { st0 with module := { st0.module with planes := [1], flights := [f, { f with plane := some 1 }] } }
     0 ∉ s.module.planes ∧ s.module.planes ≠ [] ∧ s.module.flights[0]? = some f ∧ (s.module.flights[1]?).map (fun f => f.plane) = some (some 1)) ∧
    (let c := { st0.module.clock with rank := some 5, sync := some (7, 0), asked := some (1, 2, 4) }
     let s : State := { st0 with module := { st0.module with clock := c } }
     (∀ r, st0.module.clock.rank = some r → 9 < r) ∧ s.module.clock.port + 1 ≠ c.port ∧ (∀ r, c.rank = some r → r = 5) ∧ 9 ≠ c.grandmaster ∧
     c.rank.isSome = true ∧ c.everLocked = false ∧ ((0 : Nat) : Int) - ((10 : Nat) + 0) - c.delay < 0 ∧
     ¬ (((0 : Nat) : Int) - ((0 : Nat) + 0) - c.delay < 0) ∧ c.locked = false ∧ c.lostAt + 1000000000 < s.ptc.toNat ∧ c.alarm = false) ∧
    (let s : State := { st0 with module := { st0.module with clock := { st0.module.clock with offset := -500001, locked := true } } }
     500000 < s.module.clock.offset.natAbs ∧ s.module.clock.alarm = false) := by
  refine ⟨by decide, by decide, by decide, by decide, ⟨nofun, by decide, ?_, by decide, rfl, rfl, by decide, by decide, rfl, by decide, rfl⟩,
    by decide⟩
  rintro r ⟨⟩; rfl

theorem witness_HostCommandsTakeEffect :
    HostFree st0 ∧ 0x1000 % 64 = 0 ∧ 0x1000 + 512 ≤ dramLimit ∧ ¬ ((dramLimit - 448) % 64 = 0 ∧ dramLimit - 448 + 512 ≤ dramLimit) ∧
    st0.launchOf 5 = none ∧ st0.launchOf 1 = some launch0 ∧ (∀ b, launch0.state ≠ .ending b) ∧ (2 ^ 52 - 256) % 256 = 0 ∧
    (let w : WLoad := { seq := 1, die := 0, off := 0, pa := 0x1000, len := 32 }
     let s : State := { st0 with teams := [], cp := { st0.cp with wloads := [w] } }
     (s.cp.wloads.find? fun w => w.die = 0) = some w ∧ s.weightUser 0 = false ∧ (readSectors s w.pa w.len).1.length = w.len) ∧
    ((((List.range 31).map fun i => (159 / 5 + i + 1) % 32).filter fun d => d ∉ ([] : List Nat)).take 7).length = 7 ∧
    (let r : Retired := { stack := 23, group := 31, channel := 159, donors := [0, 1, 2, 3, 4, 5, 6], boundary := 0, done := false }
     159 / 5 ∈ ([r].filter fun x => x.stack = 23).flatMap fun x => x.group :: x.donors) ∧
    ¬ (1 ≤ 15 ∧ 15 ≤ 14 ∧ 0 = 0) :=
  ⟨⟨fun _ h => (List.not_mem_nil h).elim, fun _ h => (List.not_mem_nil h).elim⟩,
   rfl, by decide, by decide, rfl, rfl, nofun, by decide, ⟨rfl, rfl, by decide⟩, by decide, by decide, by decide⟩

theorem witness_HostSettingsTakeEffect :
    HostFree st0 ∧ (1 ≤ 1000 ∧ 1000 ≤ 1000) ∧ ¬ (1 ≤ 1001 ∧ 1001 ≤ 1000) ∧ (1 ≤ 100 ∧ 100 ≤ 100) ∧ (1 ≤ 720 ∧ 720 ≤ 720) ∧ ¬ 1441 ≤ 1440 ∧
    (4 < 5 ∧ 60 ≤ 60 ∧ 60 ≤ 100) ∧ 63 < 64 ∧ st0.ptc.toNat < (st0.ptc + 1#64).toNat ∧ 7 < CtrPlace.count (.core core0) ∧
    (let c : EvCounter := { count := 5#48, ctl := 0x80000000#32, cleared := none }
     tget ({ st0.module with counters := [((CtrPlace.vnp, 7), c)] } : Module).counters (.vnp, 7) = some c) ∧ (0xA0000000#32).getLsbD 29 = true ∧ (0x80000000#32).getLsbD 29 = false ∧
    0 + 4096 ≤ dramLimit ∧ (∀ e ∈ [(2, 0, 0), (2, 1, 5)], e.1 < 256 ∧ e.2.1 < 16 ∧ e.2.2 < 2 ^ 128 ∧
      ([(2, 0, 0), (2, 1, 5)].filter fun f => f.1 = e.1 ∧ f.2.1 = e.2.1).length = 1) ∧
    (let d : Declined :=
       { id := 3, va := 65536, asid := 0, rfqi := 0, die := 0, kind := .read, reason := 4, lid := 1, tids := [tid0], pc := 0#57 }
     ∀ st ∈ [ParkState.declined 4, .saved (some 4) false],
     let r := { park0 1 st with asked := some 3 }
     let s := stVnp fun v => { v with declined := [d], rfq := [r] }
     (s.vnp.declined.find? fun d => d.die = 0 ∧ d.rfqi = 0) = some d ∧
     (s.vnp.rfq.filter fun r => decide (r.asked = some d.id) && r.awaits) = [r] ∧
     (∀ x ∈ s.vnp.rfq, x.group = r.group ∨ x.order = r.order → x = r) ∧ s.launchOf r.lid = some launch0) ∧
    (st0.vnp.declined.find? fun d => d.die = 0 ∧ d.rfqi = 0) = none := by
  refine ⟨⟨fun _ h => (List.not_mem_nil h).elim, fun _ h => (List.not_mem_nil h).elim⟩, by decide, by decide, by decide,
    by decide, by decide, by decide, by decide, by decide, by decide, rfl, by decide, by decide, by decide, by decide, ?_, rfl⟩
  simp only [List.forall_mem_cons, List.not_mem_nil, false_implies, implies_true, and_true]
  exact ⟨⟨rfl, rfl, fun _ h _ => List.mem_singleton.mp h, rfl⟩, rfl, rfl, fun _ h _ => List.mem_singleton.mp h, rfl⟩

theorem witness_PowerStepsTakeEffect :
    HostFree State.reset ∧ PwrScope.ok (.cluster 3 5) = true ∧ PwrScope.ok (.die 3) = true ∧ State.reset.teams = [] ∧
    State.reset.launches = [] ∧ st0.teams ≠ [] ∧ PwrScope.ok (.die 4) = false ∧
    (let s : State := { State.reset with module := { Module.reset with power := [(.die 0, { state := 3, gating := true, returning := some (5, 1#32) })] } }
     (s.powerOf (.die 0)).gating = true ∧ (s.powerOf (.die 0)).returning = some (5, 1#32) ∧ s.teams = []) ∧
    (State.reset.powerOf (.die 0)).state ≤ 3 ∧
    (let s : State := { State.reset with module := { Module.reset with power := [(.die 0, { state := 4, gating := false, returning := none })] } }
     HostFree s ∧ 4 ≤ (s.powerOf (.die 0)).state) ∧
    st0.thresholdOf 4 ≤ 95 ∧ (4, 3) ∉ st0.module.alerted ∧ 90 + 5 ≤ st0.thresholdOf 4 ∧
    (let b : BootInput := { links := true, dram := true, firmware := { signed := true, version := 0 }, cp := { signed := true, version := 0 },
                            vnp := { signed := true, version := 0 }, supervisor := { signed := true, version := 0 } }
     b.links = true ∧ b.dram = true ∧ b.firmware.signed = true ∧ st0.module.rollback ≤ b.firmware.version ∧ { b.cp with signed := false }.signed = false ∧
     0 < { st0.module with rollback := 1 }.rollback) :=
  ⟨⟨fun _ h => (List.not_mem_nil h).elim, fun _ h => (List.not_mem_nil h).elim⟩, rfl, rfl, rfl, rfl, by decide, rfl, ⟨rfl, rfl, rfl⟩,
   by decide, ⟨⟨fun _ h => (List.not_mem_nil h).elim, fun _ h => by cases List.mem_singleton.mp h; rfl⟩, by decide⟩, by decide, by decide, by decide,
   rfl, rfl, rfl, by decide, rfl, by decide⟩

/-! Operands, frames, encodings, the step and the invariants. -/

theorem witness_OperandsReadTheLaneTheyName :
    (∀ x ∈ [(Perm.same, (0 : Fin 32)), (.bfly 4, 16), (.rot 6, 7), (.rev, 31), (.repl 31, 31)],
      let u : Tid := { tid0 with lane := x.2 }
      u.coh = tid0.coh ∧ permTid x.1 tid0 = u ∧ (u ∈ st0.group ↔ x.2 = 0)) ∧
    tid0.lane.val ^^^ 2 ^ 4 = 16 ∧ tid0.lane.val &&& 0x18 ||| (tid0.lane.val + 6 + 1) % 8 = 7 ∧ 31 - tid0.lane.val = 31 ∧
    Executes st0 is0 always tid0 th0 ∧ st0.execs always = [tid0] ∧ th0.latches[(3 : Fin 4)] = .invalid ∧
    tget st0.teams team0 = some tm0 ∧ st0.launch tid0 = some launch0 ∧
    (stOf { th0 with latches := th0.latches.set 3 (.valid 9#32) } co0 tm0).thread tid0 =
      { th0 with latches := th0.latches.set 3 (.valid 9#32) } :=
  ⟨by decide, by decide, by decide, by decide, witness_executes, rfl, rfl, rfl, rfl, rfl⟩

theorem witness_RegisterInstructionsTouchOnlyTheirThreads :
    (∃ v s', viewOf (.mov always (toG 1) (g 2)) = some v ∧ v.op < 0x70 ∧ v.guard = always ∧ exec (.mov always (toG 1) (g 2)) st0 = .next s') ∧
    tid1 ∉ st0.group ∧ guardTrue { always with tt := 0#8 } th0 = false ∧ st0.issue = some is0 ∧ tget st0.threads tid0 = some th0 ∧
    st0.claimOn tid0 (.g 1) = none ∧ cellOf th0 (.g 2) = some (.g 2) ∧ pend0.cells[0]? = some (.g 2) ∧ pend0.live[0]? = some true ∧
    (let s : State := { st0 with cohorts := [(coh0, { co0 with claims := [{ reg := 31, exec := 6, stat := 0, count := 0 }] })] }
     s.claimOn tid0 (.s 31) = some (31, 6)) ∧
    (∃ f, formatSlot st0 0 = some f ∧ cvtfFault f 3 = none) ∧ (∃ f, formatSlot st0 3 = some f ∧ (cvtfFault f 0).isSome = true) :=
  ⟨⟨_, _, rfl, by decide, rfl, rfl⟩, by decide, rfl, rfl, rfl, rfl, rfl, rfl, rfl, rfl, ⟨_, rfl, rfl⟩, _, rfl, rfl⟩

theorem witness_FlatMemoryInstructionsLeaveOthersAlone :
    ∃ s', exec (.st always (g 4) (g 2) 0#24 .b32) st0 = .next s' ∧ tid1 ∉ st0.group := ⟨_, rfl, by decide⟩

theorem witness_DecodingUndoesEncoding :
    wellFormed (.add always (toG 1) (g 2) (.src (g 3)) false) = true ∧
    encode (.add always (toG 1) (g 2) (.src (g 3)) false) = some 0x00FF00002040060000000000#96 := ⟨rfl, rfl⟩

theorem witness_EncodingUndoesDecoding :
    decode 0x00FF00002040060000000000#96 = .ok (.add always (toG 1) (g 2) (.src (g 3)) false) := rfl

/-- A thread in a run at slot 0 of a line at address 0 whose slots are as given, and its partition's turn. -/
def part0 : PartId := { core := core0, part := 0 }
def runOf (pc : Pc) : Run := { tids := [tid0], pc := pc, rsl := 0, start := 0 }
def stRun (bs : List Byte) : State :=
  { st0 with
    issue := none, sched := [.issue part0], mem := { st0.mem with lines := [((core0, 0), bs)] },
    parts := [(part0, { entries := [], queue := [], runs := [runOf 0#57], replays := [], admissions := [], retry := none })] }

/-- A line whose first two slots are a pair: MOVI and NOP. -/
def pairLine : List Byte := lineWith [0x20FF00002000000000000000#96, nopWord, nopWord, nopWord, nopWord] (2 ^ 10 + 2 ^ 19)

/-- The state in which such a run's slot acts, and its issue. -/
def stSlot (bs : List Byte) : State := entered [tid0] (State.bump { stRun bs with sched := [], cycle := 1 } (.core core0) 1)
def isSlot (bs : List Byte) : Issue := issueAt part0 0#57 bs [tid0] 0

set_option maxRecDepth 100000 in
theorem witness_StepRunsTheDecodedInstruction :
    st0.module.booted = true ∧ (stRun pairLine).nextCommand = none ∧
    (let s : State := { st0 with cp := { st0.cp with ring := [.cancel 1#32 5] } }
     s.nextCommand = some (.cancel 1#32 5, st0) ∧ isCommand (.cancel 1#32 5) = true ∧ s.cp.ring ≠ [] ∧ isCommand (.nop always) = false) ∧
    (∀ bs ∈ [lineOfWord nopWord, pairLine],
      (stRun bs).sched = .issue part0 :: [] ∧
      (∃ s1, State.select { stRun bs with sched := [], cycle := 1 } part0 = some (runOf 0#57, s1) ∧
        ∃ s2, fetchLine false (s1.bump (.core core0) 1) tid0 0#57 = (.line bs, s2) ∧ entryTrap bs 0#57 (s2.thread tid0).entry = none) ∧
      slotCause (stSlot bs) (isSlot bs) bs = none) ∧
    (isSlot (lineOfWord nopWord)).tpl = 0 ∧ decode (isSlot (lineOfWord nopWord)).word = .ok (.nop always) ∧
    (let is := isSlot pairLine
     let is2 := secondOf pairLine is [tid0]
     is.tpl = 2 ∧ decode is.word = .ok (.movi always (toG 1) 0#32) ∧ decode is2.word = .ok (.nop always) ∧
     ∃ s4, exec (.movi always (toG 1) 0#32) (State.bump { stSlot pairLine with issue := some is } (.core is.part.core) 2) = .next s4 ∧
       (let s6 := (afterFirst is (stSlot pairLine) (endReplayTraps 0#57 [tid0] s4)).noteLate is (some is2) [tid0]
        passed is (s6.thread tid0) = true ∧ stays is (s6.thread tid0) = false ∧
        s6.readyFor (instrOf is2.word).toList tid0 = true ∧ slotCause s6 is2 pairLine = none)) := by
  refine ⟨rfl, rfl, ⟨rfl, rfl, nofun, rfl⟩, ?_, rfl, rfl, rfl, rfl, rfl, _, rfl, by decide, by decide, by decide, by decide⟩
  simp only [List.mem_cons, List.not_mem_nil, or_false]
  rintro bs (rfl | rfl) <;> exact ⟨rfl, ⟨_, rfl, _, rfl, rfl⟩, by decide⟩

theorem witness_EveryStepLeavesTheMachineSettled :
    (stRun (lineOfWord nopWord)).issue = none ∧ (stRun (lineOfWord nopWord)).traps = [] ∧
    ∀ p ∈ (stRun (lineOfWord nopWord)).threads, p.2.status = .inRun := by decide

theorem witness_MemoryStaysCanonical :
    Memory.wf 0#8 st0.mem.dram = true ∧ ∃ s', exec (.nop always) st0 = .next s' := ⟨by decide, _, rfl⟩

theorem witness_OnlyTimeMovesTheClock :
    (∃ s', exec (.nop always) st0 = .next s') ∧ ∃ s', exec (.fwdstep 1 (st0.ptc + 1#64)) st0 = .next s' := ⟨⟨_, rfl⟩, _, rfl⟩

/-- A boot that has stopped, and its next turn. -/
def stopped0 : State := { State.reset with sched := [.event (.nop always)] }

theorem witness_StoppedBootsAndTripsLast_boot :
    (1 ≤ 4 ∧ 4 ≤ 4) ∧ stopped0.module.booted = false ∧ stopped0.takeTurn.1 = .event (.nop always) ∧
    ∃ s', step stopped0 = .next s' := ⟨by decide, rfl, rfl, _, rfl⟩

theorem witness_ThermalAlertsAreWrittenOnce :
    HostFree st0 ∧ 4 < 5 ∧ 3 < 4 ∧ (60 ≤ 100 ∧ 100 ≤ 100) ∧ ¬ (60 ≤ 59 ∧ 59 ≤ 100) ∧ st0.thresholdOf 4 < 96 ∧ (4, 3) ∉ st0.module.alerted ∧
    (4, 3) ∈ ({ st0.module with alerted := [(4, 3)] } : Module).alerted ∧ 90 + 5 ≤ st0.thresholdOf 4 ∧ st0.thresholdOf 4 < 91 + 5 :=
  ⟨⟨fun _ h => (List.not_mem_nil h).elim, fun _ h => (List.not_mem_nil h).elim⟩, by decide, by decide, by decide, by decide, by decide, by decide,
   by decide, by decide, by decide⟩

theorem witness_StoppedBootsAndTripsLast_trip :
    4 < 5 ∧ 3 < 4 ∧ 105 ≤ 105 ∧ stopped0.module.booted = false ∧ (∀ f, stopped0.takeTurn.1 ≠ .event (.powerUp f)) ∧
    ∃ s', step stopped0 = .next s' := ⟨by decide, by decide, by decide, rfl, fun f h => by simp [stopped0, State.takeTurn] at h, _, rfl⟩

/-! ### Single steps -/

/-- A g-register of the thread after an instruction from that state. -/
def gAfter (i : Instr) (n : Fin 16) : Option Word :=
  match exec i st0 with
  | .next s => some (readReg s tid0 (.g n))
  | .fault _ | .refused _ => none

/-- A sum wraps modulo 2^32 (R127). -/
theorem test_add_wraps : gAfter (.add always (toG 1) (g 6) (.imm 0x10#12) false) 1 = some 0#32 := by decide

/-- A quotient by 0 is all ones (R127). -/
theorem test_div_zero : gAfter (.divN always (toG 1) (g 1) (.src (g 0))) 1 = some 0xFFFFFFFF#32 := by decide

/-- A shift by 32 leaves 0, and an arithmetic one of a negative word all ones (R127). -/
theorem test_shifts : gAfter (.shl always (toG 1) (g 1) (.imm 32#12)) 1 = some 0#32 ∧
    gAfter (.shrS always (toG 1) (g 6) (.imm 32#12)) 1 = some 0xFFFFFFFF#32 := by decide

/-- No bit of 0 is set (R127). -/
theorem test_clz_zero : gAfter (.clz always (toG 1) (g 0)) 1 = some 32#32 := by decide

/-- 5 is 1.25 x 2^2 (R169). -/
theorem test_cvt_five : gAfter (.cvt always (toG 1) (g 1) none .f32 .s32 .rne false 0 0) 1 = some 0x40A00000#32 := by decide

/-- wbs = 1 leaves the destination as it was (R58). -/
theorem test_wbs : gAfter (.add always { toG 1 with wbs := true } (g 6) (.imm 1#12) false) 1 = some 5#32 := by decide

/-- A store to scratch puts the low byte first (R4, R256). -/
theorem test_sts_bytes : (match exec (.sts always (g 0) (g 4) 4#24 .b32) st0 with
    | .next s => s.scratchGet team0 4 4
    | .fault _ | .refused _ => []) = [0#8, 0x10#8, 0#8, 0#8] := by decide

/-- A branch one line back from line 2, to slot 1 (R48). -/
theorem test_bra_back : (match exec (.bra always { off := 0xFFFFFFFF#32, slot := 1 }) { st0 with issue := some { is0 with pc := 140#57 } } with
    | .next s => (s.thread tid0).pc
    | .fault _ | .refused _ => 0#57) = 76#57 := by decide

/-- A word placed by withFetchWord is what the next step runs: MOVI g1, 5 in all 32 threads (R131). -/
theorem test_step_movi : (match step (State.reset.withFetchWord 96 0x20FF000020000000000A0000) with
    | .next s => s.threads.all fun p => p.2.g[1] = 5#32
    | .fault _ | .refused _ => false) = true := by decide +kernel

end Sys2Proof.Tests
end

section
/-!
SUPPORT. What follows a turn leaves the machine settled (R11, R185, R221, R228, R441): the traps of the cycle are judged and gone, then
every time that has come is met, then every thread that arrives is seated, and what comes after that touches engines alone. No step of
settling undoes an earlier one, which the frame lemmas here say.
-/

namespace Sys2Proof.Machine

open Host (Outcome)

/-! ### Folds over the state -/

/-- What each step of a fold keeps, the fold keeps. -/
theorem foldl_keeps {α β : Type} (g : State → β) {f : State → α → State} (hf : ∀ s a, g (f s a) = g s) (l : List α) (s : State) :
    g (l.foldl f s) = g s := by
  induction l generalizing s with
  | nil => rfl
  | cons a l ih => rw [List.foldl_cons, ih, hf]

/-- Steps that each change engines alone change engines alone together. -/
theorem foldl_eng_eq {α : Type} {f : State → α → State} (hf : ∀ s a, ∃ e, f s a = { s with eng := e }) (l : List α) (s : State) :
    ∃ e, l.foldl f s = { s with eng := e } := by
  induction l generalizing s with
  | nil => exact ⟨s.eng, rfl⟩
  | cons a l ih =>
    obtain ⟨e, he⟩ := hf s a
    obtain ⟨e', he'⟩ := ih (f s a)
    exact ⟨e', by rw [List.foldl_cons, he', he]⟩

/-! ### Ending or replaying a launch reports no trap -/

@[simp] theorem State.report_traps (s : State) (kind pa loc : Nat) : (s.report kind pa loc).traps = s.traps := by
  unfold State.report
  dsimp only
  split <;> rfl

@[simp] theorem State.arrive_traps (s : State) (t : Tid) (id : Nat) (ws : List Word) (bank : Option (Nat × Nat)) (page : Option PageKey) :
    (s.arrive t id ws bank page).traps = s.traps := rfl

@[simp] theorem State.gatherPart_traps (s : State) (id k : Nat) (bs : List Byte) : (s.gatherPart id k bs).traps = s.traps := by
  unfold State.gatherPart
  dsimp only
  split
  · rfl
  · split
    · exact State.arrive_traps ..
    · rfl

/-- A lane's read or write in its pass reports nothing: its traps were found at issue. -/
@[simp] theorem servePart_traps (p : ScratchPass) (s : State) : (servePart p s).traps = s.traps := by
  unfold servePart
  split
  · dsimp only
    split
    · exact s.gatherPart_traps ..
    · exact s.arrive_traps ..
  · exact s.modTeam_traps ..
  · rfl
  · rfl

@[simp] theorem State.servePasses_traps (s : State) (t : TeamId) : (s.servePasses t).traps = s.traps :=
  foldl_keeps State.traps (fun st p => servePart_traps p st) _ s

@[simp] theorem State.dropTeam_traps (s : State) (t : TeamId) (saved : Bool) : (s.dropTeam t saved).traps = s.traps :=
  s.servePasses_traps t

@[simp] theorem State.muteCmds_traps (s : State) (t : TeamId) : (s.muteCmds t).traps = s.traps := rfl

@[simp] theorem State.modStage_traps (s : State) (lid : Nat) (f : StageRun → StageRun) : (s.modStage lid f).traps = s.traps := rfl

@[simp] theorem State.clearCredit_traps (s : State) : s.clearCredit.traps = s.traps := rfl

@[simp] theorem State.clearLaunch_traps (s : State) (l : Launch) : (s.clearLaunch l).traps = s.traps := by
  unfold State.clearLaunch
  dsimp only
  rw [foldl_keeps State.traps (fun st lid => st.modStage_traps lid _)]
  exact foldl_keeps State.traps (fun st t => (st.muteCmds t).dropTeam_traps t false) _ s

@[simp] theorem State.abnormalEnd_traps (s : State) (lid : Nat) : (s.abnormalEnd lid).traps = s.traps := by
  unfold State.abnormalEnd
  split <;> simp

@[simp] theorem State.sectorPut_traps (s : State) (sec : Nat) (bs : List Byte) (psn : Bool) : (s.sectorPut sec bs psn).traps = s.traps := rfl

@[simp] theorem sectorStore_traps (s : State) (sec : Nat) (bs : List Byte) (poison : Bool) : (sectorStore s sec bs poison).traps = s.traps :=
  State.sectorPut_traps _ sec bs poison

@[simp] theorem baseStore_traps (s : State) (sec : Nat) (bs : List Byte) (poison : Bool) : (baseStore s sec bs poison).traps = s.traps := by
  unfold baseStore
  split
  · rfl
  · dsimp only
    split <;> exact sectorStore_traps s sec bs poison

@[simp] theorem State.restorePage_traps (s : State) (p : SnapPage) : (s.restorePage p).traps = s.traps := by
  unfold State.restorePage
  refine foldl_keeps State.traps (fun st i => ?_) _ s
  dsimp only
  rw [baseStore_traps]
  rfl

@[simp] theorem State.dropWork_traps (s : State) (lids : List Nat) : (s.dropWork lids).traps = s.traps := by
  unfold State.dropWork
  dsimp only
  exact foldl_keeps State.traps (fun _ _ => by rfl) _ _

@[simp] theorem State.replayLaunch_traps (s : State) (l : Launch) : (s.replayLaunch l).traps = s.traps := by
  unfold State.replayLaunch
  split
  · rfl
  · simp [foldl_keeps State.traps State.restorePage_traps]

/-- No undelivered trap is left once those of a cycle are settled (R441): ending or replaying their launches adds none. -/
@[simp] theorem State.settleTraps_traps (s : State) : s.settleTraps.traps = [] := by
  unfold State.settleTraps
  refine foldl_keeps State.traps (fun st lid => ?_) _ _
  dsimp only
  split
  · split
    case h_1 => rfl
    all_goals
      split
      · exact st.replayLaunch_traps _
      · split <;> simp
  · rfl

/-! ### Times that are met -/

/-- A thread neither waits nor is Blocked for a time that has come. -/
def NoTimeDue (now : DWord) (th : Thread) : Prop :=
  (∀ T, th.status = .waiting → th.wait = some (.time T) → now.toNat < T.toNat) ∧
  ∀ k ph T pp, th.status = .blocked (.bar k ph (some (T, pp))) → now.toNat < T.toNat

/-- A thread that arrives, or has its seat, stands by no time. -/
theorem noTimeDue_of_arriving_or_seated {now : DWord} {th : Thread} (h : th.status = .arriving ∨ th.status = .seated) : NoTimeDue now th := by
  rcases h with h | h <;> simp [NoTimeDue, h]

/-- A thread that still waits for a time once WAITT has been judged waits for one to come (R228). -/
theorem wakeTime_not_due (now : DWord) (th : Thread) (T : DWord) (hs : (wakeTime now th).status = .waiting)
    (hw : (wakeTime now th).wait = some (.time T)) : now.toNat < T.toNat := by
  unfold wakeTime at hs hw
  split at hs
  · rename_i U hst hwt
    split at hs
    · cases hs
    · rename_i hlt
      simp only [hst, hwt, if_neg hlt, Option.some.injEq, WaitWhy.time.injEq] at hw
      exact hw ▸ Nat.lt_of_not_le hlt
  · rename_i hno
    simp only at hw
    exact absurd hw (hno T hs)

/-- A deadline that has come ends its thread's block (R221): a thread with no wait due is then left with no time due at all. -/
theorem timeOut_noTimeDue {now : DWord} {th : Thread}
    (h : ∀ T, th.status = .waiting → th.wait = some (.time T) → now.toNat < T.toNat) : NoTimeDue now (timeOut now th) := by
  unfold timeOut
  split
  · rename_i k ph U pp hst
    split
    · exact noTimeDue_of_arriving_or_seated (.inl rfl)
    · rename_i hlt
      refine ⟨h, fun k' ph' T pp' hb => ?_⟩
      obtain ⟨-, -, rfl, -⟩ : k = k' ∧ ph = ph' ∧ U = T ∧ pp = pp' := by simpa [hst] using hb
      exact Nat.lt_of_not_le hlt
  · rename_i hno
    exact ⟨h, fun k ph T pp hb => absurd hb (hno k ph T pp)⟩

theorem timeOut_wakeTime_noTimeDue (now : DWord) (th : Thread) : NoTimeDue now (timeOut now (wakeTime now th)) :=
  timeOut_noTimeDue (wakeTime_not_due now th)

/-! ### Settling after the traps -/

theorem State.noProgress_eq (s : State) (id : Nat) : ∃ e, s.noProgress id = { s with eng := e } := by
  unfold State.noProgress
  split
  · exact ⟨s.eng, rfl⟩
  · split
    · exact ⟨_, rfl⟩
    · exact ⟨s.eng, rfl⟩

/-- The collectives' clocks change engines alone. -/
theorem State.settleColls_eq (s : State) : ∃ e, s.settleColls = { s with eng := e } := by
  obtain ⟨e, he⟩ := foldl_eng_eq State.noProgress_eq _ _
  exact ⟨e, he⟩

/-- What a tick meets: threads, each by its own times, and engines. -/
theorem State.settleTimes_eq (s : State) :
    ∃ e, s.settleTimes = { s with threads := s.threads.map fun p => (p.1, timeOut s.ptc (wakeTime s.ptc p.2)), eng := e } := by
  obtain ⟨e, he⟩ := State.settleColls_eq _
  exact ⟨e, he⟩

/-- After a tick is met no thread stands by a time that has come (R11, R221, R228). -/
theorem State.settleTimes_noTimeDue (s : State) : ∀ p ∈ s.settleTimes.threads, NoTimeDue s.settleTimes.ptc p.2 := by
  obtain ⟨e, he⟩ := s.settleTimes_eq
  rw [he]
  intro p hp
  obtain ⟨q, -, rfl⟩ := List.mem_map.mp hp
  exact timeOut_wakeTime_noTimeDue s.ptc q.2

@[simp] theorem State.settleTimes_traps (s : State) : s.settleTimes.traps = s.traps := by
  obtain ⟨e, he⟩ := s.settleTimes_eq
  rw [he]

/-- A thread that arrives, in its seat (R185). -/
def Thread.seat (th : Thread) : Thread := if th.status = .arriving then { th with status := .seated, wait := none } else th

theorem Thread.seat_status_ne_arriving (th : Thread) : th.seat.status ≠ .arriving := by
  unfold Thread.seat
  split
  · exact nofun
  · assumption

theorem Thread.seat_noTimeDue {now : DWord} {th : Thread} (h : NoTimeDue now th) : NoTimeDue now th.seat := by
  unfold Thread.seat
  split
  · exact noTimeDue_of_arriving_or_seated (.inr rfl)
  · exact h

/-- Seating changes each thread by its own status (R185). -/
theorem State.seatAll_threads (s : State) : s.seatAll.threads = s.threads.map fun p => (p.1, p.2.seat) := by
  have hseat (p : Tid × Thread) :
      (if p.2.status = .arriving then (p.1, { p.2 with status := .seated, wait := none }) else p) = (p.1, p.2.seat) := by
    unfold Thread.seat
    split <;> rfl
  unfold State.seatAll
  dsimp only
  rw [foldl_keeps State.threads (fun st t => st.setPart_threads _ _)]
  simp only [hseat]

@[simp] theorem State.seatAll_traps (s : State) : s.seatAll.traps = s.traps :=
  foldl_keeps State.traps (fun st _ => st.setPart_traps _ _) _ _

@[simp] theorem State.seatAll_ptc (s : State) : s.seatAll.ptc = s.ptc :=
  foldl_keeps State.ptc (fun st _ => st.setPart_ptc _ _) _ _

/-- Fusing heads changes engines alone (R378). -/
theorem State.fuseHeads_eq (s : State) : ∃ e, s.fuseHeads = { s with eng := e } := by
  refine foldl_eng_eq (fun st c => ?_) _ s
  unfold State.fuseHead
  split
  · exact ⟨st.eng, rfl⟩
  · split
    · exact ⟨st.eng, rfl⟩
    · exact ⟨_, rfl⟩

/-! ### Every step -/

/-- What remains of a step leaves a settled state, whatever came before it. -/
theorem settleRest_settled (s : State) : Settled (settleRest s) := by
  unfold settleRest
  dsimp only
  generalize State.settlePreempt _ = s2
  obtain ⟨e, hfuse⟩ := s2.settleTraps.settleTimes.seatAll.fuseHeads_eq
  rw [hfuse]
  refine ⟨rfl, by simp, fun p hp => ?_⟩
  obtain ⟨q, hq, rfl⟩ := List.mem_map.mp (State.seatAll_threads _ ▸ hp)
  refine ⟨q.2.seat_status_ne_arriving, q.2.seat_noTimeDue ?_⟩
  rw [State.settleTurns_ptc, State.seatAll_ptc]
  exact s2.settleTraps.settleTimes_noTimeDue q hq

/-- An outcome carried on has a next state only from one. -/
theorem andThen_eq_next {o : Outcome State Fault Refusal} {f : State → Outcome State Fault Refusal} {s' : State}
    (h : andThen o f = .next s') : ∃ s, o = .next s ∧ f s = .next s' := by
  cases o with
  | next s => exact ⟨s, rfl, h⟩
  | fault r => exact nomatch h
  | refused r => exact nomatch h

theorem settle_settled {s s' : State} (h : settle s = .next s') : Settled s' := by
  obtain ⟨s2, -, hs2⟩ := andThen_eq_next h
  injection hs2 with hs2
  exact hs2 ▸ settleRest_settled _

/-- The state of a step: the machine with its turn taken off the schedule where a boot has stopped, else what settling leaves. -/
theorem step_eq_next {s s' : State} (h : step s = .next s') : s' = s.takeTurn.2 ∨ ∃ s1, settle s1 = .next s' := by
  unfold step turn at h
  split at h
  · obtain ⟨s1, -, h1⟩ := andThen_eq_next h
    exact .inr ⟨s1, h1⟩
  · dsimp only at h
    split at h
    · injection h with h
      exact .inl h.symm
    · obtain ⟨s1, -, h1⟩ := andThen_eq_next h
      exact .inr ⟨s1, h1⟩

/-- Taking a turn off the schedule leaves a settled state settled. -/
theorem takeTurn_settled {s : State} (h : Settled s) : Settled s.takeTurn.2 := by
  unfold State.takeTurn
  split <;> exact h

/-- Settles O55: a step ends with settling, after whatever turn, or takes its turn off the schedule and does nothing else. -/
theorem everyStepLeavesTheMachineSettled : Obligations.EveryStepLeavesTheMachineSettled := by
  intro s s' hs h
  rcases step_eq_next h with rfl | ⟨s1, h1⟩
  · exact takeTurn_settled hs
  · exact settle_settled h1

end Sys2Proof.Machine
end

section
/-!
SUPPORT. Flat stores (R123, R147, R290, R298, R333). Checking a group's accesses changes the memory system and its records alone, each
store that passes adds its own accesses behind those on their way, and what their requests need is within what the checks have left room
for; so the group goes on past its slot with its bytes on their way.
-/

namespace Sys2Proof.Machine

/-! ### Checking accesses leaves the program's side of the machine alone -/

/-- The program's side of the machine: threads, cohorts, teams, launches and the issue in progress. -/
def State.program (s : State) : Tbl Tid Thread × Tbl CohId Cohort × Tbl TeamId Team × List Launch × Option Issue :=
  (s.threads, s.cohorts, s.teams, s.launches, s.issue)

theorem State.program_eq_iff {s s' : State} : s'.program = s.program ↔
    s'.threads = s.threads ∧ s'.cohorts = s.cohorts ∧ s'.teams = s.teams ∧ s'.launches = s.launches ∧ s'.issue = s.issue := by
  simp [State.program]

@[simp] theorem State.report_program (s : State) (kind pa loc : Nat) : (s.report kind pa loc).program = s.program := by
  unfold State.report
  dsimp only
  split <;> rfl

@[simp] theorem State.reportSector_program (s : State) (kind pa stack loc : Nat) :
    (s.reportSector kind pa stack loc).program = s.program := s.report_program kind pa loc

@[simp] theorem State.retireChannel_program (s : State) (stack channel : Nat) : (s.retireChannel stack channel).program = s.program := by
  unfold State.retireChannel
  dsimp only
  split <;> exact State.report_program ..

@[simp] theorem State.countBad_program (s : State) (stack channel : Nat) : (s.countBad stack channel).program = s.program := by
  unfold State.countBad
  dsimp only
  split
  · exact State.retireChannel_program ..
  · rfl

@[simp] theorem State.sectorPut_program (s : State) (sec : Nat) (bs : List Byte) (poison : Bool) :
    (s.sectorPut sec bs poison).program = s.program := rfl

@[simp] theorem sectorRead_program (s : State) (sec : Nat) : (sectorRead s sec).2.program = s.program := by
  unfold sectorRead
  split <;> simp

@[simp] theorem sectorStore_program (s : State) (sec : Nat) (bs : List Byte) (poison : Bool) :
    (sectorStore s sec bs poison).program = s.program := by
  unfold sectorStore
  rw [State.sectorPut_program]
  rfl

@[simp] theorem evictSide_program (line : Nat) (s : State) : (evictSide line s).program = s.program := by
  have hstore (st : State) (x : Nat × List Byte × Bool) : (sectorStore st x.1 x.2.1 x.2.2).program = st.program :=
    sectorStore_program ..
  unfold evictSide
  dsimp only
  rw [foldl_keeps State.program hstore]
  rfl

@[simp] theorem State.sideRoom_program (s : State) (line : Nat) : (s.sideRoom line).program = s.program := by
  unfold State.sideRoom
  split
  · rfl
  · dsimp only
    split
    · rfl
    · exact evictSide_program _ _

@[simp] theorem sideRead_program (s : State) (sec : Nat) : (sideRead s sec).2.program = s.program := by
  have hread : (sectorRead (s.ordinary (s.bankOf sec)) sec).2.program = s.program := sectorRead_program _ sec
  unfold sideRead
  split
  · rfl
  · dsimp only
    split
    · exact hread
    · exact (State.sideRoom_program _ _).trans hread

@[simp] theorem sidePeek_program (s : State) (sec : Nat) : (sidePeek s sec).2.program = s.program := by
  unfold sidePeek
  split
  · rfl
  · exact sectorRead_program _ sec

@[simp] theorem baseStore_program (s : State) (sec : Nat) (bs : List Byte) (poison : Bool) :
    (baseStore s sec bs poison).program = s.program := by
  unfold baseStore
  split
  · rfl
  · dsimp only
    split <;> exact sectorStore_program s sec bs poison

@[simp] theorem State.seeWrite_program (s : State) (pa : Nat) (bs : List Byte) : (s.seeWrite pa bs).program = s.program := rfl

@[simp] theorem baseWrite_program (s : State) (pa : Nat) (bs : List Byte) : (baseWrite s pa bs).program = s.program := by
  unfold baseWrite
  split <;> simp

@[simp] theorem State.dropTile_program (s : State) (pa : Nat) : (s.dropTile pa).program = s.program := by
  unfold State.dropTile
  split <;> rfl

@[simp] theorem evictSector_program (s : State) (sec : Nat) : (evictSector s sec).program = s.program := by
  unfold evictSector
  split
  · rfl
  · dsimp only
    split
    · exact baseStore_program ..
    · rfl

@[simp] theorem evictLine_program (line : Nat) (s : State) : (evictLine line s).program = s.program :=
  (State.dropTile_program _ _).trans (foldl_keeps State.program evictSector_program _ s)

@[simp] theorem State.l2Room_program (s : State) (line : Nat) : (s.l2Room line).program = s.program := by
  unfold State.l2Room
  split
  · rfl
  · dsimp only
    split
    · rfl
    · exact evictLine_program _ _

@[simp] theorem State.putL2_program (s : State) (sec : Nat) (l : L2Sector) : (s.putL2 sec l).program = s.program :=
  s.l2Room_program (sec / 4)

@[simp] theorem homeFill_program (s : State) (sec : Nat) : (homeFill s sec).2.program = s.program := by
  unfold homeFill
  split
  · rfl
  · split <;> simp

@[simp] theorem homeRead_program (s : State) (pa n : Nat) : (homeRead s pa n).2.program = s.program := homeFill_program s (pa / 32)

@[simp] theorem homeWrite_program (s : State) (pa : Nat) (bs : List Byte) (alloc : Bool) :
    (homeWrite s pa bs alloc).program = s.program := by
  unfold homeWrite
  dsimp only
  split
  · simp
  · split <;> simp

@[simp] theorem State.pte_program (s : State) (a : Nat) : (s.pte a).2.program = s.program := homeRead_program s a 8

@[simp] theorem State.setPte_program (s : State) (a e : Nat) : (s.setPte a e).program = s.program := homeWrite_program ..

@[simp] theorem State.tlbFill_program (s : State) (core : CoreId) (e : TlbEntry) : (s.tlbFill core e).program = s.program := rfl

@[simp] theorem State.walk_program (s : State) (root va : Nat) : (s.walk root va).2.program = s.program := by
  unfold State.walk
  dsimp only
  split
  · simp
  · split
    · simp
    · split
      · simp
      · split <;> simp

/-- What a walk leads to changes the program's side only as filling the TLBs does. -/
theorem walked_program {fill : TlbEntry → State → State} (hfill : ∀ e st, (fill e st).program = st.program) (s : State)
    (asid va : Nat) (k : AccKind) (w : WalkRes) : (walked s fill asid va k w).2.program = s.program := by
  unfold walked
  split
  · rfl
  · rfl
  · split
    · dsimp only
      rw [hfill]
      split <;> simp
    · rfl

@[simp] theorem translate_program (s : State) (core : CoreId) (asid : Nat) (root : Option Nat) (va : Nat) (k : AccKind) :
    (translate s core asid root va k).2.program = s.program := by
  unfold translate
  split
  · rfl
  · split
    · rfl
    · exact (walked_program (fun e st => st.tlbFill_program core e) ..).trans (s.walk_program _ va)

@[simp] theorem readPoison_program (s : State) (memside : Bool) (sec : Nat) : (readPoison s memside sec).program = s.program := by
  unfold readPoison
  split <;> simp

@[simp] theorem judge_program (s : State) (q : Asked) (t : Tid) (addr : Except Trap DWord) :
    (judge s q t addr).2.program = s.program := by
  unfold judge
  dsimp only
  split
  · rfl
  · split
    · split
      · rfl
      · split <;> simp
    · split
      · rfl
      · split
        · simp
        · simp
        · split
          · simp
          · split
            · simp
            · split <;> simp

@[simp] theorem judgeAll_program (q : Asked) (addr : Tid → Except Trap DWord) (ts : List Tid) (s : State) :
    (judgeAll q addr ts s).2.program = s.program := by
  induction ts generalizing s with
  | nil => rfl
  | cons t ts ih => exact (ih _).trans (judge_program s q t (addr t))

/-! ### Closing a store's region (R123) leaves what a thread reads -/

/-- The launch of an identifier after a launch has changed that keeps its stages. -/
theorem State.modLaunch_launchOf (s : State) (lid n : Nat) {f : Launch → Launch} (hf : ∀ l, (f l).stages = l.stages) :
    (s.modLaunch lid f).launchOf n = (s.launchOf n).map fun l => if l.stages.any (fun g => g.lid = lid) then f l else l := by
  have hstages (l : Launch) : (if l.stages.any (fun g => g.lid = lid) then f l else l).stages = l.stages := by
    split
    · exact hf l
    · rfl
  simp only [State.launchOf, State.modLaunch, List.find?_map, Function.comp_def, hstages]

/-- What a team's threads are shown of it by their specials (R21). -/
def Team.place (m : Team) : Fin 8 × Nat × CoreId × Nat × Nat := (m.k2, m.k4, m.core, m.k8, m.stage)

/-- The specials of a thread (R21) are the same where its team's place and its launch's record are. -/
theorem special_eq_of_place {s s' : State} {t : Tid} (hteam : (s'.team t.coh.team).map Team.place = (s.team t.coh.team).map Team.place)
    (hlaunch : (s'.launch t).map Launch.desc = (s.launch t).map Launch.desc) (n : Fin 32) : special s' t n = special s t n := by
  have hnum (f : Team → Nat) (g : Fin 8 × Nat × CoreId × Nat × Nat → Nat) (hf : ∀ m, f m = g m.place) :
      (s'.team t.coh.team).map f = (s.team t.coh.team).map f := by
    simpa [Function.comp_def, ← hf] using congrArg (Option.map g) hteam
  have hargs (k : Nat) : (s'.launch t).map (fun l => l.desc.args[(k - 16) % 16]'(Nat.mod_lt _ (by decide))) =
      (s.launch t).map fun l => l.desc.args[(k - 16) % 16]'(Nat.mod_lt _ (by decide)) := by
    simpa [Function.comp_def] using congrArg (Option.map fun d : LaunchRec => d.args[(k - 16) % 16]'(Nat.mod_lt _ (by decide))) hlaunch
  unfold special
  simp only [hargs, hnum (fun m => m.k2.val) (fun p => p.1.val) fun _ => rfl, hnum (fun m => m.k4) (fun p => p.2.1) fun _ => rfl,
    hnum (fun m => m.core.core) (fun p => p.2.2.1.core) fun _ => rfl, hnum (fun m => m.core.die) (fun p => p.2.2.1.die) fun _ => rfl,
    hnum (fun m => m.k8) (fun p => p.2.2.2.1) fun _ => rfl, hnum (fun m => m.stage) (fun p => p.2.2.2.2) fun _ => rfl]

theorem special_of_program {s s' : State} (h : s'.program = s.program) (t : Tid) (n : Fin 32) : special s' t n = special s t n := by
  obtain ⟨-, -, hteams, hlaunches, -⟩ := State.program_eq_iff.mp h
  exact special_eq_of_place (by rw [State.team, State.team, hteams]) (by simp only [State.launch, State.launchOf, hlaunches]) n

theorem State.closeTeam_special (s : State) (u t : Tid) (n : Fin 32) : special (s.closeTeam u) t n = special s t n := by
  have hteam : ((s.closeTeam u).team t.coh.team).map Team.place = (s.team t.coh.team).map Team.place := by
    rw [State.closeTeam, State.team, State.modTeam_teams, tget_tmod]
    split
    · rw [Option.map_map]
      rfl
    · rfl
  exact special_eq_of_place hteam rfl n

theorem State.endReplay_special (s : State) (lid : Nat) (t : Tid) (n : Fin 32) : special (s.endReplay lid) t n = special s t n := by
  have hlaunch : ((s.endReplay lid).launch t).map Launch.desc = (s.launch t).map Launch.desc := by
    rw [State.launch, State.launch, State.endReplay, State.modLaunch_launchOf _ _ _ (by exact fun _ => rfl), Option.map_map]
    refine congrArg (Option.map · _) (funext fun l => ?_)
    rw [Function.comp_apply]
    split <;> rfl
  exact special_eq_of_place (s := s) (s' := s.endReplay lid) rfl hlaunch n

@[simp] theorem State.closeStore_special (s : State) (u t : Tid) (r : Region) (n : Fin 32) :
    special (s.closeStore u r) t n = special s t n := by
  unfold State.closeStore
  split
  · rw [State.endReplay_special, State.closeTeam_special]
  · rfl

/-! ### Accesses sent behind those on their way -/

/-- Accesses sent, and nothing else that a thread or the memory shows: they stand behind those on their way, with their fields as
listed; the levels of memory, the threads, the cohorts, the issue and the specials are as they were. -/
structure Sends (s s' : State) (ws : List (Tid × Nat × Nat × Nat × AccOp)) : Prop where
  accesses : ∃ as, s'.mem.accesses = s.mem.accesses ++ as ∧ as.map Access.what = ws
  memory : SameMemory s s'
  threads : s'.threads = s.threads
  cohorts : s'.cohorts = s.cohorts
  issue : s'.issue = s.issue
  specials : ∀ t n, special s' t n = special s t n

theorem Sends.refl (s : State) : Sends s s [] :=
  ⟨⟨[], (List.append_nil _).symm, rfl⟩, ⟨rfl, rfl, rfl, rfl⟩, rfl, rfl, rfl, fun _ _ => rfl⟩

theorem Sends.trans {s s' s'' : State} {ws vs : List (Tid × Nat × Nat × Nat × AccOp)} (h : Sends s s' ws) (k : Sends s' s'' vs) :
    Sends s s'' (ws ++ vs) := by
  obtain ⟨as, has, hws⟩ := h.accesses
  obtain ⟨bs, hbs, hvs⟩ := k.accesses
  obtain ⟨h1, h2, h3, h4⟩ := h.memory
  obtain ⟨k1, k2, k3, k4⟩ := k.memory
  exact {
    accesses := ⟨as ++ bs, by rw [hbs, has, List.append_assoc], by rw [List.map_append, hws, hvs]⟩
    memory := ⟨k1.trans h1, k2.trans h2, k3.trans h3, k4.trans h4⟩
    threads := k.threads.trans h.threads
    cohorts := k.cohorts.trans h.cohorts
    issue := k.issue.trans h.issue
    specials := fun t n => (k.specials t n).trans (h.specials t n) }

/-- Steps that each send some accesses send them all, in order. -/
theorem foldl_sends {α : Type} {f : State → α → State} {g : α → List (Tid × Nat × Nat × Nat × AccOp)} {l : List α}
    (h : ∀ a ∈ l, ∀ s, Sends s (f s a) (g a)) (s : State) : Sends s (l.foldl f s) (l.flatMap g) := by
  induction l generalizing s with
  | nil => exact Sends.refl s
  | cons a l ih =>
    exact (h a List.mem_cons_self s).trans (ih (fun b hb => h b (List.mem_cons_of_mem _ hb)) (f s a))

theorem State.send_sends (s : State) (t : Tid) (va pa size : Nat) (op : AccOp) (r : Region) (ret : Option RetTo) (after : List Nat) :
    Sends s (s.send t va pa size op r ret after) [(t, va, pa, size, op)] :=
  ⟨⟨[_], rfl, rfl⟩, ⟨rfl, rfl, rfl, rfl⟩, rfl, rfl, rfl, fun _ _ => rfl⟩

theorem State.closeStore_sends (s : State) (t : Tid) (r : Region) : Sends s (s.closeStore t r) [] := by
  have hspecial := fun u n => s.closeStore_special t u r n
  unfold State.closeStore at hspecial ⊢
  split at hspecial
  · rename_i hn
    rw [if_pos hn]
    exact ⟨⟨[], (List.append_nil _).symm, rfl⟩, ⟨rfl, rfl, rfl, rfl⟩, rfl, rfl, rfl, hspecial⟩
  · rename_i hn
    rw [if_neg hn]
    exact Sends.refl s

/-- The blocks that the coalescer requests for an instruction's accesses (R295) are no field of the accesses themselves. -/
theorem Sends.coalesce {s s' : State} {ws : List (Tid × Nat × Nat × Nat × AccOp)} (h : Sends s s' ws) (k : AccKind) (before : State) :
    Sends s (s'.coalesce s k before) ws := by
  obtain ⟨as, has, hws⟩ := h.accesses
  refine ⟨⟨(s'.coalesce s k before).mem.accesses.drop s.mem.accesses.length, ?_, ?_⟩, h.memory, h.threads, h.cohorts, h.issue,
    h.specials⟩
  · simp [State.coalesce, has]
  · rw [← hws]
    simp [State.coalesce, has, Access.what]

/-! ### Room for what is requested (R463) -/

theorem length_eraseDups_le {α : Type} [BEq α] : ∀ l : List α, l.eraseDups.length ≤ l.length
  | [] => by simp
  | a :: l => by
    have hrest := length_eraseDups_le (l.filter fun b => !b == a)
    have hfilter := List.length_filter_le (fun b => !b == a) l
    rw [List.eraseDups_cons, List.length_cons, List.length_cons]
    omega
termination_by l => l.length
decreasing_by exact Nat.lt_succ_of_le (List.length_filter_le _ l)

theorem length_eraseDups_append_le {α : Type} [BEq α] [LawfulBEq α] (l m : List α) :
    (l ++ m).eraseDups.length ≤ l.eraseDups.length + m.length := by
  have hrest := length_eraseDups_le (m.removeAll l)
  have hfilter : (m.removeAll l).length ≤ m.length := List.length_filter_le _ m
  rw [List.eraseDups_append, List.length_append]
  omega

/-- Accesses sent within the room that there was find room. -/
theorem Sends.missRoom {s s' : State} {ws : List (Tid × Nat × Nat × Nat × AccOp)} (h : Sends s s' ws) {core : CoreId} {n : Nat}
    (hn : ws.length ≤ n) (hroom : s.missRoom core n = true) : s'.missRoom core 0 = true := by
  obtain ⟨as, has, hws⟩ := h.accesses
  have hlen : as.length = ws.length := by rw [← hws, List.length_map]
  have hmine : (as.filter fun a => a.core = core).length ≤ as.length := List.length_filter_le _ as
  have hreq : s'.requests core ≤ s.requests core + as.length := by
    unfold State.requests
    rw [has, List.filter_append, List.map_append]
    refine Nat.le_trans (length_eraseDups_append_le _ _) (Nat.add_le_add_left ?_ _)
    rw [List.length_map]
    exact hmine
  have hmissed : s'.missedPages core ≤ s.missedPages core + as.length := by
    unfold State.missedPages
    rw [has, List.filter_append, List.filterMap_append]
    exact Nat.le_trans (length_eraseDups_append_le _ _)
      (Nat.add_le_add_left (Nat.le_trans (List.length_filterMap_le _ _) hmine) _)
  simp only [State.missRoom, decide_eq_true_eq] at hroom ⊢
  omega

/-! ### A flat access that its group passes -/

theorem mem_of_tget {κ α : Type} [DecidableEq κ] {t : Tbl κ α} {k : κ} {v : α} (h : tget t k = some v) : (k, v) ∈ t := by
  induction t with
  | nil => cases h
  | cons p t ih =>
    rw [tget_cons] at h
    split at h
    · rename_i hk
      injection h with hv
      subst hk hv
      exact List.mem_cons_self
    · exact List.mem_cons_of_mem _ (ih h)

/-- An access that passes its checks has an address. -/
theorem judge_ok_address {s : State} {q : Asked} {t : Tid} {addr : Except Trap DWord} {va pa : Nat} {r : Region}
    (h : (judge s q t addr).1 = .ok va pa r) : ∃ a, addr = .ok a := by
  cases addr with
  | ok a => exact ⟨a, rfl⟩
  | error tr => cases h

theorem judgeAll_ok_address {q : Asked} {addr : Tid → Except Trap DWord} {ts : List Tid} {s : State} {t : Tid} {va pa : Nat}
    {r : Region} (h : (t, Judged.ok va pa r) ∈ (judgeAll q addr ts s).1) : ∃ a, addr t = .ok a := by
  induction ts generalizing s with
  | nil => cases h
  | cons u ts ih =>
    rcases List.mem_cons.mp h with hu | hrest
    · injection hu with ht hj
      subst ht
      exact judge_ok_address hj.symm
    · exact ih hrest

section Pass
variable {s s1 : State} {is : Issue} {gd : Guard} {q : Asked} {addr : Tid → Except Trap DWord} {per : Nat} {js : List (Tid × Judged)}
  {eff : Bool → Tid → Nat → Nat → Region → State → State}

theorem FlatPass.program_eq (h : FlatPass s is gd q addr per js s1) : s1.program = s.program := by
  simpa [h.judged] using judgeAll_program q addr (s.execs gd) s

theorem FlatPass.not_trap (h : FlatPass s is gd q addr per js s1) {p : Tid × Judged} (hp : p ∈ js) : p.2.isTrap = false := by
  obtain ⟨va, pa, r, hj⟩ := h.pass p hp
  rw [hj]
  rfl

theorem FlatPass.not_fault (h : FlatPass s is gd q addr per js s1) {p : Tid × Judged} (hp : p ∈ js) : p.2.isFault = false := by
  obtain ⟨va, pa, r, hj⟩ := h.pass p hp
  rw [hj]
  rfl

/-- The effects of accesses that all pass are one after another those of each. -/
theorem FlatPass.flatEffects_eq (h : FlatPass s is gd q addr per js s1) :
    ∃ f : State → Tid × Judged → State, flatEffects js eff s1 = js.foldl f s1 ∧
      ∀ p va pa r st, p.2 = .ok va pa r → ∃ lead, f st p = eff lead p.1 va pa r st := by
  have hall : js.filter (fun p => !p.2.isTrap) = js := List.filter_eq_self.mpr fun p hp => by rw [h.not_trap hp]; rfl
  unfold flatEffects
  rw [hall]
  refine ⟨_, rfl, fun p va pa r st hj => ⟨decide (js.head?.map (fun p => p.1) = some p.1), ?_⟩⟩
  rw [hj]

/-- Where every access passes and the requests find room, the threads of the group act on the state that the effects leave. -/
theorem FlatPass.flatGroup_eq (h : FlatPass s is gd q addr per js s1) {act : Thread → Act} {skip : Tid → Thread → Thread}
    (hroom : ((flatEffects js eff s1).coalesce s1 q.kind s).missRoom is.part.core 0 = true) :
    flatGroup gd q addr act skip eff s =
      runGroup gd (fun _ th => .ok (th, act th)) skip ((flatEffects js eff s1).coalesce s1 q.kind s) := by
  have hfault : (js.any fun p => p.2.isFault) = false := by
    rw [List.any_eq_false]
    intro p hp
    simp [h.not_fault hp]
  unfold flatGroup
  simp only [h.judged, hfault, h.issue, Bool.false_and, Bool.false_eq_true, if_false, Option.map_some, Option.getD_some, hroom,
    Bool.true_eq_false]
  congr 1
  funext t th
  split
  · rename_i tr htr
    cases h.not_trap (mem_of_tget htr)
  · rfl

end Pass

/-- A thread past its slot with its registers as they were: the cohort's, and what its specials show. -/
theorem passed_of_advance {s s' : State} {is : Issue} {t : Tid} {th : Thread} (he : tget s.threads t = some th)
    (ht : s'.thread t = advance is th) (hco : s'.cohorts = s.cohorts) (hspecial : ∀ n, special s' t n = special s t n) :
    Passed s is t th s' := by
  have hth : s.thread t = th := State.thread_of_tget he
  have hcell (c : RegCell) : (s'.thread t).cell c = (s.thread t).cell c := by rw [ht, hth, advance_cell]
  have hname (r : Reg) : cellOf (s'.thread t) r = cellOf (s.thread t) r := by
    rw [ht, hth]
    exact cellOf_congr (advance_depth is th) (advance_wb is th) r
  have hregs (r : Reg) : readReg s' t r = readReg s t r := by
    cases r with
    | g n => exact hcell (.g n)
    | w n => rw [readReg_cell s' t (hname (.w n)) rfl, readReg_cell s t rfl rfl, hcell]
    | s n => simp only [readReg, State.cohort, hco]
    | k n => exact hspecial n
  exact {
    pc := by rw [ht, advance_pc]
    latches := by rw [ht, advance_latches]
    context := ht ▸ advance_context is th
    values := ⟨hregs, by rw [ht, advance_preds], by rw [ht, advance_flg]⟩ }

/-- Threads that go on after accesses have been sent in a state that the checks left. -/
theorem Sends.passed {s s1 s2 : State} {ws : List (Tid × Nat × Nat × Nat × AccOp)} {is : Issue} {gd : Guard} {t : Tid} {th : Thread}
    (h : Sends s1 s2 ws) (hs1 : s1.program = s.program) (hx : Executes s is gd t th) (skip : Tid → Thread → Thread) :
    Passed s is t th (runGroup gd (fun _ th => .ok (th, goOn th)) skip s2) := by
  obtain ⟨hthreads, hcohorts, -, -, hissue⟩ := State.program_eq_iff.mp hs1
  have hx2 : Executes s2 is gd t th :=
    ⟨by rw [h.issue, hissue, hx.issue], hx.member, by rw [h.threads, hthreads, hx.entry], hx.guard⟩
  refine passed_of_advance hx.entry (runGroup_ok gd _ skip hx2 (th' := th) (a := .next) rfl) ?_ fun n => ?_
  · rw [runGroup_cohorts, h.cohorts, hcohorts]
  · rw [special_congr (runGroup_teams ..) (runGroup_launches ..) (runGroup_moduleNo ..), h.specials, special_of_program hs1]

/-! ### Stores -/

/-- A team is in no idempotent region (R122). -/
def RegionEnded (k : TeamId) (s : State) : Prop := ∀ m, tget s.teams k = some m → m.restartable = false

/-- A store's closing takes its thread's team out of its idempotent region where the store's region is NONIDEM (R123). -/
theorem State.closeStore_teams (s : State) (t : Tid) (r : Region) : (s.closeStore t r).teams =
    if r.nonIdem then tmod s.teams t.coh.team fun m => { m with restartable := false, closed := some s.cycle } else s.teams := by
  unfold State.closeStore
  split <;> rfl

theorem RegionEnded.closeStore {k : TeamId} {s : State} (h : RegionEnded k s) (t : Tid) (r : Region) :
    RegionEnded k (s.closeStore t r) := by
  intro m hm
  rw [State.closeStore_teams] at hm
  split at hm
  · rw [tget_tmod] at hm
    split at hm
    · obtain ⟨m', -, rfl⟩ := Option.map_eq_some_iff.mp hm
      rfl
    · exact h m hm
  · exact h m hm

theorem State.closeStore_regionEnded (s : State) (t : Tid) {r : Region} (hr : r.nonIdem = true) :
    RegionEnded t.coh.team (s.closeStore t r) := by
  intro m hm
  rw [State.closeStore_teams, if_pos hr, tget_tmod_self] at hm
  obtain ⟨m', -, rfl⟩ := Option.map_eq_some_iff.mp hm
  rfl

/-- A store whose data can be read has as many bytes as its size. -/
theorem bytesOf_length {s : State} {a b : Src} {off : BitVec 24} {sz : StSize} {t : Tid} {x : DWord}
    (h : storeAddr s a b off sz t = .ok x) : (bytesOf s b sz t).length = sz.bytes := by
  have hbytes {bs : List Byte} (hb : storeBytes s t b sz = .ok bs) : bs.length = sz.bytes := by
    unfold storeBytes at hb
    cases hn : readNat s t b sz.regs with
    | error tr => rw [hn] at hb; cases hb
    | ok n => rw [hn] at hb; cases hb; exact leBytes_length _ _
  unfold storeAddr at h
  cases ha : flatAddr s t a off with
  | error tr => rw [ha] at h; cases h
  | ok addr =>
    rw [ha] at h
    cases hb : storeBytes s t b sz with
    | error tr => rw [hb] at h; cases h
    | ok bs => rw [bytesOf, hb]; exact hbytes hb

/-- What a thread's store sends where it passes its checks: its bytes in the pieces given. -/
def storeSent (s : State) (b : Src) (sz : StSize) (pieces : List (Nat × Nat)) (op : List Byte → AccOp) (p : Tid × Judged) :
    List (Tid × Nat × Nat × Nat × AccOp) :=
  match p.2 with
  | .ok va pa _ => pieces.map fun x => (p.1, va + x.1, pa + x.1, x.2, op (((bytesOf s b sz p.1).drop x.1).take x.2))
  | .trap _ | .fault _ _ => []

theorem storeSent_length_le (s : State) (b : Src) (sz : StSize) (pieces : List (Nat × Nat)) (op : List Byte → AccOp) (p : Tid × Judged) :
    (storeSent s b sz pieces op p).length ≤ pieces.length := by
  unfold storeSent
  split <;> simp

/-- The effect of a store instruction on each thread that passes: its pieces are sent, and its region closed where it must be. -/
structure StoreEffect (s : State) (b : Src) (sz : StSize) (pieces : List (Nat × Nat)) (op : List Byte → AccOp)
    (eff : Bool → Tid → Nat → Nat → Region → State → State) : Prop where
  sends : ∀ lead t va pa r st, (bytesOf s b sz t).length = sz.bytes →
    Sends st (eff lead t va pa r st) (storeSent s b sz pieces op (t, .ok va pa r))
  teams : ∀ lead t va pa r st, (eff lead t va pa r st).teams = (st.closeStore t r).teams

/-- A thread's ST or STNA sends its bytes in pieces of at most eight (R147, R298). -/
theorem startStore_effect (s : State) (b : Src) (sz : StSize) (op : List Byte → AccOp) :
    StoreEffect s b sz (piecesOf sz.bytes) op fun _ t va pa r st => startStore (bytesOf s b sz t) op t va pa r [] st where
  sends _ t va pa r st hlen := by
    have hpieces := foldl_sends (l := piecesOf sz.bytes)
      (f := fun st x => st.send t (va + x.1) (pa + x.1) x.2 (op (((bytesOf s b sz t).drop x.1).take x.2)) r none [])
      (fun x _ st => st.send_sends t (va + x.1) (pa + x.1) x.2 _ r none []) (st.closeStore t r)
    rw [← List.map_eq_flatMap] at hpieces
    unfold startStore
    rw [hlen]
    exact (st.closeStore_sends t r).trans hpieces
  teams _ t va pa r st := by
    unfold startStore
    exact foldl_keeps State.teams (fun _ _ => by rfl) _ _

/-- A thread's STRC sends its bytes in one piece, whatever it comes after (R290, R333). -/
theorem strc_effect (s : State) (b : Src) (sz : StSize) (op : List Byte → AccOp) (after : State → Nat → List Nat) :
    StoreEffect s b sz [(0, sz.bytes)] op fun _ t va pa r st =>
      (st.closeStore t r).send t va pa sz.bytes (op (bytesOf s b sz t)) r none (after st pa) where
  sends _ t va pa r st hlen := by
    have hsend := (st.closeStore_sends t r).trans
      ((st.closeStore t r).send_sends t va pa sz.bytes (op (bytesOf s b sz t)) r none (after st pa))
    simpa [storeSent, ← hlen] using hsend
  teams _ _ _ _ _ _ := rfl

theorem length_flatMap_le {α β : Type} {g : α → List β} {n : Nat} (h : ∀ a, (g a).length ≤ n) (l : List α) :
    (l.flatMap g).length ≤ n * l.length := by
  induction l with
  | nil => exact Nat.zero_le _
  | cons a l ih =>
    have ha := h a
    rw [List.flatMap_cons, List.length_append, List.length_cons, Nat.mul_succ]
    omega

/-- What stores that pass their checks leave (R123, R147, R298): the thread past its slot, no byte of memory changed, each thread's
pieces behind the accesses on their way, and the idempotent regions of the teams that store to a NONIDEM region ended, no other. -/
def StoresSetOut (s s1 : State) (is : Issue) (t : Tid) (th : Thread) (b : Src) (sz : StSize) (js : List (Tid × Judged))
    (pieces : List (Nat × Nat)) (op : List Byte → AccOp) (s' : State) : Prop :=
  Passed s is t th s' ∧ SameMemory s1 s' ∧
  s'.mem.accesses.map Access.what = s1.mem.accesses.map Access.what ++ js.flatMap (storeSent s b sz pieces op) ∧
  (∀ va pa r, (t, Judged.ok va pa r) ∈ js → r.nonIdem = true → RegionEnded t.coh.team s') ∧
  ((∀ u va pa r, (u, Judged.ok va pa r) ∈ js → r.nonIdem = false) → s'.teams = s1.teams)

section Stores
variable {s s1 : State} {is : Issue} {gd : Guard} {a b : Src} {off : BitVec 24} {sz : StSize} {allow : RegKind → Bool}
  {pieces : List (Nat × Nat)} {op : List Byte → AccOp} {eff : Bool → Tid → Nat → Nat → Region → State → State}
  {js : List (Tid × Judged)}

theorem StoreEffect.flatEffects_sends (he : StoreEffect s b sz pieces op eff)
    (hp : FlatPass s is gd (storeAsk sz allow) (storeAddr s a b off sz) pieces.length js s1) :
    Sends s1 (flatEffects js eff s1) (js.flatMap (storeSent s b sz pieces op)) := by
  obtain ⟨f, hf, hstep⟩ := hp.flatEffects_eq (eff := eff)
  rw [hf]
  refine foldl_sends (fun p hmem st => ?_) s1
  obtain ⟨t, j⟩ := p
  obtain ⟨va, pa, r, rfl⟩ := hp.pass _ hmem
  obtain ⟨lead, hl⟩ := hstep (t, _) va pa r st rfl
  obtain ⟨x, hx⟩ := judgeAll_ok_address (show (t, Judged.ok va pa r) ∈ (judgeAll _ _ (s.execs gd) s).1 by rw [hp.judged]; exact hmem)
  rw [hl]
  exact he.sends lead t va pa r st (bytesOf_length hx)

/-- A team whose thread stores to a NONIDEM region is in none of its own afterwards, whatever the other threads do (R123). -/
theorem StoreEffect.flatEffects_regionEnded (he : StoreEffect s b sz pieces op eff)
    (hp : FlatPass s is gd (storeAsk sz allow) (storeAddr s a b off sz) pieces.length js s1) {t : Tid} {va pa : Nat} {r : Region}
    (hmem : (t, Judged.ok va pa r) ∈ js) (hr : r.nonIdem = true) : RegionEnded t.coh.team (flatEffects js eff s1) := by
  obtain ⟨f, hf, hstep⟩ := hp.flatEffects_eq (eff := eff)
  obtain ⟨before, after, rfl⟩ := List.append_of_mem hmem
  have hends (st : State) : RegionEnded t.coh.team (f st (t, .ok va pa r)) := by
    obtain ⟨lead, hl⟩ := hstep (t, .ok va pa r) va pa r st rfl
    rw [hl, RegionEnded, he.teams]
    exact st.closeStore_regionEnded t hr
  rw [hf, List.foldl_append, List.foldl_cons]
  refine List.foldlRecOn after f (hends _) fun st hst p hafter => ?_
  obtain ⟨va', pa', r', hj⟩ := hp.pass p (List.mem_append_right _ (List.mem_cons_of_mem _ hafter))
  obtain ⟨lead, hl⟩ := hstep p va' pa' r' st hj
  rw [hl, RegionEnded, he.teams]
  exact hst.closeStore p.1 r'

/-- Stores to regions that are not NONIDEM leave every team as it was. -/
theorem StoreEffect.flatEffects_teams (he : StoreEffect s b sz pieces op eff)
    (hp : FlatPass s is gd (storeAsk sz allow) (storeAddr s a b off sz) pieces.length js s1)
    (hidem : ∀ u va pa r, (u, Judged.ok va pa r) ∈ js → r.nonIdem = false) : (flatEffects js eff s1).teams = s1.teams := by
  obtain ⟨f, hf, hstep⟩ := hp.flatEffects_eq (eff := eff)
  rw [hf]
  refine List.foldlRecOn js f (motive := fun st => st.teams = s1.teams) rfl fun st hst p hmem => ?_
  obtain ⟨t, j⟩ := p
  obtain ⟨va, pa, r, rfl⟩ := hp.pass _ hmem
  obtain ⟨lead, hl⟩ := hstep (t, _) va pa r st rfl
  rw [hl, he.teams, st.closeStore_teams, hidem t va pa r hmem, if_neg Bool.false_ne_true, hst]

theorem StoreEffect.storesSetOut (he : StoreEffect s b sz pieces op eff)
    (hp : FlatPass s is gd (storeAsk sz allow) (storeAddr s a b off sz) pieces.length js s1) {t : Tid} {th : Thread}
    (hx : Executes s is gd t th) :
    StoresSetOut s s1 is t th b sz js pieces op (flatGroup gd (storeAsk sz allow) (storeAddr s a b off sz) goOn skipPlain eff s) := by
  have hsent := (he.flatEffects_sends hp).coalesce (storeAsk sz allow).kind s
  have hroom := hsent.missRoom (length_flatMap_le (storeSent_length_le s b sz pieces op) js) hp.room
  have hteams : ((flatEffects js eff s1).coalesce s1 (storeAsk sz allow).kind s).teams = (flatEffects js eff s1).teams := rfl
  obtain ⟨as, has, hws⟩ := hsent.accesses
  rw [hp.flatGroup_eq hroom]
  refine ⟨hsent.passed hp.program_eq hx skipPlain, ?_, ?_, ?_, ?_⟩
  · rw [SameMemory, runGroup_mem]
    exact hsent.memory
  · rw [runGroup_mem, has, List.map_append, hws]
  · intro va pa r hmem hr
    rw [RegionEnded, runGroup_teams, hteams]
    exact he.flatEffects_regionEnded hp hmem hr
  · intro hidem
    rw [runGroup_teams, hteams, he.flatEffects_teams hp hidem]

end Stores

/-- Settles O13: an ST, STNA or STRC whose threads all pass their checks has one effect on each of them, which sends its pieces. -/
theorem flatStoresSetOut : Obligations.FlatStoresSetOut := by
  intro gd a b off sz cnt s s1 is js t th hx
  exact ⟨fun hp => ⟨⟨_, rfl, (startStore_effect s b sz fun bs => .store bs true).storesSetOut hp hx⟩,
      ⟨_, rfl, (startStore_effect s b sz fun bs => .store bs false).storesSetOut hp hx⟩⟩,
    fun hp => ⟨_, rfl, (strc_effect s b sz (fun bs => .storeCount bs cnt.toNat)
      fun st pa => st.lowerLanes s.nextId pa).storesSetOut hp hx⟩⟩

end Sys2Proof.Machine
end

section
/-!
SUPPORT. What a trap of an executing thread leaves (R431, R434, R438 to R441), and what a floating result leaves (R87, R89, R159): it
completes where its launch traps none of its flags, and takes the arithmetic-flag trap where it traps one.
-/

namespace Sys2Proof.Machine

/-! ### Trap records -/

/-- The first word of a trap record, field by field (R434). -/
theorem trapRecord_first (is : Issue) (th : Thread) (tr : Trap) (hcls : tr.cls < 256) (hcause : tr.cause < 256) :
    (trapRecord is th tr)[0].toNat = tr.cls + 256 * tr.cause + 65536 * is.second.toNat + 131072 * th.hnd.toNat := by
  simp only [trapRecord, Vector.getElem_mk, List.getElem_toArray, List.getElem_cons_zero, BitVec.toNat_ofNat]
  cases is.second <;> cases th.hnd <;> simp <;> omega

/-- The low bits of a record's fourteenth word: the valid latches (R434). -/
def validLatches (th : Thread) : Nat :=
  let bit (n : Fin 4) : Nat := if th.latches[n].isValid then 2 ^ n.val else 0
  bit 0 + bit 1 + bit 2 + bit 3

theorem validLatches_lt (th : Thread) : validLatches th < 2 ^ 8 := by
  have hbits : ∀ b0 b1 b2 b3 : Bool, ((if b0 then 2 ^ 0 else 0) + (if b1 then 2 ^ 1 else 0) + (if b2 then 2 ^ 2 else 0) +
      (if b3 then 2 ^ 3 else 0) : Nat) < 2 ^ 8 := by decide
  exact hbits th.latches[0].isValid th.latches[1].isValid th.latches[2].isValid th.latches[3].isValid

theorem validLatches_testBit (th : Thread) (n : Fin 4) : (validLatches th).testBit n.val = th.latches[n].isValid := by
  have hbits : ∀ b0 b1 b2 b3 : Bool, ((if b0 then 2 ^ 0 else 0) + (if b1 then 2 ^ 1 else 0) + (if b2 then 2 ^ 2 else 0) +
      (if b3 then 2 ^ 3 else 0) : Nat).testBit n.val = #v[b0, b1, b2, b3][n] := by
    revert n; decide
  have h := hbits th.latches[0].isValid th.latches[1].isValid th.latches[2].isValid th.latches[3].isValid
  refine h.trans ?_
  match n with
  | 0 => rfl
  | 1 => rfl
  | 2 => rfl
  | 3 => rfl

theorem trapRecord_preds (is : Issue) (th : Thread) (tr : Trap) :
    (trapRecord is th tr)[13].toNat = 2 ^ 8 * th.seen.toNat + validLatches th := by
  have hv := validLatches_lt th
  have hs := th.seen.isLt
  have h : (trapRecord is th tr)[13] = BitVec.ofNat 32 (th.seen.toNat * 2 ^ 8 + validLatches th) := rfl
  rw [h, BitVec.toNat_ofNat]
  omega

/-- Three words of a 96-bit value, joined. -/
theorem append_words (w : IWord) : (w >>> 64).setWidth 32 ++ (w >>> 32).setWidth 32 ++ w.setWidth 32 = w := by
  ext i hi
  simp only [BitVec.getElem_append, BitVec.getElem_setWidth, BitVec.getLsbD_ushiftRight]
  rw [← BitVec.getLsbD_eq_getElem hi]
  by_cases hlow : i < 32
  · rw [dif_pos hlow]
  · rw [dif_neg hlow]
    by_cases hmid : i - 32 < 32
    · rw [dif_pos hmid, show 32 + (i - 32) = i by omega]
    · rw [dif_neg hmid, show 64 + (i - 32 - 32) = i by omega]

/-- A trap record is one: each of its words holds what R434 says. -/
theorem trapRecord_isRecord (is : Issue) (th : Thread) (tr : Trap) (hcls : tr.cls < 256) (hcause : tr.cause < 256) :
    IsRecord is th tr (trapRecord is th tr) where
  cls := by rw [trapRecord_first is th tr hcls hcause]; omega
  cause := by rw [trapRecord_first is th tr hcls hcause]; omega
  second := by
    rw [← BitVec.testBit_toNat, trapRecord_first is th tr hcls hcause, Nat.testBit_eq_decide_div_mod_eq]
    cases is.second <;> simp <;> omega
  nest := by
    rw [← BitVec.testBit_toNat, trapRecord_first is th tr hcls hcause, Nat.testBit_eq_decide_div_mod_eq]
    cases th.hnd <;> cases is.second <;> simp <;> omega
  pc := by
    have hpc := is.pc.isLt
    refine ⟨rfl, ?_⟩
    change ((is.pc >>> 32).setWidth 32).toNat = _
    rw [BitVec.toNat_setWidth, BitVec.toNat_ushiftRight, Nat.shiftRight_eq_div_pow]
    omega
  word := append_words is.word
  info := ⟨rfl, rfl, rfl⟩
  latches n w hw := by
    refine ⟨?_, ?_⟩
    · have hword : (trapRecord is th tr)[9 + n.val] = th.latches[n].word := by
        match n with
        | 0 => rfl
        | 1 => rfl
        | 2 => rfl
        | 3 => rfl
      rw [hword, hw, Latch.word]
    · rw [← BitVec.testBit_toNat, trapRecord_preds, Nat.testBit_two_pow_mul_add _ (validLatches_lt th), if_pos (by omega),
        validLatches_testBit, hw, Latch.isValid]
  preds := by
    have hv := validLatches_lt th
    rw [trapRecord_preds]
    omega
  rsl := by
    change (BitVec.ofNat 32 (is.rsl % 32)).toNat = _
    rw [BitVec.toNat_ofNat]
    omega

/-! ### Traps of executing threads -/

section Traps
variable {s : State} {is : Issue} {gd : Guard} {t : Tid} {th : Thread} {tr : Trap} {f : Tid → Thread → Except Trap (Thread × Act)}
  {skip : Tid → Thread → Thread}

/-- Taking a trap leaves a thread's registers, predicates, flags, window and spill area. -/
theorem takeTrap_keep (s : State) (is : Issue) (t : Tid) (tr : Trap) (th : Thread) :
    ((takeTrap s is t tr th).g = th.g ∧ (takeTrap s is t tr th).stack = th.stack ∧ (takeTrap s is t tr th).preds = th.preds ∧
      (takeTrap s is t tr th).flg = th.flg) ∧
    (takeTrap s is t tr th).wb = th.wb ∧ (takeTrap s is t tr th).wres = th.wres ∧ (takeTrap s is t tr th).wdep = th.wdep ∧
      (takeTrap s is t tr th).spa = th.spa := by
  unfold takeTrap
  split <;> exact ⟨⟨rfl, rfl, rfl, rfl⟩, rfl, rfl, rfl, rfl⟩

/-- A trap with a handler, outside a handler, is delivered (R438). -/
theorem takeTrap_delivered {hpc : Pc} (hh : handlerOf s t tr.cls = some hpc) (hn : th.hnd = false) :
    takeTrap s is t tr th = enterHandler is hpc tr th := by
  simp [takeTrap, hh, hn]

/-- A trap without a handler, or inside one, stops its thread (R440). -/
theorem takeTrap_stopped (h : handlerOf s t tr.cls = none ∨ th.hnd = true) :
    takeTrap s is t tr th = { th with status := .waiting, wait := none, owed := none, latches := noLatches, kept := none } := by
  unfold takeTrap
  split
  · next hpc hh hn => rcases h with h | h <;> simp_all
  · rfl

/-- The report of a trap that is not delivered (R441). -/
theorem trapReport_stopped (h : handlerOf s t tr.cls = none ∨ th.hnd = true) : trapReport s is t tr th =
    some { tid := t, core := is.part.core, part := is.part.part, record := trapRecord is th tr, latches := th.latches } := by
  unfold trapReport
  split
  · next hpc hh hn => rcases h with h | h <;> simp_all
  · rfl

/-- A trap that is not delivered is among the reports of its group (R441). -/
theorem runGroup_reports (h : Executes s is gd t th) (hf : f t th = .error tr) {x : TrapReport}
    (hx : trapReport s is t tr th = some x) : x ∈ (runGroup gd f skip s).traps := by
  have hth : s.thread t = th := State.thread_of_tget h.entry
  simp only [runGroup, h.issue]
  refine List.mem_append_right _ (List.mem_filterMap.mpr ⟨t, h.member, ?_⟩)
  simp only [hth, h.guard, if_true, hf]
  exact hx

/-- An executing thread that its instruction traps takes the trap. -/
theorem runGroup_trapTaken (h : Executes s is gd t th) (hf : f t th = .error tr) (hcls : tr.cls < 256) (hcause : tr.cause < 256) :
    TrapTaken s is t th tr (runGroup gd f skip s) := by
  have ht := runGroup_trap gd f skip h hf
  have hrec := trapRecord_isRecord is th tr hcls hcause
  obtain ⟨hown, hwindow⟩ := takeTrap_keep s is t tr th
  rw [← ht] at hown hwindow
  constructor
  · intro hpc hh hn
    rw [ht, takeTrap_delivered hh hn]
    exact ⟨rfl, rfl, rfl, rfl, rfl, hrec⟩
  · intro hno
    rw [ht, takeTrap_stopped hno]
    exact ⟨rfl, rfl, _, runGroup_reports h hf (trapReport_stopped hno), rfl, rfl, rfl, hrec⟩
  · exact hown
  · exact hwindow

/-- Taking a trap leaves every register that the thread can name as it was. -/
theorem runGroup_trap_sameValues (h : Executes s is gd t th) (hf : f t th = .error tr) :
    SameValues s t th (runGroup gd f skip s) := by
  have hth : s.thread t = th := State.thread_of_tget h.entry
  have ht := runGroup_trap gd f skip h hf
  obtain ⟨⟨hg, hstack, hpreds, hflg⟩, hwb, -⟩ := takeTrap_keep s is t tr th
  refine ⟨readReg_same (fun c => ?_) ?_ ?_ (runGroup_cohorts ..) (runGroup_teams ..) (runGroup_launches ..) (runGroup_moduleNo ..),
    ?_, ?_⟩
  · rw [ht, hth]
    cases c <;> simp [Thread.cell, Thread.entryAt, hg, hstack]
  · rw [ht, hth, Thread.depth, hstack, Thread.depth]
  · rw [ht, hth, hwb]
  · rw [ht, hpreds]
  · rw [ht, hflg]

/-- An executing thread that its instruction traps, its registers as they were. -/
theorem runGroup_trapped (h : Executes s is gd t th) (hf : f t th = .error tr) (hcls : tr.cls < 256) (hcause : tr.cause < 256) :
    Trapped s is t th tr (runGroup gd f skip s) :=
  ⟨runGroup_trapTaken h hf hcls hcause, runGroup_trap_sameValues h hf⟩

end Traps

/-! ### Results that set flags -/

section FloatResults
variable {s : State} {gd : Guard} {is : Issue} {t : Tid} {th : Thread} {d : Dest} {n : Nat} {f : Tid → Except Trap Result} {r : Result}

/-- A result that sets a flag its launch traps is the arithmetic-flag trap (R89). -/
theorem computed_flagTrap (hf : f t = .ok r) (hfl : r.flags &&& tenOf s t ≠ 0#5) : computed s f t = .error (flagTrap r.flags) := by
  simp [computed, hf, checkFlags, bind, Except.bind, hfl]

/-- A trapped result writes no s-register where no other thread executes, or where its destination is none (R23, R433). -/
theorem putShared_trap {tr : Trap} (hc : computed s f t = .error tr) (hd : d.wbs = true ∨ d.reg.isS = false ∨ s.execs gd = [t]) :
    putShared s gd d n f = s.cohorts := by
  rcases hd with hw | hs | hone
  · exact putShared_other (.inl hw)
  · exact putShared_other (.inr hs)
  · have hnone : leadResult s gd f = none := by simp [leadResult, hone, hc]
    unfold putShared
    split
    · rfl
    · rw [hnone]

/-- A thread whose result sets a flag that its launch traps takes the arithmetic-flag trap (R89). -/
theorem result_trapTaken (h : Executes s is gd t th) (hf : f t = .ok r) (hfl : r.flags &&& tenOf s t ≠ 0#5) :
    TrapTaken s is t th (flagTrap r.flags) (result gd d n f s) := by
  have hx : Executes ({ s with cohorts := putShared s gd d n f } : State) is gd t th := ⟨h.issue, h.member, h.entry, h.guard⟩
  have ht := runGroup_trapTaken (skip := skipCapture s d) (tr := flagTrap r.flags)
    (f := fun t th => (computed s f t).map fun r => (putResult th d n r, Act.next)) hx
    (by rw [computed_flagTrap hf hfl]; rfl) (by decide : 14 < 256) (by decide : 0 < 256)
  exact ⟨ht.delivered, ht.stopped, ht.own, ht.window⟩

/-- Its registers are as they were where no other thread writes its destination. -/
theorem result_trapped (h : Executes s is gd t th) (hf : f t = .ok r) (hfl : r.flags &&& tenOf s t ≠ 0#5)
    (hd : d.wbs = true ∨ d.reg.isS = false ∨ s.execs gd = [t]) : Trapped s is t th (flagTrap r.flags) (result gd d n f s) := by
  have hc := computed_flagTrap hf hfl
  refine ⟨result_trapTaken h hf hfl, ?_⟩
  rw [result, putShared_trap hc hd]
  exact runGroup_trap_sameValues h (tr := flagTrap r.flags) (by rw [hc]; rfl)

/-- An instruction that is a result completes with it, or takes the trap of its flags (R89). -/
theorem completesFloat_result {i : Instr} {ws : List Word} {fl : FlagSet} (he : exec i s = .next (result gd d n f s))
    (hf : f t = .ok { words := ws, flags := fl }) (hl : ws.length = n) : CompletesFloat i gd d s t ws fl :=
  ⟨fun hfl => completes_result he hf hl hfl,
    fun hfl _ _ hx => ⟨_, he, result_trapTaken hx hf hfl, result_trapped hx hf hfl⟩⟩

/-- An instruction that is a result without flags completes with it. -/
theorem completes_result_noFlags {i : Instr} {ws : List Word} (he : exec i s = .next (result gd d n f s))
    (hf : f t = .ok { words := ws }) (hl : ws.length = n) : Completes i gd d s t ws 0#5 :=
  completes_result he hf hl BitVec.zero_and

end FloatResults

end Sys2Proof.Machine
end

section
/-!
SUPPORT. The floating-point group (R158 to R165): each shape of floating instruction completes with the one rounding of its operation,
or takes the trap of its flags; an approximated function completes with an exact or special result, or with one within its bound.
-/

namespace Sys2Proof.Machine

section Floating
variable {gd : Guard} {d : Dest} {a b c : Src} {rm : RMode} {sat na nb nc : Bool} {s : State} {t : Tid} {u v w : Word} {i : Instr}

/-! ### Scalar instructions -/

/-- A scalar instruction of one operand delivers its operation's value, rounded once and flushed (R159). -/
theorem float1_completes {f : XVal → OpResult} (he : exec i s = float1 gd d a rm sat na f s) (ha : readSrc s t a = .ok u) :
    let r := floatResult s t .f32 rm sat (f (floatOperand s t .f32 na u.toNat))
    CompletesFloat i gd d s t [BitVec.ofNat 32 r.bits] r.flags :=
  completesFloat_result he (by rw [ha]; rfl) rfl

/-- A scalar instruction of two operands, likewise (R159). -/
theorem float2_completes {f : XVal → XVal → OpResult} (he : exec i s = float2 gd d a b rm sat na nb f s) (ha : readSrc s t a = .ok u)
    (hb : readSrc s t b = .ok v) :
    let r := floatResult s t .f32 rm sat (f (floatOperand s t .f32 na u.toNat) (floatOperand s t .f32 nb v.toNat))
    CompletesFloat i gd d s t [BitVec.ofNat 32 r.bits] r.flags :=
  completesFloat_result he (by rw [ha, hb]; rfl) rfl

/-- FFMA rounds its product and sum once (R161). -/
theorem ffma_completes (ha : readSrc s t a = .ok u) (hb : readSrc s t b = .ok v) (hc : readSrc s t c = .ok w) :
    let r := floatResult s t .f32 rm sat (fmaX rm (floatOperand s t .f32 na u.toNat) (floatOperand s t .f32 nb v.toNat)
      (floatOperand s t .f32 nc w.toNat))
    CompletesFloat (.ffma gd d a b c rm sat na nb nc) gd d s t [BitVec.ofNat 32 r.bits] r.flags :=
  completesFloat_result rfl (by rw [ha, hb, hc]; rfl) rfl

/-- FSCALE reads its second operand as an integer, neither flushed nor negated (R161). -/
theorem fscale_completes (ha : readSrc s t a = .ok u) (hb : readSrc s t b = .ok v) :
    let r := floatResult s t .f32 rm sat (scaleOp (floatOperand s t .f32 na u.toNat) v.toInt)
    CompletesFloat (.fscale gd d a b rm sat na) gd d s t [BitVec.ofNat 32 r.bits] r.flags :=
  completesFloat_result rfl (by rw [ha, hb]; rfl) rfl

/-- FMIN and FMAX deliver the encoding of the operand they pick, without a flag or an output flush (R162). -/
theorem floatPick_completes {mx : Bool} (he : exec i s = floatPick gd d a b mx na nb s) (ha : readSrc s t a = .ok u)
    (hb : readSrc s t b = .ok v) :
    Completes i gd d s t [BitVec.ofNat 32 (roundFloat .f32 (.mode .rne) false
      (pickNumber mx (floatOperand s t .f32 na u.toNat) (floatOperand s t .f32 nb v.toNat))).bits] 0#5 :=
  completes_result_noFlags he (by rw [ha, hb]; rfl) rfl

theorem scalarFloatInstructionsCompute : Claims.ScalarFloatInstructionsCompute := by
  intro gd d a b c rm sat na nb nc s t u v w ha hb hc
  simp only [List.forall_mem_cons, List.not_mem_nil, false_implies, implies_true, and_true]
  refine ⟨⟨?fadd, ?fsub, ?fmul, ?ffma, ?fdiv, ?frcp, ?fsqrt, ?frnd, ?fscale⟩, ?fmin, ?fmax⟩
  case ffma => exact ffma_completes ha hb hc
  case fscale => exact fscale_completes ha hb
  case fmin | fmax => exact floatPick_completes rfl ha hb
  case frcp => exact float1_completes (f := divX (.fin false 1 1)) rfl ha
  case fsqrt => exact float1_completes (f := sqrtOp) rfl ha
  case frnd => exact float1_completes (f := roundOp rm) rfl ha
  case fadd => exact float2_completes (f := addX rm) rfl ha hb
  case fsub => exact float2_completes (f := fun x y => addX rm x y.neg) rfl ha hb
  case fmul => exact float2_completes (f := mulX) rfl ha hb
  case fdiv => exact float2_completes (f := divX) rfl ha hb

/-! ### Packed instructions and the dot product -/

/-- A packed instruction of two operands delivers each element apart, their flags united (R160). -/
theorem packed2_completes {fmt : Fmt} {op : XVal → XVal → OpResult} (he : exec i s = packed2 gd d a b fmt rm sat na nb op s)
    (ha : readSrc s t a = .ok u) (hb : readSrc s t b = .ok v) :
    let e (k : Nat) := floatResult s t fmt rm sat
      (op (floatOperand s t fmt na (elemOf fmt u.toNat k)) (floatOperand s t fmt nb (elemOf fmt v.toNat k)))
    CompletesFloat i gd d s t (packRounded (e 0) (e 1)).words (packRounded (e 0) (e 1)).flags :=
  completesFloat_result he (by rw [ha, hb]; rfl) rfl

/-- The packed fused multiply and add, likewise (R160, R161). -/
theorem packed3_completes {fmt : Fmt} (he : exec i s = packed3 gd d a b c fmt rm sat na nb nc s) (ha : readSrc s t a = .ok u)
    (hb : readSrc s t b = .ok v) (hc : readSrc s t c = .ok w) :
    let e (k : Nat) := floatResult s t fmt rm sat (fmaX rm (floatOperand s t fmt na (elemOf fmt u.toNat k))
      (floatOperand s t fmt nb (elemOf fmt v.toNat k)) (floatOperand s t fmt nc (elemOf fmt w.toNat k)))
    CompletesFloat i gd d s t (packRounded (e 0) (e 1)).words (packRounded (e 0) (e 1)).flags :=
  completesFloat_result he (by rw [ha, hb, hc]; rfl) rfl

/-- FDOT8 rounds its exact sum once (R165). -/
theorem fdot8_completes {fa fb : DotFmt} {A B : Nat} (ha : readNat s t a fa.regs = .ok A) (hb : readNat s t b fb.regs = .ok B)
    (hc : readSrc s t c = .ok w) :
    let r := floatResult s t .f32 rm sat (dotOp rm fa fb na nb A B (floatOperand s t .f32 nc w.toNat))
    CompletesFloat (.fdot8 gd d a b c rm sat na nb nc fb fa) gd d s t [BitVec.ofNat 32 r.bits] r.flags :=
  completesFloat_result rfl (by rw [ha, hb, hc]; rfl) rfl

theorem packedFloatInstructionsCompute : Claims.PackedFloatInstructionsCompute := by
  intro gd d a b c rm sat na nb nc fa fb s t u v w A B ha hb hc hA hB
  refine ⟨?packed, fdot8_completes hA hB hc⟩
  simp only [List.forall_mem_cons, List.not_mem_nil, false_implies, implies_true, and_true]
  refine ⟨?pkadh, ?pkmlh, ?pkfmh, ?pkadb, ?pkmlb, ?pkfmb⟩
  case pkfmh | pkfmb => exact packed3_completes rfl ha hb hc
  case pkadh | pkmlh | pkadb | pkmlb => exact packed2_completes rfl ha hb

end Floating

/-- Settles O4: each instruction is one of the shapes above, with its own exact operation. -/
theorem floatingInstructionsCompute : Obligations.FloatingInstructionsCompute :=
  ⟨scalarFloatInstructionsCompute, packedFloatInstructionsCompute⟩

/-! ### Approximated functions -/

/-- The delivered result of an approximated case sets NX, and UF where it is tiny and not zero (R164). -/
theorem approxResult_flags (fn : Config.ApproxFn) (v : Word) (neg : Bool) (n dn : Nat) :
    (approxResult fn v neg n dn).flags = (flagNX |||
      if (approxResult fn v neg n dn).bits / 2 ^ 23 % 256 = 0 ∧ (approxResult fn v neg n dn).bits % 2 ^ 23 ≠ 0 then flagUF
      else 0#5) := by
  simp only [approxResult, flagIf, Bool.and_eq_true, decide_eq_true_eq]

/-- Its bits are within the stated error, or those of the value nearest to the bracket's lower end (R163, log entry 11). -/
theorem approxResult_bits (fn : Config.ApproxFn) (v : Word) (neg : Bool) (n dn : Nat) :
    let b := bracketOf fn neg n dn
    withinBound (decodeFloat .f32 (approxResult fn v neg n dn).bits) b (errorBound fn n dn b) = true ∨
    (approxResult fn v neg n dn).bits = (roundFloat .f32 (.mode .rne) true (.fin (decide (b.lo < 0)) b.lo.natAbs b.den)).bits := by
  by_cases hw : withinBound (decodeFloat .f32 (Config.approxBits fn v).toNat) (bracketOf fn neg n dn)
      (errorBound fn n dn (bracketOf fn neg n dn)) = true
  · left
    simp only [approxResult, hw, if_true]
  · right
    simp only [approxResult, hw, Bool.false_eq_true, if_false]

section Approximated
variable {gd : Guard} {d : Dest} {a : Src} {na : Bool} {s : State} {t : Tid} {u : Word} {i : Instr}

/-- An approximated function delivers its result, flushed (R85, R163). -/
theorem approx1_completes {fn : Config.ApproxFn} (he : exec i s = approx1 gd d a fn na s) (ha : readSrc s t a = .ok u) :
    let x := floatOperand s t .f32 na u.toNat
    let r := flushOut (oflOf s t) .f32 (approxOf fn (BitVec.ofNat 32 (roundFloat .f32 (.mode .rne) false x).bits) x)
    CompletesFloat i gd d s t [BitVec.ofNat 32 r.bits] r.flags :=
  completesFloat_result he (by rw [ha]; rfl) rfl

end Approximated

section Outcomes
variable {fn : Config.ApproxFn} {x : XVal}

theorem approxOf_of_exact (v : Word) {y : XVal} (h : specialOf fn x = .exact y) :
    approxOf fn v x = roundFloat .f32 (.mode .rne) false y := by
  simp only [approxOf, h]

theorem approxOf_of_flagged (v : Word) {y : XVal} {fl : FlagSet} (h : specialOf fn x = .flagged y fl) :
    approxOf fn v x = { bits := (roundFloat .f32 (.mode .rne) false y).bits, flags := fl } := by
  simp only [approxOf, h]

/-- Where a function is neither exact nor special, its operand is finite and it delivers an approximated result (R163). -/
theorem approxOf_of_approx (v : Word) (h : specialOf fn x = .approx) :
    ∃ n dn, x = .fin x.isNeg n dn ∧ approxOf fn v x = approxResult fn v x.isNeg n dn := by
  cases x with
  | nan => cases h
  | inf neg => cases fn <;> cases neg <;> cases h
  | fin neg n dn => exact ⟨n, dn, rfl, by simp only [approxOf, h, XVal.isNeg]⟩

end Outcomes

/-- Settles O5: an exact or special case delivers its own result, and every other one an approximated result within its bound. -/
theorem approximatedFunctionsCompute : Obligations.ApproximatedFunctionsCompute := by
  intro gd d a na s t u ha p hp x
  have hexec : exec p.1 s = approx1 gd d a p.2 na s := by
    simp only [List.mem_cons, List.not_mem_nil, or_false] at hp
    rcases hp with rfl | rfl | rfl | rfl | rfl | rfl <;> rfl
  refine ⟨approxOf p.2 _ x, ?_, approx1_completes hexec ha⟩
  split
  · next y h => exact approxOf_of_exact _ h
  · next y fl h => exact approxOf_of_flagged _ h
  · next h =>
    obtain ⟨n, dn, hx, hr⟩ := approxOf_of_approx _ h
    rw [hr]
    exact ⟨approxResult_flags .., n, dn, hx, approxResult_bits ..⟩

end Sys2Proof.Machine
end

section
/-!
SUPPORT. The conversion group (R166 to R177): each conversion completes with the words of its element or elements, or takes the trap of
its flags; CVTF is a quantising or a dequantising by its format slot.
-/

namespace Sys2Proof.Machine

@[simp] theorem natWords_length (n v : Nat) : (natWords n v).length = n := by
  induction n generalizing v with
  | zero => rfl
  | succ n ih => rw [natWords, List.length_cons, ih]

/-- A conversion's result has the words of its target (R70, R167). -/
@[simp] theorem convWords_length (fmt : Fmt) (k : Nat) (base : Option Word) (bits : Nat) :
    (convWords fmt k base bits).length = fmt.regs := by
  unfold convWords
  split
  · next h => rw [Fmt.regs, if_neg (by omega)]; rfl
  · exact natWords_length ..

section Conversions
variable {gd : Guard} {d : Dest} {a b : Src} {c : Option Src} {tgt frm : Fmt} {rm : RMode} {sat : Bool} {ks kd : Fin 8} {s : State}
  {t : Tid} {u v : Word} {base : Option Word} {i : Instr}

/-! ### Conversions of one element -/

/-- A conversion delivers the rounding of its flushed source element, placed in its register (R166 to R168). -/
theorem convert_completes {f : Tid → XVal → Except Trap Rounded} {r : Rounded} {n : Nat}
    (he : exec i s = convert gd d a c tgt frm ks kd f s) (ha : readNat s t a frm.regs = .ok n) (hbase : readBase s t c = .ok base)
    (hf : f t (readFlushed (iflOf s t) frm (elemOf frm n ks.val)) = .ok r) :
    CompletesFloat i gd d s t (convWords tgt kd.val base r.bits) r.flags :=
  completesFloat_result he
    (by simp only [ha, hbase, hf, bind, Except.bind]) (convWords_length ..)

/-- CVT rounds by its mode (R169). -/
theorem cvt_completes {n : Nat} (ha : readNat s t a frm.regs = .ok n) (hbase : readBase s t c = .ok base) :
    let r := roundFmt tgt (.mode rm) sat (oflOf s t) (readFlushed (iflOf s t) frm (elemOf frm n ks.val))
    CompletesFloat (.cvt gd d a c tgt frm rm sat ks kd) gd d s t (convWords tgt kd.val base r.bits) r.flags :=
  convert_completes (show _ = execCvt gd d a c tgt frm rm sat ks kd s from rfl) ha hbase rfl

/-- CVTSR rounds stochastically with its second operand (R170). -/
theorem cvtsr_completes {n : Nat} (ha : readNat s t a frm.regs = .ok n) (hb : readSrc s t b = .ok v)
    (hbase : readBase s t c = .ok base) :
    let r := roundFmt tgt (.stoch v) sat (oflOf s t) (readFlushed (iflOf s t) frm (elemOf frm n ks.val))
    CompletesFloat (.cvtsr gd d a b c tgt frm sat ks kd) gd d s t (convWords tgt kd.val base r.bits) r.flags :=
  convert_completes (show _ = execCvtsr gd d a b c tgt frm sat ks kd s from rfl) ha hbase (by rw [hb]; rfl)

/-- CVTI clamps or wraps, and sets no flag (R171). -/
theorem cvti_completes {n : Nat} (ha : readNat s t a frm.regs = .ok n) (hbase : readBase s t c = .ok base) :
    let i := decodeInt frm (elemOf frm n ks.val)
    Completes (.cvti gd d a c tgt frm sat ks kd) gd d s t
      (convWords tgt kd.val base (encodeInt tgt (if sat then max (intMin tgt) (min (intMax tgt) i) else i))) 0#5 :=
  completes_result_noFlags rfl (by rw [ha, hbase]; rfl) (convWords_length ..)

theorem elementConversionsCompute : Claims.ElementConversionsCompute := by
  intro gd d a b c tgt frm rm sat ks kd s t n w base ha hb hbase
  refine ⟨?_, cvti_completes ha hbase⟩
  simp only [List.forall_mem_cons, List.not_mem_nil, false_implies, implies_true, and_true]
  exact ⟨cvt_completes ha hbase, cvtsr_completes ha hb hbase⟩

/-! ### Conversions of several elements -/

/-- PACK2 delivers two elements, their flags united (R172). -/
theorem pack2_completes (ha : readSrc s t a = .ok u) (hb : readSrc s t b = .ok v) :
    let e0 := packElem s t tgt frm rm sat u
    let e1 := packElem s t tgt frm rm sat v
    CompletesFloat (.pack2 gd d a b tgt frm rm sat) gd d s t [BitVec.ofNat 32 (e0.bits + 2 ^ 16 * e1.bits)] (e0.flags ||| e1.flags) :=
  completesFloat_result rfl (by rw [ha, hb]; rfl) rfl

/-- UNPK2 delivers two registers, the flags of their elements united (R172). -/
theorem unpk2_completes (ha : readSrc s t a = .ok u) :
    let e (k : Nat) := unpackElem s t tgt frm (elemOf frm u.toNat k)
    CompletesFloat (.unpk2 gd d a tgt frm) gd d s t [BitVec.ofNat 32 (e 0).bits, BitVec.ofNat 32 (e 1).bits]
      ((e 0).flags ||| (e 1).flags) :=
  completesFloat_result rfl (by rw [ha]; rfl) rfl

/-- LCDEC without a scale delivers the eight weights as the bytes of a pair (R173). -/
theorem lcdec_bytes_completes (ha : readSrc s t a = .ok u) :
    Completes (.lcdec gd d a none .s8 rm ks) gd d s t (natWords 2 ((List.range 8).foldl (fun acc i =>
      acc + encodeInt .s8 (lcWeight (elemOf .lc2 u.toNat ks.val) i) * 2 ^ (8 * i)) 0)) 0#5 :=
  completes_result_noFlags rfl (by rw [ha]; rfl) (natWords_length ..)

/-- LCDEC with a scale delivers the eight weights in pairs, their flags united (R173). -/
theorem lcdec_scaled_completes (ha : readSrc s t a = .ok u) (hb : readSrc s t b = .ok v) (htgt : tgt ≠ .s8) :
    let e (i : Nat) := lcElem s t tgt rm (elemOf .lc2 u.toNat ks.val) (v.toNat % 256) i
    CompletesFloat (.lcdec gd d a (some b) tgt rm ks) gd d s t
      ((List.range 4).map fun j => BitVec.ofNat 32 ((e (2 * j)).bits + 2 ^ 16 * (e (2 * j + 1)).bits))
      ((List.range 8).foldl (fun acc i => acc ||| (e i).flags) 0#5) :=
  completesFloat_result rfl (by rw [ha]; simp only [hb]; rfl) (by rw [if_neg htgt]; rfl)

theorem packingConversionsCompute : Claims.PackingConversionsCompute := by
  intro gd d a b tgt frm rm sat ks s t u v ha hb
  exact ⟨pack2_completes ha hb, unpk2_completes ha, lcdec_bytes_completes ha, lcdec_scaled_completes ha hb⟩

/-! ### Quantising conversions -/

/-- A quantising delivers its value over the scale, rounded with saturation and placed (R175). -/
theorem quantise_completes {scale : Tid → Except Trap Nat} {n : Nat} (he : exec i s = .next (quantise gd d a scale c tgt rm kd s))
    (ha : readSrc s t a = .ok u) (hscale : scale t = .ok n) (hbase : readBase s t c = .ok base) :
    let r := quantRound tgt rm (oflOf s t) (unscale (readFlushed (iflOf s t) .f32 u.toNat) n)
    CompletesFloat i gd d s t [placeElem tgt kd.val base r.bits] r.flags :=
  completesFloat_result he (by rw [ha, hscale, hbase]; rfl) rfl

/-- A dequantising delivers its element times the scale, rounded once (R175). -/
theorem dequantise_completes {scale : Tid → Except Trap Nat} {n : Nat}
    (he : exec i s = .next (dequantise gd d a scale frm rm ks s)) (ha : readSrc s t a = .ok u) (hscale : scale t = .ok n) :
    let r := flushOut (oflOf s t) .f32 (roundFloat .f32 (.mode rm) false
      (applyScale (readFlushed (iflOf s t) frm (elemOf frm u.toNat ks.val)) n))
    CompletesFloat i gd d s t [BitVec.ofNat 32 r.bits] r.flags :=
  completesFloat_result he (by rw [ha, hscale]; rfl) rfl

/-- The scale byte of an operand that can be read (R175). -/
theorem scaleByte_ok (hb : readSrc s t b = .ok v) : scaleByte s b t = .ok (v.toNat % 256) := by
  rw [scaleByte, hb]; rfl

/-- E8EXT delivers a block's scale, without a flag (R174). -/
theorem e8ext_completes (ha : readSrc s t a = .ok u) (hbase : readBase s t c = .ok base) :
    Completes (.e8ext gd d a c tgt kd) gd d s t
      [placeElem .e8m0 kd.val base (blockScale ((maxExp tgt).getD 0) (readFlushed (iflOf s t) .f32 u.toNat))] 0#5 :=
  completes_result_noFlags rfl (by rw [ha, hbase]; rfl) rfl

/-! ### Conversions under a format slot -/

/-- The scale that CVTF reads: the byte of b where the slot has one, else that of 2^0 (R176). -/
def slotScale (s : State) (b : Src) (sc : Bool) : Tid → Except Trap Nat := if sc then scaleByte s b else fun _ => .ok 127

theorem slotScale_ok (sc : Bool) (hb : readSrc s t b = .ok v) :
    slotScale s b sc t = .ok (if sc then v.toNat % 256 else 127) := by
  cases sc with
  | false => rfl
  | true => exact scaleByte_ok hb

section Slot
variable {n : Fin 8} {f : FormatSlot} {sc : Bool}

/-- A slot that CVTF takes has no fault where the element index is legal (R176, R177). -/
theorem cvtfFault_eq_none {k : Fin 8} (hvalid : f.valid = true) (hsc : f.scale = some sc) (helem : quantFmt f.elem = true)
    (hk : idxOk f.elem k = true) : cvtfFault f k = none := by
  simp [cvtfFault, hvalid, hsc, helem, hk]

/-- CVTF without a fault is a quantising or a dequantising with the slot's element format and rounding (R176). -/
theorem exec_cvtf {deq : Bool} (hslot : formatSlot s n = some f) (hsc : f.scale = some sc)
    (hfault : cvtfFault f (if deq then ks else kd) = none) : exec (.cvtf gd d a b c deq ks kd n) s = .next
      (if deq then dequantise gd d a (slotScale s b sc) f.elem f.rm ks s else quantise gd d a (slotScale s b sc) c f.elem f.rm kd s) := by
  change execCvtf gd d a b c deq ks kd n s = _
  simp only [execCvtf, hslot, hfault, hsc, Option.some.injEq]
  cases deq <;> rfl

end Slot

theorem quantisingConversionsCompute : Claims.QuantisingConversionsCompute := by
  intro gd d a b c tgt frm rm ks kd n s t u v base f sc ha hb hbase hslot hvalid hsc helem
  have hbyte := scaleByte_ok hb
  have hscale := slotScale_ok sc hb
  refine ⟨?qnt, ?dqnt, ?e8ext, fun hk => ?cvtf, fun hk => ?cvtfDeq⟩
  case qnt => exact quantise_completes rfl ha hbyte hbase
  case dqnt => exact dequantise_completes rfl ha hbyte
  case e8ext => exact e8ext_completes ha hbase
  case cvtf => exact quantise_completes (exec_cvtf hslot hsc (cvtfFault_eq_none hvalid hsc helem hk)) ha hscale hbase
  case cvtfDeq => exact dequantise_completes (exec_cvtf hslot hsc (cvtfFault_eq_none hvalid hsc helem hk)) ha hscale

end Conversions

/-- Settles O6: conversions of one element, of several, and the quantising ones. -/
theorem conversionsCompute : Obligations.ConversionsCompute :=
  ⟨elementConversionsCompute, packingConversionsCompute, quantisingConversionsCompute⟩

end Sys2Proof.Machine
end

section
/-!
SUPPORT. The machine after reset (R211, R246, R278, R355, R480, R517, R555).
-/

namespace Sys2Proof.Machine

theorem reset_settled : Settled State.reset := ⟨rfl, rfl, fun _ hp => (List.not_mem_nil hp).elim⟩

/-- Settles O58: every field of the machine after reset is a literal, and its empty tables settle it. -/
theorem resetLeavesTheMachineEmpty : Obligations.ResetLeavesTheMachineEmpty := by
  have hthresholds : ∀ d < 5, State.reset.thresholdOf d = 95 := by decide
  have hbytes (pa : Nat) : State.reset.homeByte pa = 0#8 ∧ cellGet 0#8 pa State.reset.mem.dram = 0#8 := ⟨rfl, rfl⟩
  exact ⟨rfl, rfl, rfl, rfl, rfl, rfl, rfl, rfl, rfl, rfl, rfl, hthresholds, hbytes, rfl, rfl, reset_settled, reset_dramWf⟩

end Sys2Proof.Machine
end

section
/-!
SUPPORT. What a thread is shown of the machine: the issue, its own registers, predicates and flags, its cohort's s-registers and its
specials. Where an instruction changes records beside its threads and leaves that as it was, but for the writes that they await, its
group goes on past its slot.
-/

namespace Sys2Proof.Machine

/-! ### Folds -/

/-- A fold reaches each element of its list: what every step keeps leads up to its step and on from there. -/
theorem foldl_reaches {α β : Type} {R : β → β → Prop} (hrefl : ∀ b, R b b) (htrans : ∀ {a b c}, R a b → R b c → R a c)
    {f : β → α → β} (hf : ∀ b a, R b (f b a)) {l : List α} {a : α} (ha : a ∈ l) (b : β) :
    ∃ c, R b c ∧ R (f c a) (l.foldl f b) := by
  have hfold (l : List α) : ∀ b, R b (l.foldl f b) := by
    induction l with
    | nil => exact hrefl
    | cons x l ih => exact fun b => htrans (hf b x) (ih _)
  obtain ⟨before, rest, rfl⟩ := List.append_of_mem ha
  exact ⟨before.foldl f b, hfold before b, by rw [List.foldl_append, List.foldl_cons]; exact hfold rest _⟩

/-! ### What a thread is shown -/

/-- What a thread's own registers, predicates and flags are read from. -/
def Thread.values (th : Thread) : Vector Word 16 × List Word × Nat × BitVec 8 × BitVec 5 := (th.g, th.stack, th.wb, th.preds, th.flg)

@[simp] theorem advance_values (is : Issue) (th : Thread) : (advance is th).values = th.values := by
  unfold advance leaveLine
  split <;> rfl

/-- No act changes a register, a predicate or a flag of its thread. -/
@[simp] theorem applyAct_values (is : Issue) (a : Act) (th : Thread) : (applyAct is a th).values = th.values := by
  cases a with
  | next | yield | block why | sleep why | exit => exact advance_values is th
  | jump pc | pend why | stay why | arrive | again => rfl

/-- A thread reads the same registers where its own values, its cohort's s-registers and its specials are the same. -/
theorem readReg_of_values {s s' : State} {t : Tid} (hv : (s'.thread t).values = (s.thread t).values)
    (hs : (s'.cohort t.coh).s = (s.cohort t.coh).s) (hk : ∀ n, special s' t n = special s t n) (r : Reg) :
    readReg s' t r = readReg s t r := by
  simp only [Thread.values, Prod.mk.injEq] at hv
  obtain ⟨hg, hstack, hwb, -, -⟩ := hv
  cases r with
  | g n => simp only [readReg, hg]
  | w n => simp only [readReg, Thread.entryAt, Thread.depth, hstack, hwb]
  | s n => simp only [readReg, hs]
  | k n => exact hk n

/-- An outstanding write's number and the cells that it goes to. -/
def Pend.what (p : Pend) : Nat × List RegCell := (p.id, p.cells)

theorem supersede_what (c : RegCell) (ps : List Pend) : (supersede c ps).map Pend.what = ps.map Pend.what := by
  simp [supersede, Function.comp_def, Pend.what]

/-- A new outstanding write stands behind the others, which keep their numbers and cells (R25). -/
theorem addPend_what (id : Nat) (cells : List RegCell) (ps : List Pend) :
    (addPend id cells ps).map Pend.what = ps.map Pend.what ++ [(id, cells)] := by
  have hold (cs : List RegCell) : ∀ qs : List Pend, (cs.foldl (fun acc c => supersede c acc) qs).map Pend.what = qs.map Pend.what := by
    induction cs with
    | nil => exact fun _ => rfl
    | cons c cs ih => exact fun qs => (ih _).trans (supersede_what c qs)
  rw [addPend, List.map_append, hold]
  rfl

/-- What the threads are shown of the machine is as it was: the issue, the threads themselves but for the writes they await, of which
none has gone, the s-registers and the specials. -/
structure KeepsView (s s' : State) : Prop where
  issue : s'.issue = s.issue
  threads : ∀ t th, tget s.threads t = some th →
    ∃ ps, tget s'.threads t = some { th with pends := ps } ∧ th.pends.map Pend.what ⊆ ps.map Pend.what
  sregs : ∀ c, (s'.cohort c).s = (s.cohort c).s
  specials : ∀ t n, special s' t n = special s t n

theorem KeepsView.trans {s s' s'' : State} (h : KeepsView s s') (k : KeepsView s' s'') : KeepsView s s'' where
  issue := k.issue.trans h.issue
  threads t th ht := by
    obtain ⟨ps, hps, hsub⟩ := h.threads t th ht
    obtain ⟨qs, hqs, hsub'⟩ := k.threads t _ hps
    exact ⟨qs, hqs, List.Subset.trans hsub hsub'⟩
  sregs c := (k.sregs c).trans (h.sregs c)
  specials t n := (k.specials t n).trans (h.specials t n)

/-- The view is the same where the threads and cohorts are, and the places of the teams and the records of the launches. -/
theorem KeepsView.of_same {s s' : State} (hissue : s'.issue = s.issue) (hthreads : s'.threads = s.threads)
    (hcohorts : s'.cohorts = s.cohorts) (hteams : ∀ k, (s'.team k).map Team.place = (s.team k).map Team.place)
    (hlaunches : ∀ n, (s'.launchOf n).map Launch.desc = (s.launchOf n).map Launch.desc) : KeepsView s s' where
  issue := hissue
  threads t th ht := ⟨th.pends, by rw [hthreads, ht], List.Subset.refl _⟩
  sregs c := by rw [State.cohort, hcohorts, State.cohort]
  specials t := special_eq_of_place (hteams t.coh.team) (hlaunches t.coh.team.lid)

theorem KeepsView.refl (s : State) : KeepsView s s := .of_same rfl rfl rfl (fun _ => rfl) fun _ => rfl

/-- A team changed in what its threads are not shown. -/
theorem State.modTeam_view (s : State) (k : TeamId) {f : Team → Team} (hf : ∀ m, (f m).place = m.place) :
    KeepsView s (s.modTeam k f) := by
  refine .of_same rfl rfl rfl (fun j => ?_) fun _ => rfl
  rw [State.team, State.team, State.modTeam_teams, tget_tmod]
  split
  · simp [Function.comp_def, hf]
  · rfl

theorem State.closeTeam_view (s : State) (t : Tid) : KeepsView s (s.closeTeam t) := s.modTeam_view _ fun _ => rfl

/-- The launch of an identifier after a launch has changed that keeps its stages' identifiers. -/
theorem State.launchOf_modLaunch (s : State) (lid n : Nat) {f : Launch → Launch}
    (hf : ∀ l, (f l).stages.map StageRun.lid = l.stages.map StageRun.lid) :
    (s.modLaunch lid f).launchOf n = (s.launchOf n).map fun l => if l.stages.any (fun g => g.lid = lid) then f l else l := by
  have hlids (l : Launch) : (if l.stages.any (fun g => g.lid = lid) then f l else l).stages.map StageRun.lid =
      l.stages.map StageRun.lid := by
    split
    · exact hf l
    · rfl
  have hany (l : Launch) : (if l.stages.any (fun g => g.lid = lid) then f l else l).stages.any (fun g => g.lid = n) =
      l.stages.any fun g => g.lid = n := by
    simpa [Function.comp_def] using congrArg (List.any · fun i => decide (i = n)) (hlids l)
  simp only [State.launchOf, State.modLaunch, List.find?_map, Function.comp_def, hany]

/-- A launch found by its identifier is the one that changes. -/
theorem State.launchOf_modLaunch_self {s : State} {lid : Nat} {l : Launch} {f : Launch → Launch}
    (hf : ∀ l, (f l).stages.map StageRun.lid = l.stages.map StageRun.lid) (hl : s.launchOf lid = some l) :
    (s.modLaunch lid f).launchOf lid = some (f l) := by
  have hhas : (l.stages.any fun g => g.lid = lid) = true :=
    List.find?_some (p := fun l : Launch => l.stages.any fun g => g.lid = lid) hl
  rw [State.launchOf_modLaunch s lid lid hf, hl, Option.map_some, if_pos hhas]

/-- A launch changed in what its threads are not shown. -/
theorem State.modLaunch_view (s : State) (lid : Nat) {f : Launch → Launch}
    (hf : ∀ l, (f l).stages.map StageRun.lid = l.stages.map StageRun.lid) (hdesc : ∀ l, (f l).desc = l.desc) :
    KeepsView s (s.modLaunch lid f) := by
  refine .of_same rfl rfl rfl (fun _ => rfl) fun n => ?_
  rw [State.launchOf_modLaunch s lid n hf, Option.map_map]
  refine congrArg (Option.map · _) (funext fun l => ?_)
  rw [Function.comp_apply]
  split
  · exact hdesc l
  · rfl

theorem State.endReplay_view (s : State) (lid : Nat) : KeepsView s (s.endReplay lid) := s.modLaunch_view lid (fun _ => rfl) fun _ => rfl

/-! ### Results that are awaited -/

@[simp] theorem State.expect_fst (s : State) (t : Tid) (cells : List RegCell) (shared : Bool) : (s.expect t cells shared).1 = s.nextId := by
  cases shared <;> rfl

/-- An outstanding write is its thread's, of no cell of its own where it is shared, and its cohort's where it is (R23, R25). -/
theorem State.expect_snd (s : State) (t : Tid) (cells : List RegCell) (shared : Bool) : ∃ co : Tbl CohId Cohort,
    (∀ c, ((tget co c).getD Cohort.blank).s = (s.cohort c).s) ∧
    (s.expect t cells shared).2 = { s with nextId := s.nextId + 1, cohorts := co, threads := tmod s.threads t fun th =>
      { th with pends := addPend s.nextId (if shared then [] else cells) th.pends } } := by
  cases shared with
  | false => exact ⟨s.cohorts, fun _ => rfl, rfl⟩
  | true =>
    refine ⟨tmod s.cohorts t.coh fun c => { c with pends := addPend s.nextId cells c.pends }, fun c => ?_, rfl⟩
    rw [State.cohort, tget_tmod]
    split
    · cases tget s.cohorts c <;> rfl
    · rfl

/-- A write awaited is all that a thread is shown of it. -/
theorem State.expect_view (s : State) (t : Tid) (cells : List RegCell) (shared : Bool) : KeepsView s (s.expect t cells shared).2 := by
  obtain ⟨co, hco, he⟩ := s.expect_snd t cells shared
  rw [he]
  refine ⟨rfl, fun u th hu => ?_, hco, fun _ _ => rfl⟩
  rw [tget_tmod, hu]
  split
  · exact ⟨_, rfl, by rw [addPend_what]; exact List.subset_append_left ..⟩
  · exact ⟨th.pends, rfl, List.Subset.refl _⟩

/-- A thread awaits a result of some number for some cells. -/
def State.outstanding (s : State) (t : Tid) (id : Nat) (cells : List RegCell) : Prop := (id, cells) ∈ (s.thread t).pends.map Pend.what

theorem State.expect_outstanding {s : State} {t : Tid} {th : Thread} (ht : tget s.threads t = some th) (cells : List RegCell)
    (shared : Bool) : (s.expect t cells shared).2.outstanding t s.nextId (if shared then [] else cells) := by
  obtain ⟨co, -, he⟩ := s.expect_snd t cells shared
  rw [he, State.outstanding, State.thread, tget_tmod_self, ht, Option.map_some, Option.getD_some, addPend_what]
  exact List.mem_append_right _ List.mem_cons_self

section View
variable {s s' : State} {is : Issue} {gd : Guard} {t : Tid} {th : Thread} {id : Nat} {cells : List RegCell}

theorem KeepsView.thread (h : KeepsView s s') (ht : tget s.threads t = some th) : ∃ ps, s'.thread t = { th with pends := ps } := by
  obtain ⟨ps, hps, -⟩ := h.threads t th ht
  exact ⟨ps, State.thread_of_tget hps⟩

theorem KeepsView.outstanding (h : KeepsView s s') (ht : tget s.threads t = some th) (hw : s.outstanding t id cells) :
    s'.outstanding t id cells := by
  obtain ⟨ps, hps, hsub⟩ := h.threads t th ht
  rw [State.outstanding, State.thread_of_tget ht] at hw
  rw [State.outstanding, State.thread_of_tget hps]
  exact hsub hw

/-- A thread that executes an instruction executes it still. -/
theorem KeepsView.executes (h : KeepsView s s') (hx : Executes s is gd t th) : Executes s' is gd t (s'.thread t) := by
  obtain ⟨ps, hps, -⟩ := h.threads t th hx.entry
  rw [State.thread_of_tget hps]
  exact ⟨by rw [h.issue, hx.issue], hx.member, hps, hx.guard⟩

variable {f : Tid → Thread → Except Trap (Thread × Act)} {skip : Tid → Thread → Thread} {a : Act}

/-- Acting leaves a thread's values as they were. -/
theorem KeepsView.sameValues (h : KeepsView s s') (hx : Executes s is gd t th) (hf : ∀ th', f t th' = .ok (th', a)) :
    SameValues s t th (runGroup gd f skip s') := by
  obtain ⟨ps, hps⟩ := h.thread hx.entry
  have hth : s.thread t = th := State.thread_of_tget hx.entry
  have hvalues : ((runGroup gd f skip s').thread t).values = th.values := by
    rw [runGroup_ok gd f skip (h.executes hx) (hf _), applyAct_values, hps]
    rfl
  have hregs : ∀ r, readReg (runGroup gd f skip s') t r = readReg s t r :=
    readReg_of_values (by rw [hvalues, hth]) (by rw [State.cohort, runGroup_cohorts]; exact h.sregs t.coh) fun n => by
      rw [special_congr (runGroup_teams ..) (runGroup_launches ..) (runGroup_moduleNo ..), h.specials]
  simp only [Thread.values, Prod.mk.injEq] at hvalues
  obtain ⟨-, -, -, hpreds, hflags⟩ := hvalues
  exact ⟨hregs, hpreds, hflags⟩

/-- A thread that goes on has gone past its slot with nothing else of it changed (R63). -/
theorem KeepsView.passed (h : KeepsView s s') (hx : Executes s is gd t th) (hf : ∀ th', f t th' = .ok (th', .next)) :
    Passed s is t th (runGroup gd f skip s') := by
  obtain ⟨ps, hps⟩ := h.thread hx.entry
  have ht : (runGroup gd f skip s').thread t = advance is { th with pends := ps } := by
    rw [runGroup_ok gd f skip (h.executes hx) (hf _), hps]
    rfl
  obtain ⟨h1, h2, h3, h4, h5, h6, h7, h8⟩ := advance_context is { th with pends := ps }
  exact {
    pc := by rw [ht, advance_pc]
    latches := by rw [ht, advance_latches]
    context := by rw [ht]; exact ⟨h1, h2, h3, h4, h5, h6, h7, h8⟩
    values := h.sameValues hx hf }

theorem advance_pends (is : Issue) (th : Thread) : (advance is th).pends = th.pends := by
  unfold advance leaveLine
  split <;> rfl

/-- Going on, a thread awaits what it awaited. -/
theorem runGroup_outstanding (hx : Executes s is gd t (s.thread t)) (hf : ∀ th', f t th' = .ok (th', .next))
    (hw : s.outstanding t id cells) : ∃ q ∈ ((runGroup gd f skip s).thread t).pends, q.id = id ∧ q.cells = cells := by
  rw [runGroup_ok gd f skip hx (hf _)]
  change ∃ q ∈ (advance is (s.thread t)).pends, _
  rw [advance_pends]
  obtain ⟨q, hq, he⟩ := List.mem_map.mp hw
  exact ⟨q, hq, congrArg Prod.fst he, congrArg Prod.snd he⟩

end View

/-! ### Instructions that act lane by lane or once -/

/-- What one lane of an instruction that acts lane by lane does. -/
def laneEffect (f : Tid → Except Trap (State → State)) (s : State) (t : Tid) : State :=
  match f t with
  | .ok g => g s
  | .error _ => s

/-- An instruction that acts lane by lane goes on from what its lanes have done. -/
theorem laneGroup_eq (gd : Guard) (f : Tid → Except Trap (State → State)) (s : State) : laneGroup gd f s =
    runGroup gd (fun t th => (f t).map fun _ => (th, .next)) skipPlain ((s.execs gd).foldl (laneEffect f) s) := rfl

/-- An instruction of one lane alone goes on from what the lane has done. -/
theorem exec_laneGroup_one {i : Instr} {gd : Guard} {f : Tid → Except Trap (State → State)} {g : State → State} {s : State} {t : Tid}
    (he : exec i s = .next (laneGroup gd f s)) (hone : s.execs gd = [t]) (hf : f t = .ok g) :
    ∃ F, (∀ th, F t th = .ok (th, .next)) ∧ exec i s = .next (runGroup gd F skipPlain (g s)) := by
  refine ⟨fun t th => (f t).map fun _ => (th, .next), fun th => ?_, ?_⟩
  · simp only [hf, Except.map]
  · simp [he, laneGroup_eq, hone, laneEffect, hf]

/-- An instruction that acts once acts with the values of its lowest lane. -/
theorem onceGroup_head {gd : Guard} {f : Tid → Except Trap (State → State)} {g : State → State} {s : State} {u : Tid}
    (hu : (s.execs gd).head? = some u) (hf : f u = .ok g) :
    onceGroup gd f s = runGroup gd (fun _ th => .ok (th, .next)) skipPlain (g s) := by
  obtain ⟨rest, hrest⟩ := List.head?_eq_some_iff.mp hu
  simp [onceGroup, hrest, hf]

@[simp] theorem runGroup_cp (gd : Guard) (f : Tid → Thread → Except Trap (Thread × Act)) (skip : Tid → Thread → Thread) (s : State) :
    (runGroup gd f skip s).cp = s.cp := by
  obtain ⟨threads, traps, h⟩ := runGroup_eq gd f skip s
  rw [h]

/-- A thread that executes an instruction is among its executing threads. -/
theorem Executes.mem_execs {s : State} {is : Issue} {gd : Guard} {t : Tid} {th : Thread} (hx : Executes s is gd t th) :
    t ∈ s.execs gd := by
  simp [State.execs, State.group, hx.issue, hx.member, State.thread_of_tget hx.entry, hx.guard]

end Sys2Proof.Machine
end

section
/-!
SUPPORT. Children, exit, stage queues, regions and timed waits (R204, R210, R224 to R228, R446).
-/

namespace Sys2Proof.Machine

open Host (Outcome)

/-! ### SPAWN -/

/-- A record for the CP to read (R224). -/
def State.recordSpawn (s : State) (x : Spawn) : State := { s with cp := { s.cp with spawns := s.cp.spawns ++ [x] } }

/-- What a SPAWN does for a lane: it leaves its record, awaits its result, and closes its region (R224). -/
def sendSpawn (d : Reg) (lead : Option Tid) (t : Tid) (x : Nat × Word) (st : State) : State :=
  let cells := if d.isS && lead ≠ some t then [] else cellsOf (st.thread t) d 1
  let y : Spawn := { tid := t, pend := (st.expect t cells d.isS).1, asid := (st.spaceOf t).1, root := (st.spaceOf t).2, va := x.1,
                     arg := x.2, after := st.accessesBefore t fun _ _ => true }
  (((st.expect t cells d.isS).2.recordSpawn y).endReplay t.coh.team.lid).closeTeam t

theorem exec_spawn (gd : Guard) (d : Reg) (a b : Src) (s : State) : exec (.spawn gd d a b) s =
    .next (laneGroup gd (fun t => (spawnArgs s a b t).map (sendSpawn d (leadOf (s.execs gd) (spawnArgs s a b)) t)) s) := rfl

/-- The view kept with the memory system, the restores that teams' accesses are told apart by, and every record of a SPAWN. -/
structure KeepsSpawns (s s' : State) : Prop extends KeepsView s s' where
  mem : s'.mem = s.mem
  edges : ∀ k, (s'.team k).map Team.edge = (s.team k).map Team.edge
  spawns : s.cp.spawns ⊆ s'.cp.spawns

theorem KeepsSpawns.refl (s : State) : KeepsSpawns s s := ⟨.refl s, rfl, fun _ => rfl, List.Subset.refl _⟩

theorem KeepsSpawns.trans {s s' s'' : State} (h : KeepsSpawns s s') (k : KeepsSpawns s' s'') : KeepsSpawns s s'' :=
  ⟨h.toKeepsView.trans k.toKeepsView, k.mem.trans h.mem, fun j => (k.edges j).trans (h.edges j), List.Subset.trans h.spawns k.spawns⟩

/-- Of a team, only the restore that its accesses are told apart by says whether one came before it (R302). -/
theorem State.beforeEdge_eq (s : State) (k : TeamId) (u : Tid) (id : Nat) : s.beforeEdge k u id =
    (decide (u.coh.team = k) && ((s.team k).map Team.edge).any fun e => decide (id < e)) := by
  unfold State.beforeEdge
  cases s.team k <;> rfl

/-- The accesses before an instruction are the same (R301, R302). -/
theorem KeepsSpawns.accessesBefore {s s' : State} (h : KeepsSpawns s s') (t : Tid) :
    s'.accessesBefore t (fun _ _ => true) = s.accessesBefore t fun _ _ => true := by
  have hedge (k : TeamId) (u : Tid) (id : Nat) : s'.beforeEdge k u id = s.beforeEdge k u id := by
    rw [State.beforeEdge_eq, h.edges, ← State.beforeEdge_eq]
  simp only [State.accessesBefore, State.discardsBefore, State.precedes, hedge, h.mem]

theorem State.expect_keepsSpawns (s : State) (t : Tid) (cells : List RegCell) (shared : Bool) :
    KeepsSpawns s (s.expect t cells shared).2 := by
  have hview := s.expect_view t cells shared
  obtain ⟨co, -, he⟩ := s.expect_snd t cells shared
  rw [he] at hview ⊢
  exact ⟨hview, rfl, fun _ => rfl, List.Subset.refl _⟩

theorem State.recordSpawn_keepsSpawns (s : State) (x : Spawn) : KeepsSpawns s (s.recordSpawn x) :=
  ⟨.of_same rfl rfl rfl (fun _ => rfl) fun _ => rfl, rfl, fun _ => rfl, List.subset_append_left ..⟩

theorem State.endReplay_keepsSpawns (s : State) (lid : Nat) : KeepsSpawns s (s.endReplay lid) :=
  ⟨s.endReplay_view lid, rfl, fun _ => rfl, List.Subset.refl _⟩

theorem State.closeTeam_keepsSpawns (s : State) (t : Tid) : KeepsSpawns s (s.closeTeam t) := by
  refine ⟨s.closeTeam_view t, rfl, fun k => ?_, List.Subset.refl _⟩
  rw [State.team, State.closeTeam, State.modTeam_teams, tget_tmod]
  split
  · rw [Option.map_map]
    rfl
  · rfl

theorem sendSpawn_keepsSpawns (d : Reg) (lead : Option Tid) (t : Tid) (x : Nat × Word) (st : State) :
    KeepsSpawns st (sendSpawn d lead t x st) :=
  (((st.expect_keepsSpawns t _ d.isS).trans (State.recordSpawn_keepsSpawns _ _)).trans
    (State.endReplay_keepsSpawns _ t.coh.team.lid)).trans (State.closeTeam_keepsSpawns _ t)

/-- A SPAWN's own record, and the result that its thread awaits for it. -/
theorem sendSpawn_record {d : Reg} {lead : Option Tid} {t : Tid} {x : Nat × Word} {st : State} {th : Thread}
    (ht : tget st.threads t = some th) : ∃ y ∈ (sendSpawn d lead t x st).cp.spawns, y.tid = t ∧ y.va = x.1 ∧ y.arg = x.2 ∧
      y.after = st.accessesBefore t (fun _ _ => true) ∧
      (sendSpawn d lead t x st).outstanding t y.pend (if d.isS = true then [] else cellsOf th d 1) := by
  have hth : st.thread t = th := State.thread_of_tget ht
  have hw := State.expect_outstanding ht (if d.isS && lead ≠ some t then [] else cellsOf (st.thread t) d 1) d.isS
  have hcells : (if d.isS = true then [] else if d.isS && lead ≠ some t then [] else cellsOf (st.thread t) d 1) =
      if d.isS = true then [] else cellsOf th d 1 := by
    rw [hth]
    cases d.isS <;> rfl
  rw [hcells, ← State.expect_fst] at hw
  exact ⟨_, List.mem_append_right _ List.mem_cons_self, rfl, rfl, rfl, rfl, hw⟩

section Spawn
variable {gd : Guard} {d : Reg} {a b : Src} {s : State} {t : Tid}

/-- SPAWN leaves its record, whatever the other lanes do, and goes on (R224). -/
theorem spawn_does {P : DWord} {w : Word} (ha : readPair s t a = .ok P) (hb : readSrc s t b = .ok w) (halign : P.toNat % 64 = 0)
    (hcanonical : P.toNat < 2 ^ 57) : Does (.spawn gd d a b) gd s t fun is th s' => Passed s is t th s' ∧
      ∃ x ∈ s'.cp.spawns, x.tid = t ∧ x.va = P.toNat ∧ x.arg = w ∧ x.after = s.accessesBefore t (fun _ _ => true) ∧
        ∃ q ∈ (s'.thread t).pends, q.id = x.pend ∧ q.cells = if d.isS = true then [] else cellsOf th d 1 := by
  intro is th hx
  have hargs : spawnArgs s a b t = .ok (P.toNat, w) := by
    simpa [spawnArgs, ha, hb, halign, bind, Except.bind] using hcanonical
  have hlane (st : State) (u : Tid) : KeepsSpawns st
      (laneEffect (fun t => (spawnArgs s a b t).map (sendSpawn d (leadOf (s.execs gd) (spawnArgs s a b)) t)) st u) := by
    cases hu : spawnArgs s a b u with
    | error tr => simpa [laneEffect, hu, Except.map] using KeepsSpawns.refl st
    | ok x => simpa [laneEffect, hu, Except.map] using sendSpawn_keepsSpawns d _ u x st
  obtain ⟨s1, hbefore, hrest⟩ := foldl_reaches KeepsSpawns.refl KeepsSpawns.trans hlane hx.mem_execs s
  simp only [laneEffect, hargs, Except.map] at hrest
  have hown := sendSpawn_keepsSpawns d (leadOf (s.execs gd) (spawnArgs s a b)) t (P.toNat, w) s1
  have hall := (hbefore.trans hown).trans hrest
  obtain ⟨ps, hps, -⟩ := hbefore.threads t th hx.entry
  obtain ⟨ps', hps', -⟩ := (hbefore.trans hown).threads t th hx.entry
  obtain ⟨x, hmem, htid, hva, harg, hafter, hw⟩ := sendSpawn_record (d := d) (x := (P.toNat, w)) hps
  refine ⟨_, exec_spawn gd d a b s, ?_⟩
  rw [laneGroup_eq]
  refine ⟨hall.passed hx fun th' => by rw [hargs]; rfl, x, ?_, htid, hva, harg, hafter.trans (hbefore.accessesBefore t), ?_⟩
  · rw [runGroup_cp]
    exact hrest.spawns hmem
  · exact runGroup_outstanding (hall.executes hx) (fun th' => by rw [hargs]; rfl) (hrest.outstanding hps' hw)

end Spawn

/-! ### EXIT -/

/-- A thread that has ended. -/
def State.exited (s : State) (t : Tid) (th : Thread) : Prop := tget s.threads t = some th ∧ th.status = .exited

/-- A change of the threads that leaves ended ones as they are. -/
theorem State.exited_of_map {s s' : State} {t : Tid} {th : Thread} {f : Tid × Thread → Tid × Thread} (h : s.exited t th)
    (hs : s'.threads = s.threads.map f) (hkey : ∀ p, (f p).1 = p.1) (hf : f (t, th) = (t, th)) : s'.exited t th := by
  obtain ⟨ht, hst⟩ := h
  exact ⟨by rw [hs, tget_map _ _ hkey, ht, Option.map_some, hf], hst⟩

theorem releaseConv_fst (c : CohId) (es : List ConvEntry) (p : Tid × Thread) : (releaseConv c es p).1 = p.1 := by
  unfold releaseConv
  split
  · split <;> rfl
  · rfl

/-- Completion releases Blocked threads alone (R201). -/
theorem settleConv_exited {s : State} {t : Tid} {th : Thread} (c : CohId) (h : s.exited t th) : (settleConv c s).exited t th := by
  refine State.exited_of_map (f := releaseConv c (popComplete (s.cohort c).conv).1) h rfl (releaseConv_fst c _) ?_
  simp [releaseConv, h.2]

theorem releaseBar_exited {k : BarKey} {phase : Nat} {th : Thread} (h : th.status = .exited) : releaseBar k phase th = th := by
  simp [releaseBar, h]

theorem foldl_acquireL1_threads (which : Region → Bool) (ts : List Tid) (s : State) :
    (ts.foldl (fun st t => st.acquireL1 t which) s).threads = s.threads :=
  foldl_keeps State.threads (f := fun st t => st.acquireL1 t which) (fun _ _ => rfl) ts s

theorem foldl_acquireL1_cohorts (which : Region → Bool) (ts : List Tid) (s : State) :
    (ts.foldl (fun st t => st.acquireL1 t which) s).cohorts = s.cohorts :=
  foldl_keeps State.cohorts (f := fun st t => st.acquireL1 t which) (fun _ _ => rfl) ts s

/-- Barriers release Blocked threads alone and leave the cohorts as they are (R208). -/
theorem settleBar_keeps (fuel : Nat) (k : BarKey) : ∀ s : State,
    (settleBar fuel k s).cohorts = s.cohorts ∧ ∀ t th, s.exited t th → (settleBar fuel k s).exited t th := by
  induction fuel with
  | zero => exact fun s => ⟨rfl, fun _ _ h => h⟩
  | succ n ih =>
    intro s
    rw [settleBar]
    split
    · refine ⟨(ih _).1.trans (foldl_acquireL1_cohorts ..), fun t th h => (ih _).2 t th ?_⟩
      refine State.exited_of_map (f := fun p => (p.1, releaseBar k (s.bar k).phase p.2)) h (foldl_acquireL1_threads ..) (fun _ => rfl) ?_
      rw [releaseBar_exited h.2]
    · exact ⟨rfl, fun _ _ h => h⟩

theorem foldl_settleBar_keeps (keys : List BarKey) : ∀ s : State, (keys.foldl (fun st k => st.settleBar k) s).cohorts = s.cohorts ∧
    ∀ t th, s.exited t th → (keys.foldl (fun st k => st.settleBar k) s).exited t th := by
  induction keys with
  | nil => exact fun s => ⟨rfl, fun _ _ h => h⟩
  | cons k keys ih =>
    intro s
    obtain ⟨hco, hex⟩ := settleBar_keeps ((s.bar k).held.length + 1) k s
    obtain ⟨hco', hex'⟩ := ih (s.settleBar k)
    exact ⟨hco'.trans hco, fun t th h => hex' t th (hex t th h)⟩

theorem State.settleExits_keeps (s : State) (ts : List Tid) :
    (s.settleExits ts).cohorts = s.cohorts ∧ ∀ t th, s.exited t th → (s.settleExits ts).exited t th :=
  foldl_settleBar_keeps _ s

/-- The lane of a thread is in no mask of a list of entries. -/
def LaneGone (l : Fin 32) (es : List ConvEntry) : Prop := ∀ e ∈ es, inMask e.mask l = false

theorem mem_of_mem_popComplete {e : ConvEntry} {es : List ConvEntry} (h : e ∈ (popComplete es).2) : e ∈ es := by
  induction es with
  | nil => exact h
  | cons x es ih =>
    rw [popComplete] at h
    split at h
    · exact List.mem_cons_of_mem _ (ih h)
    · exact h

/-- What is left in every entry's mask after lanes are dropped (R204). -/
theorem mask_of_mem_dropLanes {m : BitVec 32} {es : List ConvEntry} {e : ConvEntry} (h : e ∈ dropLanes es.length m es) :
    ∃ x ∈ es, e.mask = x.mask &&& ~~~m := by
  simp only [dropLanes, List.take_length, List.drop_length, List.append_nil, List.mem_filter, List.mem_map] at h
  obtain ⟨⟨x, hx, rfl⟩, -⟩ := h
  exact ⟨x, hx, rfl⟩

theorem LaneGone.dropLanes {l : Fin 32} {es : List ConvEntry} (h : LaneGone l es) (m : BitVec 32) :
    LaneGone l (dropLanes es.length m es) := by
  intro e he
  obtain ⟨x, hx, hm⟩ := mask_of_mem_dropLanes he
  have hx := h x hx
  rw [inMask] at hx
  rw [inMask, hm, BitVec.getLsbD_and, hx, Bool.false_and]

theorem laneGone_dropLanes {l : Fin 32} {m : BitVec 32} (hl : inMask m l = true) (es : List ConvEntry) :
    LaneGone l (dropLanes es.length m es) := by
  intro e he
  obtain ⟨x, hx, hm⟩ := mask_of_mem_dropLanes he
  rw [inMask] at hl
  rw [inMask, hm, BitVec.getLsbD_and, BitVec.getLsbD_not, hl, Bool.not_true, Bool.and_false, Bool.and_false]

/-- A thread's lane is in the mask of a list that it is in. -/
theorem inMask_laneMask {t : Tid} {ts : List Tid} (h : t ∈ ts) : inMask (laneMask ts) t.lane = true := by
  obtain ⟨m, -, hm⟩ := foldl_reaches (R := fun a b : BitVec 32 => a.getLsbD t.lane.val = true → b.getLsbD t.lane.val = true)
    (fun _ h => h) (fun h k x => k (h x)) (f := fun acc t => acc ||| 1#32 <<< t.lane.val)
    (fun a u ha => by rw [BitVec.getLsbD_or, ha, Bool.true_or]) h 0#32
  refine hm ?_
  rw [BitVec.getLsbD_or]
  simp

/-- The stack of a cohort after another's has been settled, or its own. -/
theorem settleConv_conv (c c' : CohId) (s : State) : ((settleConv c s).cohort c').conv =
    if c = c' then (popComplete (s.cohort c').conv).2 else (s.cohort c').conv := by
  simp only [settleConv, State.cohort, tget_tmod]
  split
  · rename_i hc
    subst hc
    cases tget s.cohorts c <;> rfl
  · rfl

theorem State.modConv_conv (s : State) (c c' : CohId) {f : List ConvEntry → List ConvEntry} (hf : f [] = []) :
    ((s.modConv c f).cohort c').conv = if c = c' then f (s.cohort c').conv else (s.cohort c').conv := by
  simp only [State.modConv, State.modCohort, State.cohort, tget_tmod]
  split
  · rename_i hc
    subst hc
    cases tget s.cohorts c with
    | none => exact hf.symm
    | some x => rfl
  · rfl

/-- What leaving does for one cohort: its threads' lanes are dropped from every mask, and entries that this completes are taken (R204). -/
def leaveCohort (ts : List Tid) (s : State) (c : CohId) : State :=
  settleConv c (s.modConv c fun l => dropLanes l.length (laneMask (ts.filter fun t => t.coh = c)) l)

theorem leaveCohort_conv (ts : List Tid) (s : State) (c c' : CohId) : ((leaveCohort ts s c).cohort c').conv =
    if c = c' then (popComplete (dropLanes (s.cohort c').conv.length (laneMask (ts.filter fun t => t.coh = c)) (s.cohort c').conv)).2
    else (s.cohort c').conv := by
  rw [leaveCohort, settleConv_conv, State.modConv_conv _ _ _ rfl]
  split <;> rfl

theorem leaveCohort_exited {s : State} {t : Tid} {th : Thread} (ts : List Tid) (c : CohId) (h : s.exited t th) :
    (leaveCohort ts s c).exited t th := settleConv_exited c h

/-- Threads that leave are in no mask of their cohort, and ended ones stay as they are (R204). -/
theorem State.leaveConv_keeps {s : State} {ts : List Tid} {t : Tid} {th : Thread} (ht : t ∈ ts) (h : s.exited t th) :
    (s.leaveConv ts).exited t th ∧ LaneGone t.lane ((s.leaveConv ts).cohort t.coh).conv := by
  have hstep (s : State) (c : CohId) : (s.exited t th → (leaveCohort ts s c).exited t th) ∧
      (LaneGone t.lane (s.cohort t.coh).conv → LaneGone t.lane ((leaveCohort ts s c).cohort t.coh).conv) := by
    refine ⟨leaveCohort_exited ts c, fun hg => ?_⟩
    rw [leaveCohort_conv]
    split
    · exact fun e he => hg.dropLanes _ e (mem_of_mem_popComplete he)
    · exact hg
  have hc : t.coh ∈ (ts.map fun t => t.coh).eraseDups := List.mem_eraseDups.mpr (List.mem_map_of_mem ht)
  obtain ⟨s1, ⟨hbefore, -⟩, hex, hgone⟩ := foldl_reaches (R := fun s s' : State => (s.exited t th → s'.exited t th) ∧
      (LaneGone t.lane (s.cohort t.coh).conv → LaneGone t.lane (s'.cohort t.coh).conv))
    (fun _ => ⟨id, id⟩) (fun h k => ⟨k.1 ∘ h.1, k.2 ∘ h.2⟩) hstep hc s
  refine ⟨hex (leaveCohort_exited ts _ (hbefore h)), hgone ?_⟩
  rw [leaveCohort_conv, if_pos rfl]
  have hmine : t ∈ ts.filter fun u => u.coh = t.coh := List.mem_filter.mpr ⟨ht, decide_eq_true rfl⟩
  exact fun e he => laneGone_dropLanes (inMask_laneMask hmine) _ e (mem_of_mem_popComplete he)

/-- EXIT ends its threads and takes them out of their cohort's masks (R204, R210, R225). -/
theorem exit_does (gd : Guard) (s : State) (t : Tid) : Does (.exit gd) gd s t fun is _ s' => (s'.thread t).status = .exited ∧
    (s'.thread t).pc = nextPc is.pc ∧ ∀ e ∈ (s'.cohort t.coh).conv, inMask e.mask t.lane = false := by
  intro is th hx
  have hended : (runGroup gd (fun _ th => .ok (th, .exit)) skipPlain s).exited t (applyAct is .exit th) := by
    refine ⟨?_, rfl⟩
    rw [runGroup_member _ _ _ hx.issue hx.member hx.entry]
    simp [threadStep, hx.guard]
  obtain ⟨hleft, hgone⟩ := State.leaveConv_keeps hx.mem_execs hended
  obtain ⟨hco, hex⟩ := ((runGroup gd (fun _ th => .ok (th, .exit)) skipPlain s).leaveConv (s.execs gd)).settleExits_keeps (s.execs gd)
  have hth := State.thread_of_tget (hex t _ hleft).1
  refine ⟨_, rfl, congrArg Thread.status hth, (congrArg Thread.pc hth).trans (advance_pc is th), ?_⟩
  rw [State.cohort, hco]
  exact hgone

theorem spawnAndExitComplete : Claims.SpawnAndExitComplete := by
  intro gd d a b s t P w ha hb
  exact ⟨spawn_does ha hb, exit_does gd s t⟩

/-! ### Stage queues -/

/-- The items of a stage's input queue, as a thread's launch has it. -/
def stageItems (s : State) (t : Tid) (k : Nat) : Option (List QueueItem) :=
  (s.launch t).bind fun l => (l.stages[k]?).map fun g => g.items

/-- A thread's register is told a word (R226): the word is on its way to an outstanding write of it. -/
def Told (s : State) (t : Tid) (d : Reg) (w : Word) (s' : State) : Prop :=
  ∃ x ∈ s'.mem.arrivals, x.tid = t ∧ x.words = [w] ∧
    ∃ q ∈ (s'.thread t).pends, q.id = x.pend ∧ q.cells = if d.isS = true then [] else cellsOf (s.thread t) d 1

/-- A closing instruction of a thread of a launch (R122, R498): its team's region closed, and the launch's replay ended. -/
def State.closeRegion (s : State) (t : Tid) : State := (s.closeTeam t).endReplay t.coh.team.lid

theorem State.closeRegion_view (s : State) (t : Tid) : KeepsView s (s.closeRegion t) :=
  (s.closeTeam_view t).trans (State.endReplay_view _ _)

theorem State.closeRegion_launch {s : State} {t : Tid} {l : Launch} (h : s.launch t = some l) :
    (s.closeRegion t).launch t = some { l with replayable := false } :=
  State.launchOf_modLaunch_self (fun _ => rfl) h

theorem mapIdx_lid (k : Nat) (f : List QueueItem → List QueueItem) (gs : List StageRun) :
    (gs.mapIdx fun i g => if i = k then { g with items := f g.items } else g).map StageRun.lid = gs.map StageRun.lid := by
  refine List.ext_getElem (by simp) fun i _ _ => ?_
  simp only [List.getElem_map, List.getElem_mapIdx]
  split <;> rfl

theorem State.modItems_view (s : State) (lid k : Nat) (f : List QueueItem → List QueueItem) : KeepsView s (s.modItems lid k f) :=
  s.modLaunch_view lid (fun l => mapIdx_lid k f l.stages) fun _ => rfl

/-- A changed queue. -/
theorem State.modItems_stageItems {s : State} {t : Tid} {k : Nat} {q : List QueueItem} (f : List QueueItem → List QueueItem)
    (h : stageItems s t k = some q) : stageItems (s.modItems t.coh.team.lid k f) t k = some (f q) := by
  unfold stageItems at h ⊢
  cases hl : s.launch t with
  | none => simp [hl] at h
  | some l =>
    have hl' : (s.modItems t.coh.team.lid k f).launch t = _ := State.launchOf_modLaunch_self (fun l => mapIdx_lid k f l.stages) hl
    rw [hl, Option.bind_some] at h
    obtain ⟨g, hg, rfl⟩ := Option.map_eq_some_iff.mp h
    simp [hl', List.getElem?_mapIdx, hg]

/-- The end of a stage-queue instruction of a lane that leads: it goes on, its register awaiting the word that is told; launches and
teams are what its queue's change has left. -/
theorem queueResult_told {s s0 : State} {is : Issue} {gd : Guard} {t : Tid} {th : Thread} {f : Tid → Thread → Except Trap (Thread × Act)}
    (d : Reg) (w : Word) (h : KeepsView s s0) (hx : Executes s is gd t th) (hf : ∀ th', f t th' = .ok (th', .next)) :
    let s' := runGroup gd f skipPlain (queueResult d true t w s0)
    Passed s is t th s' ∧ Told s t d w s' ∧ s'.launches = s0.launches ∧ s'.teams = s0.teams := by
  obtain ⟨ps, hps, -⟩ := h.threads t th hx.entry
  have hcells : cellsOf (s0.thread t) d 1 = cellsOf (s.thread t) d 1 := by
    rw [State.thread_of_tget hps, State.thread_of_tget hx.entry]
    rfl
  have hresult : queueResult d true t w s0 =
      (s0.expect t (cellsOf (s.thread t) d 1) d.isS).2.arrive t s0.nextId [w] none := by
    rw [← hcells, ← s0.expect_fst t (cellsOf (s0.thread t) d 1) d.isS]
    simp [queueResult]
  have hview : KeepsView s (queueResult d true t w s0) := by
    rw [hresult]
    exact (h.trans (s0.expect_view t _ d.isS)).trans (.of_same rfl rfl rfl (fun _ => rfl) fun _ => rfl)
  have hawaits : (queueResult d true t w s0).outstanding t s0.nextId (if d.isS = true then [] else cellsOf (s.thread t) d 1) := by
    rw [hresult]
    exact State.expect_outstanding hps _ d.isS
  obtain ⟨co, -, he⟩ := s0.expect_snd t (cellsOf (s.thread t) d 1) d.isS
  refine ⟨hview.passed hx hf,
    ⟨{ pend := s0.nextId, tid := t, words := [w], bank := none, page := none }, ?_, rfl, rfl,
      runGroup_outstanding (hview.executes hx) hf hawaits⟩, ?_, ?_⟩
  · rw [runGroup_mem, hresult]
    exact List.mem_append_right _ List.mem_cons_self
  · rw [runGroup_launches, hresult, he]
    rfl
  · rw [runGroup_teams, hresult, he]
    rfl

theorem cellGetAll_eq_map (dflt : Byte) (o n : Nat) (m : List Host.Cell) :
    cellGetAll dflt o n m = (List.range n).map fun i => cellGet dflt (o + i) m := by
  induction n generalizing o with
  | zero => rfl
  | succ n ih =>
    rw [cellGetAll, ih, List.range_succ_eq_map, List.map_cons, List.map_map]
    simp [Function.comp_def, Nat.add_comm, Nat.add_left_comm]

/-- Bytes written are read back. -/
theorem cellGetAll_cellPutAll (dflt : Byte) (o : Nat) (bs : List Byte) (m : List Host.Cell) :
    cellGetAll dflt o bs.length (cellPutAll dflt o bs m) = bs := by
  refine List.ext_getElem (cellGetAll_length ..) fun i _ hi => ?_
  simp only [cellGetAll_eq_map, List.getElem_map, List.getElem_range, cellGet_cellPutAll]
  rw [if_pos ⟨by omega, by omega⟩]
  simp [hi]

section Queues
variable {gd : Guard} {d : Reg} {a : Src} {s : State} {t : Tid} {l : Launch} {k : Nat} {v : Word}

theorem queueOffset_ok (ha : readSrc s t a = .ok v) (halign : v.toNat % 64 = 0) (hroom : v.toNat + 64 ≤ s.scrOf t.coh.team) :
    queueOffset s t a = .ok v.toNat := by
  have hin : ¬ s.scrOf t.coh.team < v.toNat + 64 := by omega
  simp [queueOffset, ha, halign, hin, bind, Except.bind]

theorem leadOf_one {α : Type} {f : Tid → Except Trap α} {x : α} (hf : f t = .ok x) : leadOf [t] f = some t := by
  simp [leadOf, goodLanes, hf]

/-- What ENQ does for a lane alone: it closes its region, and where the queue has room puts 64 bytes there (R226). -/
def putItem (d : Reg) (t : Tid) (k o : Nat) (st : State) : State :=
  let st0 := st.closeRegion t
  let items := (((st0.launch t).bind fun l => l.stages[k]?).map fun g => g.items).getD []
  if 256 ≤ items.length then queueResult d true t 0#32 st0
  else queueResult d true t 1#32 (st0.modItems t.coh.team.lid k fun q => q ++ [st0.scratchGet t.coh.team o 64])

/-- What DEQ does for a lane alone: it closes its region and takes the oldest item of its stage's queue into scratch (R226). -/
def takeItem (d : Reg) (t : Tid) (k o ncl : Nat) (st : State) : State :=
  let st0 := st.closeRegion t
  let items := (((st0.launch t).bind fun l => l.stages[k]?).map fun g => g.items).getD []
  match items with
  | it :: rest =>
    queueResult d true t 1#32 ((st0.modItems t.coh.team.lid k fun _ => rest).modTeam t.coh.team fun m => m.scratchPut o it)
  | [] =>
    let isOver := (((st0.launch t).bind fun l => l.stages[k - 1]?).map fun g => decide (ncl ≤ g.ended)).getD false
    queueResult d true t (if isOver then 2#32 else 0#32) st0

/-- ENQ of a lane alone. -/
theorem exec_enq (hone : s.execs gd = [t]) (ho : queueOffset s t a = .ok v.toNat) (hstage : s.stageOf t = some (l, k))
    (hnext : k + 1 < l.desc.stages.length) : ∃ F, (∀ th, F t th = .ok (th, .next)) ∧
      exec (.enq gd d a) s = .next (runGroup gd F skipPlain (putItem d t (k + 1) v.toNat s)) := by
  have hlead : leadOf (s.execs gd) (queueOffset s · a) = some t := by
    rw [hone]
    exact leadOf_one ho
  refine exec_laneGroup_one rfl hone ?_
  simp only [hstage, if_neg (Nat.not_le.mpr hnext), ho, hlead, eq_self, decide_true]
  rfl

/-- DEQ of a lane alone. -/
theorem exec_deq (hone : s.execs gd = [t]) (ho : queueOffset s t a = .ok v.toNat) (hstage : s.stageOf t = some (l, k))
    (hk : k ≠ 0) : ∃ F, (∀ th, F t th = .ok (th, .next)) ∧
      exec (.deq gd d a) s = .next (runGroup gd F skipPlain (takeItem d t k v.toNat l.desc.ncl s)) := by
  have hlead : leadOf (s.execs gd) (queueOffset s · a) = some t := by
    rw [hone]
    exact leadOf_one ho
  refine exec_laneGroup_one rfl hone ?_
  simp only [hstage, if_neg hk, ho, hlead, eq_self, decide_true]
  rfl

/-- Closing a region leaves the stages' queues as they were. -/
theorem closeRegion_stageItems {n : Nat} {g : StageRun} (hl : s.launch t = some l) (hg : l.stages[n]? = some g) :
    stageItems (s.closeRegion t) t n = some g.items := by
  simp [stageItems, State.closeRegion_launch hl, hg]

/-- Closing a region leaves scratch as it was. -/
theorem closeRegion_scratchGet (o n : Nat) : (s.closeRegion t).scratchGet t.coh.team o n = s.scratchGet t.coh.team o n := by
  simp only [State.scratchGet, State.team, State.closeRegion, State.closeTeam, State.endReplay, State.modLaunch_teams,
    State.modTeam_teams, tget_tmod_self, Option.map_map]
  rfl

/-- An item put into a queue with room, or a full queue (R226). -/
theorem putItem_eq {n o : Nat} {g : StageRun} (hl : s.launch t = some l) (hg : l.stages[n]? = some g) : putItem d t n o s =
    if 256 ≤ g.items.length then queueResult d true t 0#32 (s.closeRegion t)
    else queueResult d true t 1#32
      ((s.closeRegion t).modItems t.coh.team.lid n fun q => q ++ [s.scratchGet t.coh.team o 64]) := by
  simp [putItem, State.closeRegion_launch hl, hg, closeRegion_scratchGet]

/-- The oldest item taken from a queue. -/
theorem takeItem_cons {n o ncl : Nat} {g : StageRun} {it : QueueItem} {rest : List QueueItem} (hl : s.launch t = some l)
    (hg : l.stages[n]? = some g) (hitems : g.items = it :: rest) : takeItem d t n o ncl s = queueResult d true t 1#32
      (((s.closeRegion t).modItems t.coh.team.lid n fun _ => rest).modTeam t.coh.team fun m => m.scratchPut o it) := by
  simp [takeItem, State.closeRegion_launch hl, hg, hitems]

/-- An empty queue: ended, or not yet (R226). -/
theorem takeItem_nil {n o : Nat} {g up : StageRun} (hl : s.launch t = some l) (hg : l.stages[n]? = some g)
    (hup : l.stages[n - 1]? = some up) (hitems : g.items = []) : takeItem d t n o l.desc.ncl s =
      queueResult d true t (if l.desc.ncl ≤ up.ended then 2#32 else 0#32) (s.closeRegion t) := by
  simp [takeItem, State.closeRegion_launch hl, hg, hup, hitems]

/-- A queue's items are read from the launches alone. -/
theorem stageItems_congr {s s' : State} (h : s'.launches = s.launches) (t : Tid) (n : Nat) : stageItems s' t n = stageItems s t n := by
  rw [stageItems, State.launch, State.launchOf, h]
  rfl

theorem enq_does {g : StageRun} (hone : s.execs gd = [t]) (ho : queueOffset s t a = .ok v.toNat) (hstage : s.stageOf t = some (l, k))
    (hl : s.launch t = some l) (hnext : k + 1 < l.desc.stages.length) (hg : l.stages[k + 1]? = some g) :
    Does (.enq gd d a) gd s t fun is th s' => Passed s is t th s' ∧
      if 256 ≤ g.items.length then Told s t d 0#32 s' ∧ stageItems s' t (k + 1) = some g.items
      else Told s t d 1#32 s' ∧ stageItems s' t (k + 1) = some (g.items ++ [s.scratchGet t.coh.team v.toNat 64]) := by
  intro is th hx
  obtain ⟨F, hF, he⟩ := exec_enq (d := d) hone ho hstage hnext
  refine ⟨_, he, ?_⟩
  rw [putItem_eq hl hg]
  have hitems := closeRegion_stageItems hl hg
  have hview := s.closeRegion_view t
  split
  · obtain ⟨hpassed, htold, hlaunches, -⟩ := queueResult_told d 0#32 hview hx hF
    exact ⟨hpassed, htold, (stageItems_congr hlaunches t _).trans hitems⟩
  · obtain ⟨hpassed, htold, hlaunches, -⟩ := queueResult_told d 1#32 (hview.trans (State.modItems_view _ t.coh.team.lid (k + 1)
      fun q => q ++ [s.scratchGet t.coh.team v.toNat 64])) hx hF
    exact ⟨hpassed, htold, (stageItems_congr hlaunches t _).trans (State.modItems_stageItems _ hitems)⟩

theorem deq_does {g up : StageRun} {m : Team} (hone : s.execs gd = [t]) (ho : queueOffset s t a = .ok v.toNat)
    (hstage : s.stageOf t = some (l, k)) (hl : s.launch t = some l) (hm : tget s.teams t.coh.team = some m) (hk : k ≠ 0)
    (hg : l.stages[k]? = some g) (hup : l.stages[k - 1]? = some up) :
    Does (.deq gd d a) gd s t fun is th s' => Passed s is t th s' ∧
      match g.items with
      | it :: rest => Told s t d 1#32 s' ∧ stageItems s' t k = some rest ∧ s'.scratchGet t.coh.team v.toNat it.length = it
      | [] => Told s t d (if l.desc.ncl ≤ up.ended then 2#32 else 0#32) s' ∧ stageItems s' t k = some [] := by
  intro is th hx
  obtain ⟨F, hF, he⟩ := exec_deq (d := d) hone ho hstage hk
  refine ⟨_, he, ?_⟩
  have hqueue := closeRegion_stageItems hl hg
  have hview := s.closeRegion_view t
  cases hitems : g.items with
  | nil =>
    rw [takeItem_nil hl hg hup hitems]
    obtain ⟨hpassed, htold, hlaunches, -⟩ := queueResult_told d (if l.desc.ncl ≤ up.ended then 2#32 else 0#32) hview hx hF
    exact ⟨hpassed, htold, (stageItems_congr hlaunches t _).trans (hqueue.trans (congrArg some hitems))⟩
  | cons it rest =>
    rw [takeItem_cons hl hg hitems]
    obtain ⟨hpassed, htold, hlaunches, hteams⟩ := queueResult_told d 1#32 ((hview.trans (State.modItems_view _ t.coh.team.lid k
      fun _ => rest)).trans (State.modTeam_view _ t.coh.team (f := fun m => m.scratchPut v.toNat it) fun _ => rfl)) hx hF
    refine ⟨hpassed, htold, (stageItems_congr hlaunches t _).trans (State.modItems_stageItems (fun _ => rest) hqueue), ?_⟩
    rw [State.scratchGet, State.team, hteams]
    simp only [State.modTeam_teams, State.modItems, State.modLaunch_teams, State.closeRegion, State.endReplay, State.closeTeam,
      tget_tmod_self, hm]
    exact cellGetAll_cellPutAll 0#8 v.toNat it _

end Queues

theorem stageQueueInstructionsComplete : Claims.StageQueueInstructionsComplete := by
  intro gd d a s t l k g up v m hone ha halign hroom hstage hl hm
  have ho := queueOffset_ok ha halign hroom
  exact ⟨fun hnext hg => enq_does hone ho hstage hl hnext hg, fun hk hg hup => deq_does hone ho hstage hl hm hk hg hup⟩

/-! ### Regions and timed waits -/

section Regions
variable {gd : Guard} {s : State}

/-- The resume words of a region: the words given, and zero beyond them (R227). -/
theorem regionSlots_get (vals : List Word) (n : Nat) (i : Fin 4) :
    let slot (i : Nat) : Word := if i < n then vals.getD i 0#32 else 0#32
    #v[slot 0, slot 1, slot 2, slot 3][i] = slot i.val := by
  match i with
  | 0 | 1 | 2 | 3 => rfl

/-- RGN enters a region with its lowest lane's words in the resume slots (R227, R446). -/
theorem rgn_does {r : Option Reg} {n : Fin 5} {t u : Tid} {m : Team} (hu : (s.execs gd).head? = some u)
    (hm : tget s.teams u.coh.team = some m) :
    Does (.rgn gd r n) gd s t fun is th s' => Passed s is t th s' ∧ ∃ m', tget s'.teams u.coh.team = some m' ∧
      m'.restartable = decide (m.closed ≠ some s.cycle) ∧ m'.regionPc = nextPc is.pc ∧ m'.scratch = m.scratch ∧
      ∀ i : Fin 4, m'.slots[i] = match r with
        | some x => if i.val < n.val then readReg s u (x.plus i.val) else 0#32
        | none => 0#32 := by
  intro is th hx
  refine ⟨_, congrArg Outcome.next (onceGroup_head hu rfl), ?_⟩
  refine ⟨KeepsView.passed (s.modTeam_view u.coh.team fun _ => rfl) hx fun _ => rfl, ?_⟩
  rw [runGroup_teams, State.modTeam_teams, tget_tmod_self, hm]
  refine ⟨_, rfl, rfl, ?_, rfl, fun i => (regionSlots_get _ n.val i).trans ?_⟩
  · simp [State.issuePc, hx.issue]
  · cases r with
    | none => simp
    | some x =>
      by_cases hi : i.val < n.val
      · simp [Reg.span, hi]
      · simp [hi]

variable {a : Src} {t : Tid} {T : DWord}

/-- WAITT acts by its thread's own time (R228). -/
theorem exec_waitt (ha : readPair s t a = .ok T) :
    ∃ F, (∀ th, F t th = .ok (th, if T.toNat ≤ s.ptc.toNat then .yield else .sleep (.time T))) ∧
      exec (.waitt gd a) s = .next (runGroup gd F skipPlain s) := by
  refine ⟨_, fun th => ?_, rfl⟩
  simp only [ha]
  rfl

/-- WAITT for a time that has come ends the run of its threads (R228). -/
theorem waitt_transfers (ha : readPair s t a = .ok T) (h : T.toNat ≤ s.ptc.toNat) :
    Does (.waitt gd a) gd s t fun is th => Transferred s t th (nextPc is.pc) := by
  intro is th hx
  obtain ⟨F, hF, he⟩ := exec_waitt (gd := gd) ha
  simp only [if_pos h] at hF
  have hth := runGroup_ok gd F skipPlain hx (hF th)
  exact ⟨_, he, (congrArg Thread.pc hth).trans (advance_pc is th), congrArg Thread.status hth, congrArg Thread.latches hth,
    (KeepsView.refl s).sameValues hx hF⟩

/-- WAITT for a time to come has its threads wait for it (R228). -/
theorem waitt_waits (ha : readPair s t a = .ok T) (h : s.ptc.toNat < T.toNat) : Does (.waitt gd a) gd s t fun is th s' =>
    (s'.thread t).pc = nextPc is.pc ∧ (s'.thread t).status = .waiting ∧ (s'.thread t).wait = some (.time T) ∧ SameValues s t th s' := by
  intro is th hx
  obtain ⟨F, hF, he⟩ := exec_waitt (gd := gd) ha
  simp only [if_neg (Nat.not_le.mpr h)] at hF
  have hth := runGroup_ok gd F skipPlain hx (hF th)
  exact ⟨_, he, (congrArg Thread.pc hth).trans (advance_pc is th), congrArg Thread.status hth, congrArg Thread.wait hth,
    (KeepsView.refl s).sameValues hx hF⟩

end Regions

theorem regionsAndTimedWaitsComplete : Claims.RegionsAndTimedWaitsComplete := by
  intro gd r n a s t T ha
  exact ⟨fun u m hu hm _ => rgn_does hu hm, waitt_transfers ha, waitt_waits ha⟩

/-- Settles O19: SPAWN and EXIT, the stage queues, and regions with timed waits. -/
theorem spawnsStagesAndRegionsComplete : Obligations.SpawnsStagesAndRegionsComplete :=
  ⟨spawnAndExitComplete, stageQueueInstructionsComplete, regionsAndTimedWaitsComplete⟩

end Sys2Proof.Machine
end
